-- ==== Sys2Proof/Word.lean ====
section
/-! DEFINITION. Words, bytes and audio samples of the T1024 (00_scope.md, "Numbers, units and time"). -/

namespace Sys2Proof

/-- A 32-bit register or message word (R31, R42). -/
abbrev Word := BitVec 32

/-- One byte. -/
abbrev Byte := BitVec 8

/-- An audio sample: the raw integer of a Q1.31 value (00_scope.md). -/
abbrev Sample := Int

/-- The word of a natural number, modulo 2^32. -/
def wd (n : Nat) : Word := BitVec.ofNat 32 n

/-- The word of an integer, two's complement. -/
def wi (z : Int) : Word := BitVec.ofInt 32 z

/-- The field of `len` bits from bit `lo`, bits numbered from 0 (00_scope.md). -/
def fld (w : Word) (lo len : Nat) : Nat := (w.toNat / 2 ^ lo) % 2 ^ len

/-- Bit `i` of a number. -/
def bitOf (n i : Nat) : Bool := n / 2 ^ i % 2 == 1

/-- 1 for true, 0 for false. -/
def b2n (b : Bool) : Nat := if b then 1 else 0

end Sys2Proof
end

