-- ==== Sys2Proof/Syntax.lean ====
section
/-! DEFINITION. The commands of the block: one constructor of `Instr` per row of spec/opcode_table.json, with the operands
the rules give the step, and the plain data those operands are made of. The table gives no row any bits. -/

namespace Sys2Proof

/-- A name segment of a path, one character code per entry (R65). -/
abbrev Name := List Nat

/-- The nodes of the tree that are not parameters (R66, R571 and the chapters that define them). -/
inductive Node where
  | hub | wheel (w : Nat) | spoke (w s : Nat)
  | layout | car (n : Nat) | zone (n : Nat) | object (n : Nat)
  | feed (n : Nat) | align (n : Nat) | corr (n : Nat) | bank (n b : Nat) | eq (n : Nat) | limit (n : Nat) | till
  | channel (n : Nat) | bus (n : Nat) | scene | sceneChip (n : Nat) | sceneLib (n : Nat)
  | cls (k : Nat) | config | slot (n : Nat)
  | bell | bellMsg (n : Nat) | bellTrig (n : Nat) | bellRoute (n : Nat)
  | stage (nm : Name)
  | sai (n : Nat) | aesi (n : Nat) | aeso (n : Nat) | pdm (n : Nat)
  | gear | gearSai (n : Nat) | gearAesi (n : Nat) | gearPdm (n : Nat)
  | net (n : Nat) | gate (n : Nat) | ptp (n : Nat) | tx (n s : Nat) | rx (n s : Nat)
  | pilot (n : Nat)
  | tandem (path : List Name) | inst (path : List Name)
  | ring (e : Nat) | ledgerEvent | ledgerMargin
deriving DecidableEq, Repr

/-- A node, or the parameter node of one of its tags (R66, R572). -/
structure Ref where
  node : Node
  tag  : Option Nat
deriving DecidableEq, Repr

/-- A payload item of a message (R44). -/
structure Item where
  tag  : Nat
  vals : List Word
deriving DecidableEq, Repr

/-- A request that has passed the ring: the header fields the opcode's own rules use (R42), with the items of R44. -/
structure Request where
  mb       : Nat
  quiet    : Bool
  seq      : Word
  handle   : Word
  commitAt : Word
  items    : List Item
deriving DecidableEq, Repr

/-- A UDP datagram that reaches a network mailbox port (R57, R58). -/
structure Datagram where
  mac        : Nat
  srcAddr    : Word
  srcPort    : Nat
  dstPort    : Nat
  fragmented : Bool
  length     : Nat
  words      : List Word
deriving DecidableEq, Repr

/-- What one copy of an ALARM node did in a frame (R252, R253, R304). -/
inductive CopyOut where
  | missing
  | faulted (code : Nat)
  | present (out : List Sample) (sig : Nat)
deriving DecidableEq, Repr

/-- The two copies of one ALARM node as the hub finds them at the mark (R252). -/
structure CopyObs where
  node      : Node
  primary   : CopyOut
  secondary : CopyOut
deriving DecidableEq, Repr

/-- The auditor's result for one frame (R253): its output and signature, or not completed by the deadline. -/
inductive AuditRes where
  | usable (out : List Sample) (sig : Nat)
  | notUsable
deriving DecidableEq, Repr

/-- A pair of gear passes that differ, and what the deciding pass agrees with (R354). -/
inductive GearVote where
  | passA | passB | neither
deriving DecidableEq, Repr

/-- One gear channel whose ALARM passes disagree (R354). -/
structure GearObs where
  node : Node
  vote : GearVote
deriving DecidableEq, Repr

/-- What a pilot channel senses in a frame (R448) and the trim its calibration measures in 1/16 LSB (R449). -/
structure PilotObs where
  ch       : Nat
  sense    : Nat
  atLimit  : Bool
  overComp : Bool
  trim     : Int
deriving DecidableEq, Repr

/-- What the frame boundary finds outside the digital path: audited nodes that mismatch with the spoke charged (R255), gear
pass disagreements (R354), pilot channel readings (R448, R449). -/
structure FrameEnv where
  audits : List (Node × Nat)
  gear   : List GearObs
  pilots : List PilotObs
deriving DecidableEq, Repr

/-- A port with received clocks or a recovered stream (R323). -/
inductive PortId where
  | sai (n : Nat) | aesi (n : Nat)
deriving DecidableEq, Repr

/-- A gear channel's source (R342). -/
inductive GearId where
  | sai (n : Nat) | aesi (n : Nat) | pdm (n : Nat)
deriving DecidableEq, Repr

/-- A fade that SWAP_DONE ends (R179, R188, R164, R204). -/
inductive SwapUnit where
  | corr (f : Nat) | eq (f : Nat) | align (f : Nat) | chanEq (c : Nat) | busEq (b : Nat) | chanDelay (c : Nat)
deriving DecidableEq, Repr

/-- One AES3 subframe as received (R331, R333): the 24-bit sample, V, C, and the two error kinds. -/
structure Subframe where
  sample : Nat
  v      : Bool
  c      : Bool
  parity : Bool
  biph   : Bool
deriving DecidableEq, Repr

/-- The preamble of an AES3 frame (R331, R334): Z, X, or lost. -/
inductive Preamble where
  | z | x | lost
deriving DecidableEq, Repr

/-- An RTP packet as received (R390): the fields its acceptance and placement use. -/
structure RtpPacket where
  dst     : Word
  udpPort : Nat
  srcIp   : Word
  version : Nat
  pt      : Nat
  ssrc    : Word
  stamp   : Word
  rtag    : Option Nat
  payload : List Byte
deriving DecidableEq, Repr

/-- What a received frame carries (R366, R367, R375, R383). -/
inductive FrameBody where
  | pause (quanta : Nat)
  | macControl (opcode : Nat)
  | ptp (event : Bool) (stamp : Nat)
  | rtp (p : RtpPacket)
  | datagram (d : Datagram)
  | arp | icmpEcho | igmp
  | fragment
  | other
deriving DecidableEq, Repr

/-- A received Ethernet frame (R363, R365): length with FCS, FCS check, PHY code error, VID of its tag. -/
structure EthFrame where
  length  : Nat
  fcsOk   : Bool
  codeErr : Bool
  vid     : Option Nat
  body    : FrameBody
deriving DecidableEq, Repr

/-- The space a DRAM request addresses (R405, R408, R413). -/
inductive DramSpace where
  | normal
  | copyBound (ch : Nat)
  | mirrored
deriving DecidableEq, Repr

/-- A DRAM request: requester of R439, class, space, byte address, and the words to write (none: a read of `bytes`). -/
structure DramReq where
  requester : Nat
  cls       : Nat
  space     : DramSpace
  addr      : Nat
  bytes     : Nat
  write     : Bool
  data      : List Byte
deriving DecidableEq, Repr

/-- An ECC finding in one 64-bit word of the group a slot moves (R410). -/
structure EccObs where
  word   : Nat
  double : Bool
deriving DecidableEq, Repr

/-- The four masters of the control bus matrix (R466). -/
inductive Master where
  | tellerA | tellerB | pcie | spi
deriving DecidableEq, Repr

/-- The cause of an endpoint reset (R458, R494). -/
inductive PcieCause where
  | linkDown | hotReset | flr | perst
deriving DecidableEq, Repr

/-- The cause of a warm reset (R494). -/
inductive WarmCause where
  | sysrst | watchdog
deriving DecidableEq, Repr

/-- Sensor readings of a re-plan, the worst since the last one (R530): slack of each spoke, hub and tellers in ps, SRAM
minimum voltage in mV, temperature in 0.125 degrees, corrected words per GB per 24 h, smallest eye and eye drop in percent
of a unit interval, eye width of the eight byte lanes in ps. -/
structure SensorSet where
  slack    : List Int
  slackHub : Int
  slackTlr : Int
  sramVmin : Nat
  tempMax  : Int
  ceRate   : Nat
  eyeMin   : Nat
  eyeDrop  : Nat
  eyes     : List Nat
deriving DecidableEq, Repr

/-- The commands, one per row of spec/opcode_table.json, in the table's order. -/
inductive Instr where
  -- hub, cadence and clocks (01_frame_architecture.md)
  | frameBoundary (env : FrameEnv)
  | sampleBoundary (badWords : List Nat)
  | commitApply
  | spokeFrameComplete (sp : Nat)
  | spokeOverrun (sp : Nat)
  | spokeClockStep
  | mclkLoss (edges : Nat)
  | holdoverEnter
  | mclkRatioMeasure (ratio : Nat)
  | holdoverExit
  -- mailboxes (02_mailboxes.md)
  | hubMbInWrWrite (m : Nat) (v : Word)
  | hubMbOutRdWrite (m : Nat) (v : Word)
  | requestTake
  | requestTimeout (m : Nat)
  | responseWrite (m : Nat)
  | nmbDatagram (d : Datagram)
  | ping (r : Request)
  | lookup (r : Request)
  | release (r : Request)
  | query (r : Request)
  | read (r : Request)
  | stage (r : Request)
  | commit (r : Request)
  | discard (r : Request)
  | admitConfig (r : Request)
  | admissionApply
  | sceneStore (r : Request)
  | sceneRecall (r : Request)
  | filterLoad (r : Request)
  | eventRingSet (r : Request)
  | ledgerRead (r : Request)
  | ledgerClear (r : Request)
  | nmbConfig (r : Request) (flashOk : Bool)
  | fwBegin (r : Request)
  | fwData (r : Request)
  | fwEnd (r : Request)
  | fwUpdateTimeout
  | hubEvRdWrite (e : Nat) (v : Word)
  -- tellers (02, 16)
  | tellerDivergence
  | heartbeatTimeout
  | failoverEnter
  | hubBusyAnswer (m : Nat)
  | tellerTakeover
  | tellerSelfTestDone (pair : Nat) (pass : Bool)
  -- feeds, console, scenes (05, 06)
  | filterReady (f b : Nat)
  | loadAbandoned (f b : Nat)
  | laneReserve (f : Nat)
  | laneFillDone (f : Nat)
  | swapDone (u : SwapUnit)
  | rampEnd (n : Node) (tag : Nat)
  | routeFadeEnd (n : Node) (tag : Nat)
  | sceneDone
  | ambHoldEnd (z : Nat)
  -- ALARM copies and the Bell path (07)
  | alarmMark (obs : List CopyObs)
  | auditResolution (n : Node) (res : AuditRes)
  | bellTrigRecognise (n : Nat) (level : Bool)
  | bellRepetitionEnd (n : Nat)
  | bellGapEnd (n : Nat)
  -- spoke sequencer (08)
  | instanceEntry (sp : Nat) (path : List Name)
  | instanceDrainDone (sp : Nat)
  | fenceReached (sp : Nat)
  | dmaComplete (sp : Nat) (k : Nat)
  -- load/store slot (R288)
  | lnop (sp : Nat)
  | ldW (sp d p mode n : Nat)
  | ldD (sp d p mode n : Nat)
  | ldQ (sp d p mode n : Nat)
  | ldWW (sp da pa db pb : Nat)
  | stW (sp d p mode n : Nat)
  | stD (sp d p mode n : Nat)
  | stQ (sp d p mode n : Nat)
  | ldA (sp a p mode n : Nat)
  | stA (sp a p mode n : Nat)
  -- MAC slot (R289)
  | mnop (sp : Nat)
  | mac1 (sp : Nat) (s : Bool) (a x y : Nat) (z neg : Bool)
  | mac4V (sp : Nat) (s : Bool) (a x y : Nat) (z neg : Bool)
  | mac4B (sp : Nat) (s : Bool) (a x y : Nat) (z neg : Bool)
  | mac4W (sp : Nat) (s : Bool) (a x y : Nat) (z neg : Bool)
  | cmac (sp : Nat) (s : Bool) (a x y : Nat) (z neg conj : Bool)
  | red (sp : Nat) (s : Bool) (a x : Nat) (sh : BitVec 5)
  | red4 (sp : Nat) (s : Bool) (a x : Nat) (sh : BitVec 5)
  | aclr (sp a : Nat) (q : Bool)
  | mulr (sp : Nat) (s : Bool) (x y t : Nat)
  | add (sp : Nat) (s : Bool) (x y t : Nat)
  | sub (sp : Nat) (s : Bool) (x y t : Nat)
  | shl (sp : Nat) (s : Bool) (x y : Nat) (imm : Bool) (t : Nat)
  | shr (sp x y : Nat) (imm : Bool) (t : Nat)
  | and (sp x y t : Nat)
  | or (sp x y t : Nat)
  | xor (sp x y t : Nat)
  | min (sp x y t : Nat)
  | max (sp x y t : Nat)
  | abs (sp : Nat) (s : Bool) (x y : Nat)
  | neg (sp : Nat) (s : Bool) (x y : Nat)
  | mov (sp x y : Nat)
  -- control slot (R290)
  | cnop (sp : Nat)
  | cmacShort (sp : Nat) (s : Bool) (k x y : Nat) (z : Bool)
  | loop (sp : Nat) (level : Bool) (body count : Nat)
  | loopr (sp : Nat) (level : Bool) (body reg : Nat)
  | br (sp : Nat) (off : Int)
  | bz (sp reg : Nat) (off : Int)
  | bnz (sp reg : Nat) (off : Int)
  | movp (sp kind idx : Nat) (dir : Bool) (d : Nat)
  | flag (sp : Nat) (rd : Bool) (d : Nat) (clrOvr clrOva : Bool)
  | dma (sp d : Nat)
  | dwait (sp k : Nat)
  | exit (sp : Nat)
  -- format B (R287)
  | moviD (sp r : Nat) (imm : Word)
  | moviP (sp r : Nat) (imm : Word)
  | moviN (sp r : Nat) (imm : Word)
  | moviRb (sp r : Nat) (imm : Word)
  | moviRl (sp r : Nat) (imm : Word)
  -- sample ports (09) and gear unit (10)
  | tdmPeriod (n : Nat) (start bclks : Nat) (words : List Word)
  | aes3Frame (n : Nat) (start : Nat) (pre : Preamble) (a b : Subframe)
  | portLocked (p : PortId)
  | portMismatch (p : PortId)
  | portStopDetect (p : PortId) (reason : Nat)
  | portDead (p : PortId)
  | slotChange (n : Nat) (start : Nat)
  | aes3OutBlockStart (n : Nat)
  | aes3ValidityRearm (n ch : Nat)
  | pdmStuck (m : Nat) (bit : Bool)
  | pdmRecover (m : Nat)
  | gearWarm (g : GearId)
  | gearFadeDone (g : GearId)
  | gearFaultClear
  -- network (11)
  | ethFrameReceive (n : Nat) (f : EthFrame)
  | pauseExpire (n : Nat)
  | pauseLong (n : Nat)
  | frameTransmitStart (n : Nat)
  | frameTransmitEnd (n : Nat)
  | streamPacketHandoff (n s : Nat)
  | gateInterval (n : Nat)
  | gateListApplied (n : Nat)
  | linkChange (n : Nat) (up : Bool) (rate : Nat)
  | cbPathLost (s : Nat) (mac : Nat)
  | mediaOffsetSet (offset : Nat)
  | mediaOffsetChanged (offset : Nat)
  -- DRAM controller (12)
  | dramRequestAccept (q : DramReq)
  | dramSlot (ch : Nat) (errs : List EccObs)
  | vaultRepaired (ch : Nat)
  | refreshInterval (ch : Nat)
  | readPanic (sp : Nat)
  | agePromotion (i : Nat)
  | mr4Poll (ch factor : Nat)
  | dqsOscTrack (ch delay : Nat)
  | retrainStart (ch : Nat)
  | retrainDone (ch : Nat) (eyes : List Nat)
  | hammerWindowClear
  | bankSkewWindow (ch : Nat)
  | setpointChanged
  | channelFailed (ch reason : Nat)
  -- pilot DACs (13)
  | pilotParamApply (n : Nat)
  | rangeHizEnd (n : Nat)
  -- host access and registers (14)
  | registerWrite (m : Master) (off size : Nat) (v : Nat)
  | rcRead (m : Master) (off size : Nat)
  | sysTallyLoRead (m : Master)
  | sysSnapshotWrite (v : Word)
  | sysIndDataAccess (m : Master) (write : Bool) (v : Word)
  | pairedWriteHalf (m : Master) (off : Nat) (v : Word)
  | pairWindowExpire (off : Nat)
  | sysRemapWrite (m : Master) (v : Word)
  | sysBar2BaseWrite (m : Master) (v : Word)
  | sysDramWinBaseWrite (m : Master) (v : Word)
  | bellSwtrigWrite (m : Master) (v : Word)
  | aonFaultTestWrite (m : Master) (v : Word)
  | hubHdWrWrite (q : Nat) (v : Word)
  | hostDmaDescriptor (q : Nat) (desc : List Word)
  | spiWrite (bytes : List Byte)
  | spiWriteFixed (bytes : List Byte)
  | spiRead (bytes : List Byte)
  | spiReadFixed (bytes : List Byte)
  | spiStatus
  | spiReadAbandon (bytes : List Byte)
  | pcieReset (cause : PcieCause)
  -- power, reset and boot (15)
  | porstAssert
  | coldReset (hostStrap : Nat) (monStrap mclk : Bool)
  | warmReset (cause : WarmCause)
  | dramBringupDone (ok0 ok1 : Bool)
  | firstServing
  | bootWatchdogExpire
  | domainSwitch (dom : Nat) (on : Bool)
  -- staying in service (16)
  | auditChargeExpire (sp : Nat)
  | spokeRetired (sp : Nat)
  | placementChanged
  | plannedPromotion (sp : Nat)
  | faultOutput
  | releaseWordTimeout (logic : Nat)
  | faultClockStop (logic : Nat)
  | ladderEvaluate
  | ladderUndo
  | recorderFlush (r : Nat)
  | replan (daily : Bool) (reason : Nat) (m : SensorSet)
  | ledgerEntryWrite
  | opSecondsSave
  -- key, seal, monitor and JTAG (17, 18)
  | keyChanged (asserted : Bool)
  | sealBitSample (sns : Bool)
  | monRd (a n : Nat)
  | monWr (a : Nat) (v : Word)
  | monFill (a n : Nat) (v : Word)
  | monWrp (a : Nat) (v : Word)
  | monRdi (a n : Nat)
  | monWri (a : Nat) (v : Word)
  | monMb (ws : List Word)
  | monTrace (mask : Nat)
  | monLedger (margin : Bool) (first n : Nat)
  | monState
  | monKey
  | monBaud (rate : Nat)
  | monBaudRevert
  | jtagBypass (tdi : List Bool)
  | jtagIdcode
  | jtagSamplePreload (pins cells : List Bool)
  | jtagExtest
  | mclkReturn
  | pcieLinkUp
  | configurationRequest
  | illegalBundle (sp : Nat) (bundle : BitVec 64)
deriving DecidableEq, Repr

end Sys2Proof
end

