-- ==== Sys2Proof/Config.lean ====
section
/-! DEFINITION. What the spec leaves to the implementation: free values and functions without a body. Nothing in Lean can
evaluate them, so a claim that holds for them holds whatever they are. Each is named in the assumption log. -/

namespace Sys2Proof.Config

/-- A fresh free word: read with the counter `State.free`, which the step advances. UNVERIFIED value. -/
opaque freeWord : Nat → Word

/-- The node number and the generation a node first looked up takes (R67 gives ranges only). Log 4. -/
opaque nodeNumber : Nat → Nat
opaque firstGen : Nat → Nat

/-- Placement (R249): deterministic, but no algorithm is given. From the nodes in record order with class and single cycle
cost, and the ACTIVE spokes: the primary and secondary spoke of each node, or none when no placement fits. Log 5. -/
opaque place : List (Node × Nat × Nat) → List Nat → Option (List (Node × Nat × Option Nat))

/-- Cycles, hub bytes and DRAM rate that firmware adds to a tandem for moving data between spokes (R81). Log 5. -/
opaque tandemMove : List Name → Nat × Nat × Nat

/-- Firmware's choice where a coefficient lies within 2^-40 of a midpoint (R574): true takes the upper value. Log 6. -/
opaque coefUp : Int → Bool

/-- A correction bank of more than 64 taps (R167): its output sample from taps, SHIFT and input history. Log 7. -/
opaque tierOutput : List Int → Nat → List Int → Int

/-- The limiter gain after one sample (R189, R574), in units of 2^-30, from THRESH, ATTACK, RELEASE, the gain before and the
input sample. Log 8. -/
opaque limGain : Int → Nat → Nat → Nat → Int → Nat

/-- The largest Q1.31 value not above T (R189), from THRESH. Log 8. -/
opaque limCeiling : Int → Nat

/-- The dynamics gain after one sample (R206, R574) in firmware units, from DYN_MODE, COMP_THRESH, RATIO, ATTACK, RELEASE,
GATE_THRESH, GATE_RANGE, the gain before and the input sample; and the linear gain in 2^-30 of such a value. Log 8. -/
opaque dynGain : List Int → Int
opaque dynLinear : Int → Nat

/-- Minus 20 log10 of a gain in 2^-30, in 0.01 dB: the GR of R189; and of a dynamics gain, the GR of R206. Log 8. -/
opaque grOfLimit : Nat → Nat
opaque grOfDyn : Int → Nat

/-- Pan weights of the renderer, in 2^-60 (R133, R134, R136): cosine and sine of pi t / 2, and square roots. Log 9. -/
opaque cosHalfPi : Rat → Rat
opaque sinHalfPi : Rat → Rat
opaque sqrtRat : Rat → Rat
opaque dbRat : Int → Rat

/-- A renderer gain in Q3.29 (R139 gives the format, no rounding). Log 9. -/
opaque gainQ329 : Rat → Int

/-- Renderer roundings the spec does not fix: an interpolation weight with 30 fractional bits (R141), and whether a delay
that lies half-way between two units of 2^-16 goes up (R140). Log 9. -/
opaque weight30 : Rat → Int
opaque delayUp : Rat → Bool

/-- The level in 0.01 dBFS of an energy and the energy of a level (R217, R219); the linear gain in Q5.27 of an ambient gain
in 1/3000 of 0.01 dB (R219). Log 10. -/
opaque dbOfEnergy : Rat → Int
opaque energyOfDb : Int → Rat
opaque linOfAmb : Int → Int

/-- The 48 coefficients of the bell interpolator (R268) at 48 kHz, raw Q1.31. Log 11. -/
opaque bellTap : Nat → Int

/-- A gear output sample (R347, R348) from the source kind and rate code, the filter, the phase in 1/512 of a sample and
the input words held. Log 12. -/
opaque gearSample : Nat → Nat → Rat → List Int → Int

/-- The signature and header check of a firmware image, and its generation and lengths, from its words (R500 lists the
header's fields, no layout). Log 13. -/
opaque imageGood : List Word → Bool
opaque imageGen : List Word → Nat
opaque imageBell : List Word → List Word
opaque configGood : List Word → Bool
opaque configGen : List Word → Nat

/-- The fields of a configuration copy from its words (R499 lists them, no layout), in the order of `cfgOfFields`. Log 13. -/
opaque configFields : List Word → List Word

/-- The seed of the seal LFSR at a cold reset (R543: non-zero). Log 14. -/
opaque sealSeed : Nat → Nat


/-- Vault transactions per bank of a placement (R427), from the ALARM nodes placed, phase, channel and bank. Log 5. -/
opaque vaultLoad : List Node → Nat → Nat → Nat → Nat

/-- Gear-unit histories and coefficient ROM as the indirect space shows them (R478). Log 12. -/
opaque gearMemory : Nat → Word

/-- The words of the boot ROM (R452 gives its place only). Log 70. -/
opaque bootRom : Nat → Word

/-- The state in which the sections of an incoming bank start (R188 gives none), from the states of the resident bank, each
as x1, x2, y1, y2. Log 16. -/
opaque sectionStart : List (List Int) → List (List Int)

/-- OFFSET_NS of a PTP port (R384: last measured; the servo is the firmware's own), by port and tally. Log 27. -/
opaque ptpOffset : Nat → Nat → Word

/-- A flag set and cleared by one bundle (R290 and R275 do not order the two): true when the set wins. Log 24. -/
opaque flagSetWins : Bool

/-- The code in the DETAIL of ADMISSION of a commit that takes a bus above FEEDS_MAX (R211; the table of R248 lists none). Log 77. -/
opaque feedsCode : Nat → Nat

/-- Base address in spoke SRAM of an area (R281) or of the code (code 8) of an instance on a spoke (R281, R310 give sizes
and alignment only). Log 5. -/
opaque areaBase : Nat → List Name → Nat → Nat

end Sys2Proof.Config
end

