-- ==== Sys2Proof/Machine/Fixed.lean ====
section
/-! DEFINITION. Fixed-point arithmetic of the audio path: saturation and rounding (R159, R196, R201), gains from decibels
(R196), section coefficients (R186, R187, R574), CRC-32 (R175) and CRC-8 (R461). -/

namespace Sys2Proof.Machine

/-! ### Saturation and rounding -/

/-- The Q1.31 limits. -/
def q31Min : Int := -2147483648
def q31Max : Int := 2147483647

/-- Clamp to Q1.31 (R159). -/
def sat31 (z : Int) : Int := if z < q31Min then q31Min else if z > q31Max then q31Max else z

/-- Whether `sat31` changes the value: one saturated sample (R159). -/
def sats31 (z : Int) : Bool := decide (z < q31Min) || decide (z > q31Max)

/-- `z / 2^sh` rounded half up (R152, R159). -/
def rhu (z : Int) (sh : Nat) : Int := if sh = 0 then z else (z + 2 ^ (sh - 1)) / 2 ^ sh

/-- One reduction to Q1.31 of an exact value scaled by `2^sh` above Q1.31: the value, and whether it saturated. -/
def reduce (z : Int) (sh : Nat) : Int × Bool := (sat31 (rhu z sh), sats31 (rhu z sh))

/-- Quotient rounded to the nearest integer, an exact half towards +infinity (R196, R201); `d` positive. -/
def divHalfUp (n : Int) (d : Nat) : Int := (2 * n + d) / (2 * (d : Int))

/-- Quotient rounded to the nearest integer, an exact half away from zero (R574). -/
def divHalfAway (n : Int) (d : Nat) : Int :=
  if n < 0 then -((2 * (-n) + d) / (2 * (d : Int))) else (2 * n + d) / (2 * (d : Int))

/-- Round up a natural quotient. -/
def ceilDiv (n d : Nat) : Nat := (n + d - 1) / d

/-! ### Gains -/

/-- Q5.27 of 1.0 (R196). -/
def q27One : Int := 134217728

/-- A large power in steps that the kernel evaluates: `x ^ (250 * k)`. -/
def pow250 (x k : Nat) : Nat := (x ^ 250) ^ k

/-- The largest `v` below `2^n` above `acc` with `p v`, bit by bit; `p` is downward closed. -/
def searchBits (p : Nat → Bool) : Nat → Nat → Nat
  | 0, acc => acc
  | n + 1, acc => if p (acc + 2 ^ n) then searchBits p n (acc + 2 ^ n) else searchBits p n acc

/-- Nearest Q5.27 of `10^(c/2000)`, a half towards +infinity, and −144 dB as 0, exact (R196, R201). The candidate `v` is
kept while `(2v−1)/2^28 ≤ 10^(c/2000)`, compared as 2000th powers. -/
def gainOfDb (c : Int) : Int :=
  if c ≤ -14400 then 0
  else
    let ten (n : Nat) : Nat := (10 ^ 100) ^ (n / 100) * 10 ^ (n % 100)
    let up := ten c.toNat
    let dn := ten (-c).toNat
    let one := pow250 (2 ^ 28) 8
    (searchBits (fun v => Nat.ble (pow250 (2 * v - 1) 8 * dn) (one * up)) 31 0 : Nat)

/-- Nearest Q5.27 of `1/N` under AUTO 1 and `1/√N` under AUTO 2, a half towards +infinity (R196, R214). -/
def autoScale (law n : Nat) : Int :=
  if n = 0 ∨ law = 0 then q27One
  else if law = 1 then divHalfUp q27One n
  else (searchBits (fun v => Nat.ble ((2 * v - 1) ^ 2 * n) (2 ^ 56)) 28 0 : Nat)

/-- A gain in the linear domain, 1 or 0, for MUTE (R201): 0 while muted. -/
def gainOfMute (m : Nat) : Int := if m = 0 then q27One else 0

/-! ### Section coefficients (R186, R574) -/

/-- Rational approximations carried to 2^-100. -/
def fxOne : Nat := 2 ^ 100

/-- pi to 2^-100, rounded down: the value `floor (pi * 2^100)`. -/
def piFx : Int := 3982441812995697363688351113952

/-- Terms of a Taylor series: from term `t` at index `k`, alternating, step two. -/
def taylor (x2 : Int) : Nat → Nat → Int → Int → Int
  | 0, _, _, acc => acc
  | n + 1, k, t, acc =>
    let t' := -(t * x2 / (fxOne : Int)) / (((k + 1) * (k + 2) : Nat) : Int)
    taylor x2 n (k + 2) t' (acc + t')

/-- cos and sin of `x` scaled by 2^100, for 0 ≤ x < 4. -/
def cosFx (x : Int) : Int := taylor (x * x / (fxOne : Int)) 40 0 fxOne fxOne
def sinFx (x : Int) : Int := taylor (x * x / (fxOne : Int)) 40 1 x x

/-- `floor (2^100 * 10^(c/4000))`: the A of R186 with GAIN in 0.01 dB, compared as 4000th powers. -/
def aFx (c : Int) : Nat :=
  let ten (n : Nat) : Nat := (10 ^ 100) ^ (n / 100) * 10 ^ (n % 100)
  let up := ten c.toNat
  let dn := ten (-c).toNat
  let one := pow250 (2 ^ 100) 16
  searchBits (fun v => Nat.ble (pow250 v 16 * dn) (one * up)) 103 0

/-- `floor (√(n * 2^100))`: the square root of a value scaled by 2^100. -/
def sqrtFx (n : Nat) : Nat := searchBits (fun v => Nat.ble (v * v) (n * fxOne)) 104 0

/-- Q3.29 of `num/den`, nearest, a half away from zero; within 2^-40 of a midpoint, firmware's choice (R574). -/
def coefQ329 (num den : Int) : Int :=
  let n := if den < 0 then -num else num
  let d := den.natAbs
  let scaled := n * 2 ^ 29
  let r := divHalfAway scaled d
  let lo := scaled / (d : Int)
  let mid := 2 * scaled - (2 * lo + 1) * d
  if mid.natAbs * 2 ^ 10 < 2 * d then (if Config.coefUp r then lo + 1 else lo) else r

/-- The five Q3.29 coefficients b0, b1, b2, a1, a2 of a section. -/
structure Coefs where
  b0 : Int
  b1 : Int
  b2 : Int
  a1 : Int
  a2 : Int
deriving DecidableEq, Repr

/-- A section that passes its input (R186, TYPE OFF). -/
def Coefs.off : Coefs := { b0 := 2 ^ 29, b1 := 0, b2 := 0, a1 := 0, a2 := 0 }

/-- Coefficients divided by a0, all scaled alike. -/
def Coefs.ofScaled (b0 b1 b2 a0 a1 a2 : Int) : Coefs :=
  { b0 := coefQ329 b0 a0, b1 := coefQ329 b1 a0, b2 := coefQ329 b2 a0, a1 := coefQ329 a1 a0, a2 := coefQ329 a2 a0 }

/-- The table of R186: TYPE 1 to 7 with FREQ in 0.1 Hz, GAIN in 0.01 dB and Q in 0.0001. -/
def sectionCoefs (ty freq : Nat) (gain : Int) (q10 : Nat) : Coefs :=
  let one : Int := fxOne
  let w := 2 * piFx * freq / 480000
  let c := cosFx w
  let al := sinFx w * 10000 / (2 * q10 : Nat)
  let a : Int := aFx gain
  let mul (x y : Int) : Int := x * y / one
  let div (x y : Int) : Int := x * one / y
  let be := 2 * mul (sqrtFx a.toNat) al
  let ap := a + one
  let am := a - one
  match ty with
  | 1 => .ofScaled (one + mul al a) (-2 * c) (one - mul al a) (one + div al a) (-2 * c) (one - div al a)
  | 2 => .ofScaled (mul a (ap - mul am c + be)) (2 * mul a (am - mul ap c)) (mul a (ap - mul am c - be))
      (ap + mul am c + be) (-2 * (am + mul ap c)) (ap + mul am c - be)
  | 3 => .ofScaled (mul a (ap + mul am c + be)) (-2 * mul a (am + mul ap c)) (mul a (ap + mul am c - be))
      (ap - mul am c + be) (2 * (am - mul ap c)) (ap - mul am c - be)
  | 4 => .ofScaled ((one - c) / 2) (one - c) ((one - c) / 2) (one + al) (-2 * c) (one - al)
  | 5 => .ofScaled ((one + c) / 2) (-(one + c)) ((one + c) / 2) (one + al) (-2 * c) (one - al)
  | 6 => .ofScaled one (-2 * c) one (one + al) (-2 * c) (one - al)
  | 7 => .ofScaled (one - al) (-2 * c) (one + al) (one + al) (-2 * c) (one - al)
  | _ => .off

/-- A value fits Q3.29 (R187). -/
def fitsQ329 (z : Int) : Bool := decide (-2147483648 ≤ z) && decide (z ≤ 2147483647)

/-- The stability and format check of R187 on the rounded values. -/
def Coefs.ok (k : Coefs) : Bool :=
  fitsQ329 k.b0 && fitsQ329 k.b1 && fitsQ329 k.b2 && fitsQ329 k.a1 && fitsQ329 k.a2 &&
  decide (k.a2.natAbs < 2 ^ 29) && decide ((k.a1.natAbs : Int) < 2 ^ 29 + k.a2)

/-- The coefficients of a SECTION value with its RAW value (R186, R187). -/
def coefsOf (sec raw : List Word) : Coefs :=
  match sec, raw with
  | t :: f :: g :: q :: _, b0 :: b1 :: b2 :: a1 :: a2 :: _ =>
    if t.toNat = 0 then .off
    else if t.toNat = 8 then
      { b0 := b0.toInt, b1 := b1.toInt, b2 := b2.toInt, a1 := a1.toInt, a2 := a2.toInt }
    else sectionCoefs t.toNat f.toNat g.toInt (q.toNat * 10)
  | _, _ => .off

/-- State of a direct form I section: x[n−1], x[n−2], y[n−1], y[n−2] (R186). -/
structure Biquad where
  x1 : Int
  x2 : Int
  y1 : Int
  y2 : Int
deriving DecidableEq, Repr

/-- A section with cleared state. -/
def Biquad.zero : Biquad := { x1 := 0, x2 := 0, y1 := 0, y2 := 0 }

/-- One sample of a section: five exact products, one exact sum, one reduction (R186, R574). -/
def Biquad.step (k : Coefs) (b : Biquad) (x : Int) : Biquad × Int × Bool :=
  let r := reduce (k.b0 * x + k.b1 * b.x1 + k.b2 * b.x2 - k.a1 * b.y1 - k.a2 * b.y2) 29
  ({ x1 := x, x2 := b.x1, y1 := r.1, y2 := b.y1 }, r.1, r.2)

/-! ### Check codes -/

/-- One byte into a reflected CRC-32 (R175). -/
def crc32Bits : Nat → BitVec 32 → BitVec 32
  | 0, c => c
  | n + 1, c => crc32Bits n (if c.getLsbD 0 then (c >>> 1) ^^^ 0xEDB88320#32 else c >>> 1)

def crc32Byte (c : BitVec 32) (b : Byte) : BitVec 32 := crc32Bits 8 (c ^^^ b.setWidth 32)

/-- The CRC-32 of R175 over bytes: initial value all ones, final value inverted. -/
def crc32 (bs : List Byte) : Word := ~~~ (bs.foldl crc32Byte 0xFFFFFFFF#32)

/-- The four bytes of a word, little-endian (00_scope.md). -/
def bytesOf (w : Word) : List Byte :=
  [w.extractLsb' 0 8, w.extractLsb' 8 8, w.extractLsb' 16 8, w.extractLsb' 24 8]

/-- A word from four bytes, little-endian. -/
def wordOfBytes (b0 b1 b2 b3 : Byte) : Word := (b3 ++ b2 ++ b1 ++ b0 : BitVec 32)

/-- CRC-32 over words taken as little-endian bytes (R175, R226, R241). -/
def crc32Words (ws : List Word) : Word := crc32 (ws.flatMap bytesOf)

/-- One byte into the CRC-8 of R461. -/
def crc8Bits : Nat → BitVec 8 → BitVec 8
  | 0, c => c
  | n + 1, c => crc8Bits n (if c.getLsbD 7 then (c <<< 1) ^^^ 0x07#8 else c <<< 1)

/-- The CRC-8 of R461: polynomial 0x07, initial value 0xFF, no reflection, no inversion. -/
def crc8 (bs : List Byte) : Byte := bs.foldl (fun c b => crc8Bits 8 (c ^^^ b)) 0xFF#8

/-! ### Ramps and fades -/

/-- A linear ramp of a gain (R201): end points, length in samples and samples done. -/
structure Ramp where
  g0  : Int
  g1  : Int
  len : Nat
  pos : Nat
deriving DecidableEq, Repr

/-- A gain at rest. -/
def Ramp.const (g : Int) : Ramp := { g0 := g, g1 := g, len := 0, pos := 0 }

/-- The gain of sample `i` counted from the start (R201): rounded, a half towards +infinity; exact at the end. -/
def Ramp.at (r : Ramp) (i : Nat) : Int :=
  if i + 1 ≥ r.len then r.g1 else divHalfUp (r.g0 * r.len + (r.g1 - r.g0) * (i + 1)) r.len

/-- The gain of the last sample done (R202). -/
def Ramp.value (r : Ramp) : Int := if r.pos = 0 then (if r.len = 0 then r.g1 else r.g0) else r.at (r.pos - 1)

/-- A new ramp to `g` over `frames` frames from the value in force (R201, R202). -/
def Ramp.to (r : Ramp) (g : Int) (frames : Nat) : Ramp := { g0 := r.value, g1 := g, len := 16 * frames, pos := 0 }

/-- The ramp is over: its last sample is done (R201). -/
def Ramp.done (r : Ramp) : Bool := decide (r.len ≤ r.pos)

/-- The ramp after one more frame of 16 samples. -/
def Ramp.advance (r : Ramp) : Ramp := { r with pos := min (r.pos + 16) r.len }

/-- The gains of the 16 samples of the frame being computed. -/
def Ramp.frame (r : Ramp) : List Int := (List.range 16).map fun k => r.at (r.pos + k)

/-- A cross-fade from one form of a path to another (R179, R203), with at most one pending change (R180, R204) and the count
of replaced requests. -/
structure Fade (α : Type) where
  old      : α
  new      : α
  len      : Nat
  pos      : Nat
  pending  : Option α
  replaced : Nat
deriving DecidableEq, Repr

/-- A path at rest. -/
def Fade.const {α : Type} (a : α) : Fade α := { old := a, new := a, len := 0, pos := 0, pending := none, replaced := 0 }

/-- A fade is in being: it has not ended yet. -/
def Fade.running {α : Type} (f : Fade α) : Bool := f.len != 0

/-- A fade whose last sample is done, to be ended at this boundary (R181 step 1). -/
def Fade.due {α : Type} (f : Fade α) : Bool := f.len != 0 && decide (f.len ≤ f.pos)

/-- Start a fade to `a` over `frames` frames; of 0 frames, a step (R203). -/
def Fade.start {α : Type} (f : Fade α) (a : α) (frames : Nat) : Fade α :=
  if frames = 0 then { f with old := a, new := a, len := 0, pos := 0 }
  else { f with old := f.new, new := a, len := 16 * frames, pos := 0 }

/-- The fade ends: the incoming form is resident (R179). -/
def Fade.finish {α : Type} (f : Fade α) : Fade α := { f with old := f.new, len := 0, pos := 0 }

/-- Hold a request as pending; true when it replaces one (R180). -/
def Fade.hold {α : Type} (f : Fade α) (a : α) : Fade α × Bool :=
  match f.pending with
  | none => ({ f with pending := some a }, false)
  | some _ => ({ f with pending := some a, replaced := min (f.replaced + 1) 0xFFFFFFFF }, true)

/-- A request applied at a boundary (R180, R181 step 3, R204): a fade starts when none runs and nothing is pending. -/
def Fade.request {α : Type} (f : Fade α) (a : α) (frames : Nat) : Fade α × Bool :=
  if f.running || f.pending.isSome then f.hold a else (f.start a frames, false)

/-- The pending request, tested when no fade runs (R181 step 2). -/
def Fade.test {α : Type} (f : Fade α) (frames : Nat) : Fade α :=
  match f.pending with
  | none => f
  | some a => if f.running then f else { f.start a frames with pending := none }

/-- Sample `i` of a fade of `len` samples: `(1 − w) · old + w · new` with `w = (i+1)/len`, reduced once (R179, R203). -/
def mixAt (len i : Nat) (old new : Int) : Int :=
  if i + 1 ≥ len then new else sat31 (divHalfUp (old * (len - (i + 1) : Nat) + new * (i + 1 : Nat)) len)

/-- The sample of a fading path, sample `k` of the frame. -/
def Fade.mix {α : Type} (f : Fade α) (k : Nat) (path : α → Int) : Int :=
  if f.running then mixAt f.len (f.pos + k) (path f.old) (path f.new) else path f.new

/-- The fade after one frame. -/
def Fade.advance {α : Type} (f : Fade α) : Fade α := { f with pos := min (f.pos + 16) f.len }

/-- Frames of a time in ms (R200): three per ms. -/
def framesOfMs (ms : Nat) : Nat := 3 * ms

/-- Largest natural whose square is at most `n`. -/
def isqrt (n : Nat) : Nat := searchBits (fun v => Nat.ble (v * v) n) 64 0

end Sys2Proof.Machine
end

