-- ==== Sys2Proof/Machine/State.lean ====
section
/-! DEFINITION. The state of the block as plain data, the reasons a command could stop, and the state after reset. Every
field's docstring gives its width, its rule and its reset value; the chapter is the file of spec/ with that number. -/

namespace Sys2Proof.Machine

/-- Reasons for a fault. No meaning of this model answers with one: every command of the table has an effect, or leaves the
state as it is. -/
inductive Fault where
  /-- Never raised. Safe. -/
  | none
deriving DecidableEq, Repr

/-- Reasons for a refusal. -/
inductive Refusal where
  /-- A command without a meaning yet: raised by an arm of `exec` only. Safe: no claim about it can be proved. -/
  | notModelled (mnemonic : String)
deriving DecidableEq, Repr

/-! ### Memories -/

/-- A byte memory: (address, byte) pairs, addresses strictly rising, no zero byte listed. An unlisted byte reads 0
(`Mem.unlisted` in Ops). Used for the rings, the spoke SRAM, the hub SRAM and DRAM regions of stages, the bell store. -/
abbrev Mem := List Host.Cell

/-! ### Time (01, 16) -/

/-- The cadence and the clocks. -/
structure Clk where
  /-- The tally, 64 bits; R8, R10; reset 0. -/
  tally : Nat
  /-- The next sample boundary to be run; R8; reset 0. MODEL'S OWN bookkeeping. -/
  nextSample : Nat
  /-- The next frame boundary to be dispatched; R8, R15; reset 0. MODEL'S OWN bookkeeping. -/
  nextFrame : Nat
  /-- MCLK edges arrive; R24; reset true. -/
  mclkPresent : Bool
  /-- The tally when MCLK last returned or was first seen; R26, R520; reset 0. -/
  mclkSince : Nat
  /-- The tally at which MCLK was lost; R24, R25, R328; reset 0. -/
  lostAt : Nat
  /-- The clock selector takes the holdover clock; R24; reset false. -/
  onHoldover : Bool
  /-- HOLDOVER: the AUD domain is in holdover; R25, SYS_STATUS.HOLDOVER (14); reset 0. -/
  holdover : Bool
  /-- Last complete measurement of MCLK against REF, in 0.001 ppm of the nominal ratio; R23; reset 0 (DESIGN CHOICE). -/
  ratio : Int
  /-- The tally at which the running measurement window began; R23; reset 0. -/
  ratioSince : Nat
  /-- Spoke clock in MHz; R17 to R19; reset 750. -/
  mhz : Nat
  /-- Spoke clock a re-plan has asked for; R17; reset 750. -/
  mhzTarget : Nat
  /-- The boundary of the last step of the spoke clock; R17; reset none. -/
  mhzAt : Option Nat
deriving DecidableEq, Repr

/-! ### Mailboxes (02) -/

/-- One mailbox: its two rings and HUB_MBm registers. -/
structure Mbox where
  /-- Inbound ring, 1024 words, byte addresses 0 to 4095; R31, R33; contents not cleared at reset (R36). -/
  inRing : Mem
  /-- Outbound ring, 1024 words; R31, R33. -/
  outRing : Mem
  /-- HUB_MBm_IN_WR.WR, 11 bits; R33, R38; reset 0. -/
  inWr : Nat
  /-- HUB_MBm_IN_RD.RD, 11 bits; R33; reset 0. -/
  inRd : Nat
  /-- HUB_MBm_OUT_WR.WR, 11 bits; R33; reset 0. -/
  outWr : Nat
  /-- HUB_MBm_OUT_RD.RD, 11 bits; R33, R38; reset 0. -/
  outRd : Nat
  /-- HUB_MBm_CTRL.IRQ_EN; R41; reset 0. -/
  irqEn : Bool
  /-- HUB_MBm_STAT.LEN_ERRS, 16 bits; R46; reset 0. -/
  lenErrs : Nat
  /-- HUB_MBm_STAT.RD_ERR; R38; reset 0. -/
  rdErr : Bool
  /-- HUB_MBm_STAT.WR_ERR; R38; reset 0. -/
  wrErr : Bool
  /-- HUB_MBm_STAT.HELD; R40; reset 0. -/
  held : Bool
  /-- Tally at which the request at the front became the front with its header posted; R47; reset 0. -/
  headAt : Nat
deriving DecidableEq, Repr

/-- An event-ring setting (R110). -/
structure RingSet where
  mask   : Nat
  log2S  : Nat
  enable : Bool
  irqEn  : Bool
deriving DecidableEq, Repr

/-- What takes effect when a response is written (R60, R110), or is fixed then: the boundary A of an admission (R250). -/
inductive After where
  | none
  | evRing (e : Nat) (set : RingSet)
  | nmb
  | adm
deriving DecidableEq, Repr

/-- The sender of a network request (R57, R58). -/
structure NetKey where
  addr : Word
  port : Nat
  seq  : Word
  mac  : Nat
deriving DecidableEq, Repr

/-- A response that waits to be written (R40, R43). -/
structure Resp where
  opcode : Nat
  quiet  : Bool
  seq    : Word
  handle : Word
  detail : Nat
  status : Nat
  items  : List Item
  after  : After
deriving DecidableEq, Repr

/-- A network mailbox (R57 to R60). -/
structure Nmb where
  /-- MACs it listens on, 4 bits; R60; reset 0. -/
  macs : Nat
  /-- UDP port, 16 bits; R60; reset 0. -/
  port : Nat
  /-- Senders of the requests in the inbound ring with the length of each datagram in bytes, oldest first; R58; reset none. -/
  queued : List (NetKey × Nat)
  /-- Sender of the request taken and not yet answered; R58; reset none. -/
  taken : Option NetKey
  /-- The last 16 responses sent, newest first, as words; R58; reset none. -/
  stored : List (NetKey × List Word)
  /-- The last 16 responses handed to a MAC, newest first; R57; reset none. -/
  sent : List (NetKey × List Word)
deriving DecidableEq, Repr

/-! ### The tree (03) -/

/-- A node's handle and its pins (R67 to R72). -/
structure HandleRec where
  ref  : Ref
  num  : Nat
  gen  : Nat
  live : Bool
  pins : List Nat
deriving DecidableEq, Repr

/-- One write of a parameter (R86). -/
structure Write where
  node : Node
  tag  : Nat
  vals : List Word
deriving DecidableEq, Repr

/-- What an armed commit is: a COMMIT, or a SCENE_RECALL with its scene and fade times (R101, R228). -/
inductive ArmKind where
  | commit
  | recall (scn : Node) (fade : Nat)
deriving DecidableEq, Repr

/-- An armed commit (R91, R94). -/
structure Armed where
  mb     : Nat
  at_    : Nat
  seq    : Word
  kind   : ArmKind
  writes : List Write
deriving DecidableEq, Repr

/-! ### Events (03) -/

/-- The kind and value of a stamp (R104). -/
inductive StampKind where
  | boundary | detect | block | teller
deriving DecidableEq, Repr

/-- An event as raised (R103). -/
structure Event where
  code   : Nat
  kind   : StampKind
  stamp  : Nat
  node   : Option Ref
  source : Nat
  cls    : Nat
  detail : Nat
  items  : List Item
deriving DecidableEq, Repr

/-- An event ring and its HUB_EVe registers (R107 to R112). -/
structure EvRing where
  /-- The group mask, 16 bits; R110, R111; reset 0x0FFF for ring 0, 0 for the others. -/
  mask : Nat
  /-- log2 of S, 10 to 14; R107; reset 12. -/
  log2S : Nat
  /-- HUB_EVe_STAT.ENABLED; R110; reset 1 for ring 0. -/
  enable : Bool
  /-- IRQ_EN; R110; reset 0. -/
  irqEn : Bool
  /-- The ring words, as bytes; R107. -/
  words : Mem
  /-- HUB_EVe_WR.WR, 15 bits; R107; reset 0. -/
  wr : Nat
  /-- HUB_EVe_RD.RD, 15 bits; R112; reset 0. -/
  rd : Nat
  /-- HUB_EVe_STAT.LOST, 16 bits; R108; reset 0. -/
  lost : Nat
  /-- HUB_EVe_STAT.RD_ERR; R112; reset 0. -/
  rdErr : Bool
  /-- ESEQ of the next record, 32 bits; R105; reset 0. -/
  eseq : Nat
  /-- The run of lost records not yet reported: ESEQ of the first, and how many; R109; reset none. -/
  run : Option (Nat × Nat)
deriving DecidableEq, Repr

/-- A rate-limited event (R152, R196, R334, R439): its code and node, when it was last raised, and what it counts. -/
structure Limit where
  code   : Nat
  node   : Option Node
  raised : Option Nat
  hits   : List (Nat × Nat)
deriving DecidableEq, Repr

/-! ### Registers (14) -/

/-- SYS_ERR, 0x1000_0008. -/
structure SysErr where
  pairErr  : Bool
  accErr   : Bool
  collide  : Bool
  keyErr   : Bool
  busErr   : Bool
  snapLost : Bool
deriving DecidableEq, Repr

/-- An indirect bank: SYS_IND_ADDR and SYS_IND_STATUS of one master, or the monitor's (R477). -/
structure IndBank where
  addr  : Word
  off   : Bool
  undec : Bool
  wrIgn : Bool
deriving DecidableEq, Repr

/-- A write held as the first half of a paired write (R475). -/
structure PairHalf where
  off    : Nat
  master : Master
  value  : Word
  at_    : Nat
deriving DecidableEq, Repr

/-- The descriptor a queue is filling (R480, R529): buffer address, its bytes, IRQ, and the bytes written so far. -/
structure HdCur where
  addr : Nat
  len  : Nat
  irq  : Bool
  fill : Nat
deriving DecidableEq, Repr

/-- A host DMA queue (R480, R481). -/
structure HdQueue where
  /-- HUB_HDq_BASE_LO, 26 bits kept in place; reset 0. -/
  baseLo : Word
  /-- HUB_HDq_BASE_HI, 32 bits; reset 0. -/
  baseHi : Word
  /-- HUB_HDq_CTRL.K, 4 bits; reset 4. -/
  k : Nat
  /-- HUB_HDq_CTRL.ENABLE; reset 0. -/
  enable : Bool
  /-- HUB_HDq_WR.WR, 13 bits; reset 0. -/
  wr : Nat
  /-- HUB_HDq_RD.RD, 13 bits; reset 0. -/
  rd : Nat
  /-- The descriptor being filled; R481, R529; reset none. -/
  cur : Option HdCur
deriving DecidableEq, Repr

/-- The registers of this chapter, and what the host interfaces last returned. -/
structure HostRegs where
  /-- SYS_ERR, 6 flags; R471 to R477; reset 0. -/
  err : SysErr
  /-- SYS_BUS_ERR_ADDR, 32 bits; R468; reset 0. -/
  busAddr : Word
  /-- SYS_BUS_ERR_INFO.VALID; R468; reset 0. -/
  busValid : Bool
  /-- SYS_BUS_ERR_INFO bits 10:0 (WINDOW, KIND, WRITE, MASTER); R468; reset 0. -/
  busInfo : Word
  /-- High tally words latched by reads of SYS_TALLY_LO, per master; SYS_TALLY_HI; reset 0. -/
  tallyHi : List Word
  /-- SYS_SNAP_STAT.OFF, 4 bits; R476; reset 0. -/
  snapOff : Nat
  /-- Tally at which the running snapshot has landed: SYS_SNAP_STAT.BUSY while the tally is below it; R476; reset 0. -/
  snapUntil : Nat
  /-- The four banks of SYS_IND_ADDR and SYS_IND_STATUS, in the order of R468's MASTER; R477; reset 0. -/
  ind : List IndBank
  /-- SYS_MIND_ADDR and SYS_MIND_STATUS; R477; reset 0. -/
  mind : IndBank
  /-- SYS_IRQ_PEND, 32 bits; R456; reset 0. -/
  irqPend : Word
  /-- SYS_IRQ_MASK, 32 bits; R465; reset 0. -/
  irqMask : Word
  /-- SYS_REMAP.MAP_A and MAP_B; R470; reset 0. -/
  remap : Word
  /-- SYS_BAR2_BASE.BASE, 6 bits; R455; reset 0. -/
  bar2Base : Word
  /-- SYS_DRAM_WIN_BASE.BASE, 6 bits; R452; reset 0. -/
  dramWin : Word
  /-- Pending halves of paired writes; R475; reset none. -/
  halves : List PairHalf
  /-- The 16 host DMA queues; R480. -/
  hd : List HdQueue
  /-- HUB_HD_STAT.DONE, 16 bits; R481; reset 0. -/
  hdDone : Nat
  /-- MSI-X table, 32 entries of 16 bytes, byte addresses 0 to 511; R453; reset 0. -/
  msixTable : Mem
  /-- MSI-X pending-bit array, low 32 bits; R453, R458; reset 0. -/
  msixPba : Word
  /-- SRAM of pairs A and B, 2 MB each; R452; unlisted bytes read 0 (log 15); lost at a reset. -/
  tsram : List Mem
  /-- Hub SRAM as tellers and the monitor address it, 32 MB; R452; unlisted bytes read 0 (log 15); lost at a reset. -/
  hubSram : Mem
  /-- The words the last host or monitor read returned, first word first; none for an error response. Reset empty. -/
  readData : List (Option Word)
  /-- The bytes the last SPI transaction sent; R460 to R464; reset none. -/
  spiOut : List Byte
  /-- SPI status byte bits 0 to 3: last transaction good, CRC_ERR, FRAME_ERR, BUS_ERR; R464; reset 0. -/
  spiStat : Nat
  /-- Data the T1024 wrote into host memory over PCIe: address and bytes, newest first; R481, R529; reset none. -/
  hostWrites : List (Nat × List Byte)
deriving DecidableEq, Repr

/-! ### Boot flash, power and boot (15) -/

/-- The bell image of an image region, as the words of its 2 MB (R262); its CRC is the CRC-32 of R175 over it. -/
structure FlashImage where
  /-- Generation in the header, 32 bits; R500. -/
  gen : Nat
  /-- The bell image, as bytes of the bell store, when its CRC is good; R500. -/
  bell : Option Mem
  /-- The firmware CRC and signature are good; R500. -/
  fwGood : Bool
deriving DecidableEq, Repr

/-- The bootstrap attachment of a MAC (R61). -/
structure NetBoot where
  mode   : Nat
  speed  : Nat
  macHi  : Word
  macLo  : Word
  ipv4   : Word
  prefix_ : Nat
  vlan   : Nat
deriving DecidableEq, Repr

/-- The settings of R438. -/
structure DramCfg where
  maxSp     : Nat
  vaultRows : Nat
  scrub     : Nat
  retrain   : Nat
  hammer    : Nat
  ueLimit   : Nat
deriving DecidableEq, Repr

/-- A boot flash configuration copy (R499). -/
structure FlashCfg where
  gen    : Nat
  dram   : DramCfg
  ids    : List Word
  bar2En : Bool
  nmbLo  : Word
  nmbHi  : Word
  nets   : List NetBoot
  pmbus  : Nat
deriving DecidableEq, Repr

/-- An update in progress (R546 to R550). -/
structure Update where
  mb     : Nat
  target : Nat
  length : Nat
  crc    : Word
  words  : List Word
  last   : Nat
deriving DecidableEq, Repr

/-- The boot flash (R498, R499) and the update that writes it. -/
structure Flash where
  /-- Images A and B; R499; kept across resets (DESIGN CHOICE for State.reset: A good, B absent). -/
  images : List (Option FlashImage)
  /-- Configuration copies A and B; R499; kept across resets (DESIGN CHOICE for State.reset: both absent). -/
  cfgs : List (Option FlashCfg)
  /-- Failure marks of images A and B; R505; cleared by a cold reset. -/
  failed : List Bool
  /-- The update under way; R546; reset none. -/
  update : Option Update
deriving DecidableEq, Repr

/-- Boot and power state. -/
structure Boot where
  /-- PORST_N is low; R487; reset false. -/
  porst : Bool
  /-- STRAP_HOST1, STRAP_HOST0; R497; reset 0. -/
  hostStrap : Nat
  /-- STRAP_MON; R497; reset 0. -/
  monStrap : Bool
  /-- SYS_STATUS.IMAGE; 14, R500; reset 0b00. -/
  image : Nat
  /-- The boot ROM has jumped to the firmware (boot step 5), and when; R501, R505; reset none. -/
  jumpAt : Option Nat
  /-- STATE has been SERVING since the last reset; R504; reset false. -/
  served : Bool
  /-- The READY pin; R504; SYS_STATUS.READY; reset 0. -/
  ready : Bool
  /-- Tally at which READY rose; R531; reset 0. -/
  readyAt : Nat
  /-- SYS_STATUS.BAR2_EN; R454; reset 0. -/
  bar2En : Bool
  /-- SYS_STATUS.PCIE_LINK; reset 0. -/
  pcieLink : Bool
  /-- The endpoint's last answer to a configuration request was Retry Status; R506; reset false. -/
  crs : Bool
  /-- Configuration requests may be answered: the configuration has been read; R506; reset false. -/
  cfgRead : Bool
  /-- AON_DOMAINS.ON, 12 bits; R488; reset 0x001. -/
  domains : Nat
  /-- The SERDES, I2C and UART pins: SEAL_DRV is driven; R507, R543; reset true. -/
  sealDriven : Bool
  /-- The settings of R438 in force; reset the defaults of R438. -/
  dramCfg : DramCfg
  /-- The network attachments in force from the configuration; R61; reset zero. -/
  nets : List NetBoot
  /-- PCIe identifiers; R454; reset zero. -/
  ids : List Word
deriving DecidableEq, Repr

/-! ### Faults, ladder, recorder, plan and ledgers (16) -/

/-- A teller pair (R516, R517). -/
structure TellerPair where
  /-- TLR_STATUS.STATE: 0 OFF, 1 ACTIVE, 2 STANDBY, 3 FAILED; reset 0. -/
  state : Nat
  /-- Tally of its last heartbeat write; R516; reset 0. -/
  beat : Nat
  /-- OP_SECONDS of its failures; R517; reset none. -/
  fails : List Nat
  /-- The FAILED mark that persists across resets; R517; reset false. -/
  marked : Bool
  /-- Held in reset and self-test; R516, R521; reset false. -/
  testing : Bool
deriving DecidableEq, Repr

/-- Faults of spokes and tellers, and the fault outputs. -/
structure FaultSt where
  /-- Charges held: spoke and the tally of the charge; R508; reset none. -/
  charges : List (Nat × Nat)
  /-- Spokes charged again while charged, with the tally of that charge: to be retired at the first boundary after it; R509; reset
  none. -/
  doomed : List (Nat × Nat)
  /-- Retired spokes whose mark persists; R509; reset none. -/
  retired : List Nat
  /-- Marks released from the next reset by LEDGER_CLEAR; R537; reset false. -/
  release : Bool
  /-- Pairs A and B; R516. -/
  pairs : List TellerPair
  /-- TLR_STATUS.ACTIVE: 0 A, 1 B; reset 0. -/
  active : Nat
  /-- The active pair's failure has been detected: the hub sets FAILOVER at the next boundary; R516; reset none. -/
  detected : Option Nat
  /-- Tally since which no pair has been SERVING; R521 code 2; reset 0. -/
  idleSince : Nat
  /-- FAULT_A_N and FAULT_B_N asserted; R521; reset 1. -/
  outA : Bool
  outB : Bool
  /-- AON_FAULT_TEST bits 1:0; R482; reset 0. -/
  test : Word
  /-- Tally at which a condition of R521 was last seen to hold; reset 0. -/
  lastBad : Nat
  /-- Tally of the last release word at logic A and B; R522; reset 0. -/
  relA : Nat
  relB : Nat
  /-- The clock of logic A or B is stopped; R522; reset false. -/
  stopA : Bool
  stopB : Bool
  /-- Tally of the last event of code 4; R521; reset none. -/
  code4At : Option Nat
  /-- A sensor or voltage condition of code 7 holds; R521; reset false. -/
  code7 : Bool
deriving DecidableEq, Repr

/-- The ladder, fades of R511 and accounting. -/
structure LadderSt where
  /-- Ladder position, 0 to 7; R523; reset 0. -/
  pos : Nat
  /-- Tally of the last ladder change; R525; reset 0. -/
  changed : Nat
  /-- Tally of the last check for undoing; R525; reset 0. -/
  checked : Nat
  /-- A re-plan asks for an evaluation at the next boundary; R524, R532; reset false. -/
  asked : Bool
  /-- A re-placement is pending since the retirement at this tally; R514, R524; reset none. -/
  replacing : Option Nat
  /-- Output fades of R511 and R523: node, boundary of the first faded release, frames, out (false) or in (true). -/
  fades : List (Node × Nat × Nat × Bool)
  /-- Output channels of the block that fade under R511: channel word, boundary of the faded release, frames, out (false) or in
  (true); reset none. -/
  outFades : List (Word × Nat × Nat × Bool)
  /-- Nodes silenced (exact zeros): shed nodes, nodes of a lost spoke, lost stores; R514, R519, R523; reset none. -/
  silent : List Node
  /-- ALARM_FRAMES, 64 bits; R538, R539; persists; reset 0. -/
  alarmFrames : Nat
  /-- ALARM_BAD, 64 bits; R539; persists; reset 0. -/
  alarmBad : Nat
  /-- EXCLUDED, 64 bits; R538; persists; reset 0. -/
  excluded : Nat
  /-- Gear faults: tallies of the last disagreements and of the last fault; R540; reset none. -/
  gearDis : List Nat
  gearFaultAt : Option Nat
  /-- VOICE objects: 0 rendered, 1 collapsed to zone-mono, with the cross-fade; R525; reset 0. -/
  mono : Fade Nat
deriving DecidableEq, Repr

/-- A recorder ring (R528, R529). -/
structure RecRing where
  /-- Staged records, oldest first, 20 words each; 8 MB hold 104 857. -/
  recs : List (List Word)
  /-- Records lost since the last written, for the next record; R528; reset 0. -/
  lost : Nat
  /-- REC_LOST of the ring; R538; reset 0. -/
  total : Nat
  /-- Tally at which the first record of the descriptor being filled was written; R529; reset none. -/
  since : Option Nat
deriving DecidableEq, Repr

/-- What the re-plan holds (R530 to R532). -/
structure Plan where
  /-- VCORE in mV; R484; reset 800. -/
  vcore : Nat
  /-- REFRESH_SCALE; R424; reset 1. -/
  scale : Nat
  /-- RETRAIN_PERIOD in s; R434; reset the default of R438. -/
  retrain : Nat
  /-- The DRAM set point asked for; R428, R432. -/
  sp : Nat
  /-- Reference of the eye drop, taken by LEDGER_CLEAR bit 2; R537; reset 0. -/
  eyeRef : Nat
  /-- The sensors of the last re-plan. -/
  last : SensorSet
  /-- Spokes chosen for a planned promotion, with the boundary P; R515; reset none. -/
  promote : List (Nat × Nat)
  /-- A re-plan is due, with its reasons; R531; reset none. -/
  due : Nat
  /-- OP_SECONDS at the last daily re-plan; R531; reset 0. -/
  dailyAt : Nat
deriving DecidableEq, Repr

/-- An event ledger entry (R534). -/
structure LedgerEntry where
  num     : Nat
  ev      : Event
  opSec   : Nat
  resets  : Nat
  repeats : Nat
  /-- The words of R103 with the entry number, as written. -/
  words   : List Word
deriving DecidableEq, Repr

/-- The ledgers (R533 to R537). They persist across resets. -/
structure Ledgers where
  /-- Event ledger entries in flash, oldest first; R533; reset none. -/
  events : List LedgerEntry
  /-- Number of the next event ledger entry, 32 bits; R533; reset 0. -/
  evNext : Nat
  /-- Events waiting to be written, oldest first, with the REPEATS gathered; R533, R534, R518; reset none. -/
  queue : List (Event × Nat)
  /-- Repeats of a code and node seen since its last entry was written; R534; reset none. -/
  suppressed : List (Nat × Option Ref × Nat)
  /-- Margin records in flash, 16 words each, oldest first; R535; reset none. -/
  margins : List (List Word)
  /-- Number of the next margin record; R533; reset 0. -/
  mgNext : Nat
  /-- OP_SECONDS; R533; reset 0. -/
  opSec : Nat
  /-- OP_SECONDS as last written to flash; R533; reset 0. -/
  opSaved : Nat
  /-- Ticks of the running second with READY high; R533; reset 0. -/
  opTicks : Nat
  /-- Resets since manufacture, 16 bits; R534; reset 0. -/
  resets : Nat
  /-- Corrected and uncorrectable words since the last margin record; R535; reset 0. -/
  ce : Nat
  ue : Nat
deriving DecidableEq, Repr

/-! ### Key, seal, monitor and JTAG (17, 18) -/

/-- Maintenance state. -/
structure Maint where
  /-- AON_STATUS.KEY, debounced; R542; reset 0. -/
  key : Bool
  /-- AON_STATUS.SEAL: the loop is intact; R543; reset 0. -/
  loop : Bool
  /-- The 15-bit LFSR of the seal loop; R543; seeded non-zero at a cold reset (Config.sealSeed). -/
  lfsr : BitVec 15
  /-- Consecutive bits matched, up to 256; R543; reset 0. -/
  matched : Nat
  /-- UART rate in Bd; R551; reset 115 200. -/
  baud : Nat
  /-- Tally of a change of rate that no complete line has followed; R553; reset none. -/
  baudAt : Option Nat
  /-- The trace mask, 11 bits; R552; reset 0. -/
  trace : Nat
  /-- Lines printed, newest first, as the words they show; the first word is the line's kind (see Maint.lean). Reset none. -/
  lines : List (List Word)
  /-- The word the UART carries back to MMB is due: an MMB request of the monitor awaits its response. Reset false. -/
  awaiting : Bool
  /-- JTAG: instruction (0 BYPASS, 1 IDCODE, 2 SAMPLE/PRELOAD, 3 EXTEST); R565; reset 1 (PRESUMED, IEEE 1149.1). -/
  jtagIr : Nat
  /-- Boundary-scan cells; R565; reset none. -/
  cells : List Bool
  /-- EXTEST drives the pins from these cells; R565; reset none. -/
  pins : List Bool
  /-- What the last shift sent on TDO. Reset none. -/
  tdo : List Bool
deriving DecidableEq, Repr

/-! ### The firmware's own memory (02, 03, 05, 06) -/

/-- Where FILTER_LOAD stands on a bank: STATE of R173 (0 EMPTY, 1 LOADING, 2 PREPARING, 3 READY). -/
structure Bank where
  feed    : Nat
  bank    : Nat
  state   : Nat
  total   : Nat
  shift   : Nat
  taps    : List Int
  crc     : Word
  readyAt : Nat
  mb      : Nat
  lastAt  : Nat
deriving DecidableEq, Repr

/-- A stored scene (R222 to R227): STATE 0 EMPTY, 1 VALID, 2 STALE. -/
structure Scene where
  node     : Node
  state    : Nat
  xfade    : Nat
  storedAt : Nat
  alarm    : Bool
  writes   : List Write
deriving DecidableEq, Repr

/-- What requests change besides the rings: kept together so that an interrupted request can be undone (R63, R516). -/
structure Fw where
  /-- Handles and pins; R67 to R73; reset none. -/
  handles : List HandleRec
  /-- Generations last used by node numbers no longer held; R72; reset none. -/
  gens : List (Nat × Nat)
  /-- Staged writes by mailbox, in staging order; R86, R88; reset none. -/
  staged : List (Nat × Write)
  /-- Correction banks that are not EMPTY; R173; reset none. -/
  banks : List Bank
  /-- Scenes that are not EMPTY; R222; reset none. -/
  scenes : List Scene
deriving DecidableEq, Repr

/-- The mailbox service. -/
structure Svc where
  /-- HUB_MB_STATE.STATE: 0 NOT_READY, 1 SERVING, 2 FAILOVER; R62, R64; reset 0. -/
  state : Nat
  /-- HUB_MB_STATE.PAIR; R62; reset 0. -/
  pair : Nat
  /-- Responses not yet written, by mailbox, oldest first; R40, R53; reset none. -/
  out : List (Nat × Resp)
  /-- The mailbox other than MB0 last served; R54; reset 10. -/
  last : Nat
  /-- The checkpoint journal: mailbox of the last request executed, and the firmware's memory before and after it;
  R516; reset none. -/
  journal : Option (Nat × Fw × Fw)
deriving DecidableEq, Repr

/-! ### Objects (04) -/

/-- A contribution slot (R147 to R150). Gains are Q3.29, delays Q16.16. -/
structure Slot where
  feed : Nat
  /-- 0 steady, 1 entering, 2 leaving. -/
  st : Nat
  /-- Periods done of the entry or exit. -/
  j : Nat
  /-- HANDOVER as captured. -/
  hand : Nat
  /-- Gain at the start and at the end of the running period. -/
  g0 : Int
  g1 : Int
  /-- Frame of the running period, 0 or 1. -/
  part : Nat
  /-- Target gain, and the gain when leaving began. -/
  goal : Int
  gL   : Int
  /-- Current and target delay. -/
  delay  : Int
  target : Int
deriving DecidableEq, Repr

/-- An admitted object's running state (R123 to R151). -/
structure Obj where
  n : Nat
  /-- Rendered position in 1/1024 mm; R127; at admission the committed POS (R129). -/
  pos : List Int
  /-- The CMAX slots; R147; at admission all free. -/
  slots : List (Option Slot)
  /-- REENTRIES, 32 bits saturating; R123; 0 at admission. -/
  reentries : Nat
  /-- DEFERRALS, 32 bits saturating; R123; 0 at admission. -/
  deferrals : Nat
  /-- TRUNCATED; R137; 0 at admission. -/
  truncated : Bool
  /-- The last plan deferred contributions; R147; false at admission. -/
  deferring : Bool
  /-- The last plan's target set was empty; R131; false at admission. -/
  noFeeds : Bool
  /-- DELAY_CLAMPED may still be raised for the last commit; R140; true at admission. -/
  clampArmed : Bool
  /-- Feed the point law chose last; R132; none at admission. -/
  near : Option Nat
  /-- GAIN ramp; R139. -/
  gain : Ramp
  /-- SOURCE fade; R151. -/
  src : Fade Word
  /-- BYPASS fade: 0 processed, 1 bypassed; R78, R125. -/
  byp : Fade Nat
  /-- Delay line, newest first, 2048 samples; R30, R141; zeros at admission. -/
  line : List Int
deriving DecidableEq, Repr

/-- The renderer's planning (R127, R155). -/
structure Render where
  /-- Admitted objects in index order. -/
  objs : List Obj
  /-- Planning period in frames, 1 or 2; R127; reset 1. -/
  period : Nat
  /-- Period that step 5 of the ladder asks for; R155; reset 1. -/
  wanted : Nat
deriving DecidableEq, Repr

/-! ### Feeds (05) -/

/-- A till lane held by a feed (R183, R184). -/
structure Lane where
  /-- The bank whose coefficients it holds or is filled with. -/
  bank   : Nat
  since  : Nat
  filled : Bool
deriving DecidableEq, Repr

/-- The tail tier of a feed (R190, R191). -/
structure Tail where
  /-- The tail is shed: `/feed` TAIL 1. -/
  shed : Bool
  /-- Frames of the fade-out done, 0 to 16, while shed; R190. -/
  out : Nat
  /-- Waits for its first tail period at or after this boundary; R191. -/
  restore : Option Nat
  /-- Frames of the fade-in done, 0 to 64; 64 at rest; R191. -/
  in_ : Nat
  /-- Input samples the tail delay line holds since it was last cleared, at most 16 384. -/
  have_ : Nat
deriving DecidableEq, Repr

/-- An admitted feed's running state (R157 to R191). -/
structure Feed where
  n : Nat
  /-- CLIPS, 32 bits saturating; R159; 0 at admission. -/
  clips : Nat
  /-- Trim gain with polarity, Q5.27; R162. -/
  trim : Ramp
  /-- BYPASS of the feed, of corr, eq and limit; R78. -/
  byp : Fade Nat
  corrByp : Fade Nat
  eqByp : Fade Nat
  limByp : Fade Nat
  /-- Alignment tap; R164. -/
  align : Fade Nat
  /-- Resident and incoming bank, 0 A or 1 B; R179, R180. -/
  corr : Fade Nat
  /-- Boundary the pending bank request asked for; R185. -/
  asked : Nat
  /-- WAITS, saturating; R160, R185. -/
  waits : Nat
  lane : Option Lane
  tail : Tail
  /-- Section banks; R188, and the state of the sections of both. -/
  eq : Fade (List Coefs)
  eqOld : List Biquad
  eqNew : List Biquad
  /-- Limiter gain in 2^-30; R189; 1.0 at admission. -/
  lim : Nat
  /-- Smallest limiter gain of the last frame; R189. -/
  limMin : Nat
  /-- Input before trim, after trim and after alignment, newest first; R157; zeros at admission. -/
  raw  : List Int
  line : List Int
  xs   : List Int
deriving DecidableEq, Repr

/-- The swap till (R183 to R185). -/
structure Till where
  /-- Feeds waiting for a lane, by boundary asked and feed; R185; reset none. -/
  waiting : List (Nat × Nat)
  /-- The last boundary had waiting requests, in the general pool and in the ALARM pool; R185; reset false. -/
  runGeneral : Bool
  runAlarm : Bool
deriving DecidableEq, Repr

/-! ### The frame pipeline (01) -/

/-- Blocks of samples in the hub (R11 to R16). A channel is named by a SOURCE or DEST word: kind in bits 31:28, index below. -/
structure Sound where
  /-- Frame number of the block being gathered, and its samples so far, oldest first; R11; reset 0, none. -/
  gatherN : Nat
  gather : List (Word × List Int)
  /-- The last complete input block; R11; reset none. -/
  inBlk : List (Word × List Int)
  /-- Channels of that block that carry WARMUP; R351; reset none. -/
  warm : List Word
  /-- The frame dispatched and not yet released, with its input block; R11, R15; reset none. -/
  running : Option Nat
  compBlk : List (Word × List Int)
  compWarm : List Word
  /-- Spokes that have completed the frame, and spokes that were aborted; R16; reset none. -/
  complete : List Nat
  aborted : List Nat
  /-- The output block released last: feed outputs (kind 2), port channels (3), stream channels (4), taps (5); R11; reset none. -/
  out : List (Word × List Int)
  /-- Its timestamp; R13; reset 0. -/
  outStamp : Nat
  /-- Channels of it that a WARMUP source reached; R528; reset none. -/
  outWarm : List Word
  /-- The output port pipeline: the samples that left the hub at the last two sample boundaries, newest first; R11; reset
  none. -/
  pipe : List (List (Word × Int))
  /-- Outputs the last completed instances published in the running frame, by instance; R300; reset none. -/
  published : List (Node × List (List Int))
  /-- Frames the hub has dispatched; MODEL'S OWN count; reset 0. -/
  frames : Nat
deriving DecidableEq, Repr

/-! ### Console (06) -/

/-- A send or the direct out: its route word (ON, POINT, BUS, or kind, POINT, index) and its LEVEL gain (R203, R207). -/
structure SendSt where
  route : Fade Word
  level : Ramp
deriving DecidableEq, Repr

/-- A destination: its route word with the zone after MIRROR, its LEVEL, and the ambient gain it applies: the zone, and the
ramp from an earlier zone's gain (R203, R212, R220, R221). -/
structure DestSt where
  route : Fade Word
  level : Ramp
  zone  : Nat
  ag0   : Int
  alen  : Nat
  apos  : Nat
deriving DecidableEq, Repr

/-- An admitted channel's running state (R193, R205). -/
structure Channel where
  n : Nat
  /-- Gains: trim with polarity, makeup, mute, fader, and the shed fade at the strip output; R201, R234. -/
  trim   : Ramp
  makeup : Ramp
  mute   : Ramp
  fader  : Ramp
  shed   : Ramp
  byp    : Fade Nat
  src    : Fade Word
  /-- Section bank: high-pass and EQ sections; R204. -/
  sec    : Fade (List Coefs)
  secOld : List Biquad
  secNew : List Biquad
  /-- Dynamics gain G in the firmware's units; R206; 0 at admission. -/
  dyn    : Int
  delay  : Fade Nat
  sends  : List SendSt
  direct : SendSt
  /-- CLIPS, saturating; R196; 0 at admission. -/
  clips  : Nat
  /-- REPLACED, saturating; R204; 0 at admission. -/
  replaced : Nat
  /-- Delay lines after dynamics and after the source, newest first; zeros at admission. -/
  line : List Int
  raw  : List Int
deriving DecidableEq, Repr

/-- An admitted bus's running state (R194, R209). -/
structure Bus where
  n : Nat
  gain  : Ramp
  mute  : Ramp
  shed  : Ramp
  /-- Auto-scale factor, with the N and AUTO it was last set for; R213, R214. -/
  scale : Ramp
  lastN : Nat
  lastAuto : Nat
  byp    : Fade Nat
  sec    : Fade (List Coefs)
  secOld : List Biquad
  secNew : List Biquad
  dests  : List DestSt
  clips  : Nat
  replaced : Nat
deriving DecidableEq, Repr

/-- An admitted zone's ambient state (R216 to R219). -/
structure Zone where
  n : Nat
  /-- Measured energy E; R217; the energy at REF at admission (R219). -/
  e : Rat
  /-- Applied gain A in 1/3000 of 0.01 dB; R219; 0 at admission. -/
  a : Int
  /-- Linear gain, Q5.27, at the start and at the end of the running frame; R219. -/
  g0 : Int
  g1 : Int
  /-- HELD; R218; 0 at admission. -/
  held : Nat
  /-- Tally to which the measurement stays frozen; R218; none. -/
  holdTo : Option Nat
  /-- High-pass and low-pass states of the four sensors; R217; zeros. -/
  hp : List Biquad
  lp : List Biquad
deriving DecidableEq, Repr

/-- A merged scene request (R230). -/
structure SceneReq where
  scene  : Node
  mb     : Nat
  seq    : Word
  at_    : Nat
  frames : Nat
  writes : List Write
deriving DecidableEq, Repr

/-- The scene engine (R230, R231). -/
structure SceneRun where
  /-- The scene fading, with its end boundary; RUNNING, FADE_END; reset none. -/
  running : Option (SceneReq × Nat)
  /-- PENDING; reset none. -/
  pending : Option SceneReq
  /-- REPLACED, saturating; reset 0. -/
  replaced : Nat
deriving DecidableEq, Repr

/-! ### Configurations and classes (07) -/

/-- A declared node with its class (R243). -/
structure NodeRec where
  node : Node
  cls  : Nat
deriving DecidableEq, Repr

/-- A member of a tandem (R244): a stage instance of a user stage, or a nested tandem. -/
structure Member where
  name  : Name
  stage : Option Name
deriving DecidableEq, Repr

/-- A wire: source member or 255, source port, sink member or 255, sink port (R244). -/
structure Wire where
  src     : Nat
  srcPort : Nat
  snk     : Nat
  snkPort : Nat
deriving DecidableEq, Repr

/-- A declared tandem (R244). An export names a node below the tandem and a tag. -/
structure Tandem where
  path    : List Name
  cls     : Nat
  inputs  : Nat
  outputs : Nat
  insert  : Option Node
  members : List Member
  wires   : List Wire
  exports : List (Name × Node × Nat)
deriving DecidableEq, Repr

/-- A configuration as admitted: its nodes in record order, its tandems, and the values its records set. -/
structure Cfg where
  nodes   : List NodeRec
  tandems : List Tandem
  values  : List Write
deriving DecidableEq, Repr

/-- An accepted admission that waits for its boundary (R246, R250). -/
structure PendingAdm where
  at_  : Nat
  slot : Nat
  mb   : Nat
  cfg  : Cfg
deriving DecidableEq, Repr

/-- Admission state. -/
structure Adm where
  /-- The admitted configuration; R3, R243; reset empty. -/
  cfg : Cfg
  /-- `/config` ACTIVE; R241; reset 0xFFFF. -/
  active : Nat
  /-- `/config` ADMITTED_AT; R241; reset 0. -/
  admittedAt : Nat
  /-- The accepted admission not yet applied; R241 PENDING_AT; reset none. -/
  waiting : Option PendingAdm
  /-- Placement: node, primary spoke, secondary spoke of an ALARM node; R249; reset none. -/
  place : List (Node × Nat × Option Nat)
  /-- Auditor of each ALARM node; R249, R512; reset none. -/
  auditors : List (Node × Nat)
  /-- Nodes fading in from the last admission, and nodes fading out before the next; R251; reset none. -/
  fadeIn : List Node
  fadeOut : List Node
deriving DecidableEq, Repr

/-- ALARM copies in the frame being computed (R252 to R254, R304). -/
structure Alarm where
  /-- The mark of the running frame has been passed; R252; reset false. -/
  marked : Bool
  /-- Disagreements not yet resolved; R253; reset none. -/
  open_ : List CopyObs
  /-- Outputs that replace the computed ones in the running frame; R253; reset none. -/
  outs : List (Node × List Sample)
  /-- A bad ALARM frame has been counted for the running frame; R539; reset false. -/
  bad : Bool
  /-- Nodes whose copies take the other's state for the next frame: node, and the losing spoke; R254; reset none. -/
  resync : List (Node × Nat)
deriving DecidableEq, Repr

/-! ### Spokes (01, 08) -/

/-- The registers of a spoke (R272). -/
structure Regs where
  /-- d0 to d31, 32 bits. -/
  d : List Word
  /-- acc0 to acc7, 72 bits two's complement. -/
  acc : List Int
  /-- Pointers p0 to p7, offsets n0 to n7, rim bases rb0 to rb7, rim lengths rl0 to rl7, 32 bits each. -/
  p  : List Word
  n  : List Word
  rb : List Word
  rl : List Word
  /-- FLAGS bits 0 and 1. -/
  ova : Bool
  ovr : Bool
deriving DecidableEq, Repr

/-- A spoke register that a slot can write (R291). -/
inductive CReg where
  | d (i : Nat) | acc (i : Nat) | p (i : Nat) | n (i : Nat) | rb (i : Nat) | rl (i : Nat)
deriving DecidableEq, Repr

/-- A result on its way (R292): register, value before it, and the cycle from which a further accumulation, or any other
consumer, sees it. -/
structure Flight where
  reg : CReg
  old : Int
  at1 : Nat
  at2 : Nat
deriving DecidableEq, Repr

/-- A hardware loop (R290, R294): level, address of the first and the last bundle of the body, and runs of the body left. -/
structure HwLoop where
  level : Bool
  first : Nat
  last  : Nat
  left  : Nat
deriving DecidableEq, Repr

/-- An area of an instance in spoke SRAM (R281). -/
structure Area where
  code : Nat
  base : Nat
  size : Nat
  rw   : Bool
deriving DecidableEq, Repr

/-- A DMA descriptor issued (R296, R298); `moved` once its transfer is done. -/
structure DmaDesc where
  loc    : Nat
  dram   : Bool
  offset : Nat
  len    : Nat
  write  : Bool
  moved  : Bool
deriving DecidableEq, Repr

/-- What a spoke does (R300, R302): the firmware's own code, the body of a user stage, the drain after `exit`, or stopped by a
fault until the drain. -/
inductive CoreMode where
  | firmware | body | drain | stopped
deriving DecidableEq, Repr

/-- What a stalled bundle waits for (R290, R298): at most `k` descriptors outstanding, and the descriptor to issue then. -/
structure Stall where
  k     : Nat
  issue : Option DmaDesc
  since : Nat
deriving DecidableEq, Repr

/-- The sequencer and datapath of a spoke (R272 to R302). -/
structure Core where
  regs : Regs
  /-- The registers as they were when the open bundle issued; R292. -/
  snap : Regs
  /-- Results not yet visible; R292; reset none. -/
  flights : List Flight
  /-- Active loops, the one started last first; R290; reset none. -/
  loops : List HwLoop
  /-- PC, 32 bits; R272; reset 0. -/
  pc : Nat
  /-- Slots of the open bundle already run: 0 none, 1 up to load/store, 2 up to MAC. MODEL'S OWN; reset 0. -/
  rank : Nat
  /-- Registers the open bundle writes; R291; reset none. -/
  written : List CReg
  /-- The open bundle holds a CMAC; R291. Reset false. -/
  cmac : Bool
  /-- The open bundle has overflowed an accumulation, a reduction; R275. Reset false. -/
  setA : Bool
  setR : Bool
  /-- Bytes the open bundle has stored over, newest first; R302. Reset none. -/
  undo : List (Nat × Byte)
  /-- Cycle at which the open bundle issues, extra cycles of it, and the first cycle for the next bundle; R292, R294, R280.
  The cycle of the first bundle is 1. Reset 0, 0, 1. -/
  issue : Nat
  extra : Nat
  next  : Nat
  /-- Spoke SRAM, 512 KB; R280; contents at reset: unlisted bytes read 0 (log 15). -/
  sram : Mem
  areas : List Area
  /-- Instance being run, and which of its copies; R300; reset none. -/
  inst : Option (List Name)
  copy : Nat
  /-- The fence: CYCLES of the instance; R301; reset 0. -/
  fence : Nat
  mode : CoreMode
  stall : Option Stall
  /-- Outstanding descriptors, oldest first; R298; reset none. -/
  dmaq : List DmaDesc
deriving DecidableEq, Repr

/-- A spoke: its status object (R6) and its core. -/
structure SpokeSt where
  /-- ROLE: 0 ACTIVE, 1 SPARE, 2 AUDIT, 3 RETIRED, 4 OFF; reset ACTIVE, spoke 9 of a wheel AUDIT. -/
  role : Nat
  /-- CYCLES_PEAK since the last snapshot, cycles used in the running frame; R6; reset 0. -/
  peak : Nat
  used : Nat
  /-- OVERRUNS and AUDIT_FAILS; R16, R508; reset 0. -/
  overruns : Nat
  auditFails : Nat
  core : Core
deriving DecidableEq, Repr

/-- What one copy of an instance keeps between frames (R299, R300): its state, its hub region and its DRAM region. -/
structure InstCopy where
  state : List Byte
  hub   : Mem
  dram  : Mem
deriving DecidableEq, Repr

/-- An instance of a user stage (R303, R308). -/
structure Inst where
  path : List Name
  /-- Primary copy, and for an ALARM instance the secondary. -/
  copies : List InstCopy
  /-- FAULTS, saturating; R308; 0 at admission. -/
  faults : Nat
  /-- FAULT_CODE; R302; 0 at admission. -/
  code : Nat
  /-- FAULTED; R303; false at admission. -/
  faulted : Bool
  /-- OV_FRAMES, saturating, and PEAK; R308; 0 at admission. -/
  ovFrames : Nat
  peak : Nat
  /-- Frames in which the primary copy faulted, newest first; R303. None at admission. -/
  faultFrames : List Nat
  /-- Copies that have faulted in the running frame, with their codes; R304. -/
  now : List (Nat × Nat)
  /-- Copies that have been entered in the running frame; R300. MODEL'S OWN bookkeeping; none at admission. -/
  ran : List Nat
  /-- BYPASS fade; R78. -/
  byp : Fade Nat
  /-- Inputs of the past LATENCY samples, newest first, for the bypass path; R78. -/
  past : List (List Int)
deriving DecidableEq, Repr

/-- A tandem's own bypass (R83): its fade, and its inputs of the past LATENCY samples. -/
structure TandemSt where
  path : List Name
  byp  : Fade Nat
  past : List (List Int)
deriving DecidableEq, Repr

/-! ### Bell path (07) -/

/-- The play of a message by a trigger (R265, R266). -/
structure BellPlay where
  /-- The message being played; R264. Reset 0. -/
  msg : Nat
  /-- The message sounds: its 48 kHz position; R268; reset none. -/
  pos : Option Nat
  /-- Repetitions still to be played after this one; R265; reset 0. -/
  left : Nat
  /-- The gap ends at this tally; R265; reset none. -/
  gapEnd : Option Nat
  /-- An assertion has come while the message plays: the count restarts at the end of the repetition; R265. -/
  again : Bool
  /-- Samples left of the fade-out after a release; R265; reset 0. -/
  fade : Nat
deriving DecidableEq, Repr

/-- A trigger (R264). -/
structure BellTrig where
  /-- Filtered pin level: BELL_STATUS.PIN; reset 0. -/
  pin : Bool
  /-- Asserted, as last recognised; reset false. -/
  on : Bool
  /-- `/bell/trig/N` STARTS, 32 bits saturating; R267; reset 0. -/
  starts : Nat
  play : BellPlay
deriving DecidableEq, Repr

/-- What sounds on a route: the trigger, its message and position, the destination, and samples left when it fades out (R266,
R269). -/
structure BellVoice where
  trig : Nat
  msg  : Nat
  pos  : Nat
  dest : Word
  fade : Option Nat
deriving DecidableEq, Repr

/-- A route's running state (R266 to R269). -/
structure BellRoute where
  voices : List BellVoice
  /-- Samples done of the route gain's move at DEST, 0 (gain 1) to 16 (gain 0 or DUCK); R268; reset 0. -/
  down : Nat
deriving DecidableEq, Repr

/-- What the Bell path has computed for a destination (R268): the sum of its messages, the gain of the spoke output, and
whether a route plays there. -/
structure BellOut where
  dest    : Word
  term    : Rat
  gain    : Rat
  playing : Bool
deriving DecidableEq, Repr

/-- The Bell path. -/
structure Bell where
  /-- The bell store, 2 MB; R261, R262; filled from the boot flash at reset (R263). -/
  store : Mem
  /-- IMAGE_OK; R263; reset 0. -/
  imageOk : Bool
  /-- IMAGE_CRC; R262; reset 0. -/
  imageCrc : Word
  /-- BELL_STATUS.STORE_ERR; R261; reset 0. -/
  storeErr : Bool
  /-- BELL_SWTRIG.SW, 4 bits; R264; reset 0. -/
  sw : Word
  trigs : List BellTrig
  routes : List BellRoute
  /-- Route gains that move back where a route has left: destination, lowest gain, samples left; R268, R269; reset none. -/
  tails : List (Word × Rat × Nat)
  /-- Computed at the last sample boundary for each destination, loaded one sample later; R270; reset none. -/
  next : List BellOut
  /-- The samples the Bell path has put on destinations at the last sample boundary; R270; reset none. -/
  sent : List (Word × Int)
deriving DecidableEq, Repr

/-! ### Sample ports (09) -/

/-- What a TDM port and an AES3 input share (R318 to R328). -/
structure PortSt where
  id : PortId
  /-- STATE: 0 OFF, 1 ACQUIRING, 2 LOCKED, 3 MISMATCH, 4 DEAD; R315, SAIn_STATUS.STATE; 1 at admission. -/
  state : Nat
  /-- Clean periods of the acquisition; R323; 0 at admission. -/
  clean : Nat
  /-- First period-start edge of the acquisition; before it, the boundary at which the port began to acquire; R323, R344. -/
  first : Nat
  /-- Edge of the last period of the acquisition, from which the phase is predicted; R318, R324. -/
  base : Nat
  /-- Periods since that edge. -/
  count : Nat
  /-- PHASE bits 8:0 and bit 16; R318; 0. -/
  phase : Nat
  late  : Bool
  /-- Last period-start edge seen; R328; 0. -/
  last : Nat
  /-- Anomaly of R324 not yet acted on, with the reference instant of the first affected sample. -/
  anomaly : Option (Nat × Nat)
  /-- Stop of R328 not yet acted on: reason, and the reference instant of the first sample that did not arrive. -/
  stop : Option (Nat × Nat)
  /-- Boundary of the last lock; R326. -/
  lockedAt : Nat
  /-- Boundary of the last entry into MISMATCH or DEAD, and its k0; R325. -/
  muteAt : Option (Nat × Nat)
  /-- FAULTS, saturating; R315; 0. -/
  faults : Nat
  /-- Input FIFO (R20): start of each period and its samples by slot, oldest first. -/
  fifo : List (Nat × List Int)
deriving DecidableEq, Repr

/-- A TDM port (R315 to R330). -/
structure SaiPort where
  n  : Nat
  st : PortSt
  /-- SLOTS, RX_MASK and TX_MASK in force; R322. -/
  slots  : Nat
  rxMask : Nat
  txMask : Nat
  /-- Boundary of a commit that waits for the slot change point; R322; none. -/
  change : Option Nat
  /-- TX_FEED fades by slot; R321. -/
  tx : List (Fade Nat)
  /-- MISSING and EXCESS of the input, saturating; R315; 0. Those of the output stay 0 (R327). -/
  missing : Nat
  excess  : Nat
  /-- SAIn_STATUS.SLIP (RC) and BCNT; reset 0. -/
  slip : Bool
  bcnt : Nat
  /-- Words sent in the last output period, by slot, none for high impedance; R320; reset none. -/
  dout : List (Option Int)
deriving DecidableEq, Repr

/-- One channel of an AES3 input (R333, R334). -/
structure AesChan where
  /-- Previous sample; R333; 0. -/
  prev : Int
  /-- First sample with V = 1 not yet acted on: its reference instant; R333; none. -/
  vSeen : Option Nat
  /-- Boundary and k0 of the mute in being; R333; none. -/
  vMute : Option (Nat × Nat)
  /-- Consecutive frames with V = 0, at most 480; R333; 0. -/
  vRun : Nat
  /-- Boundary from which it ramps back; R333. -/
  vBack : Option Nat
  /-- V of the last frame; R315. -/
  v : Bool
  /-- C bits collected since the last Z, newest first; R334; none. -/
  bits : List Bool
  /-- The previous complete block, and the block held (CS_A or CS_B); R334; 0. -/
  before : List Word
  held   : List Word
deriving DecidableEq, Repr

/-- An AES3 input. -/
structure AesIn where
  n  : Nat
  st : PortSt
  chans : List AesChan
  /-- Frames since the last Z, when in sync; R334; none. -/
  sinceZ : Option Nat
  /-- ERRORS: parity, biphase, block sync, saturating; R315; 0. -/
  parity : Nat
  biph   : Nat
  block  : Nat
  /-- Errors since the last frame boundary, for AES_ERRORS; R341. -/
  fresh : Nat
  /-- AESIn_STATUS.PAR_ERR, BIPH_ERR and BLK_ERR (RC); reset 0. -/
  flags : Nat
deriving DecidableEq, Repr

/-- An AES3 output (R332, R335, R336); it runs whether or not an admission includes it. -/
structure AesOut where
  n : Nat
  /-- CS_MODE, CS_A and CS_B sent in the running block; R335; reset the defaults of R315. -/
  mode : Nat
  csA : List Word
  csB : List Word
  /-- Boundary of a commit of them that waits for a block start; R335; none. -/
  change : Option Nat
  tx : List (Fade Nat)
  /-- The last frame sent: samples, V and C bits of A and B, and whether it carried a Z preamble; R332. -/
  dout : List Int
  v : List Bool
  c : List Bool
  z : Bool
deriving DecidableEq, Repr

/-- A microphone (R337 to R340). -/
structure Pdm where
  n : Nat
  /-- STATE: 0 OFF, 1 WAKING, 2 RUNNING, 4 DEAD; R315; 0 at admission with ENABLE 0. -/
  state : Nat
  /-- STUCK, saturating; R315; 0. -/
  stuck : Nat
  /-- PDM_STATUS.STUCK bit (RC); reset 0. -/
  flag : Bool
  /-- Boundaries at which it enters and leaves DEAD; R340; none. -/
  deadAt : Option Nat
  backAt : Option Nat
deriving DecidableEq, Repr

/-! ### Gear unit (10) -/

/-- A gear channel (R342 to R354). -/
structure Gear where
  id : GearId
  /-- A reset asked for at the coming boundary: reason and mailbox; R350. -/
  want : Option (Nat × Nat)
  /-- A commit of FILTER to apply at the coming boundary: its mailbox; R349. -/
  ask : Option Nat
  /-- Timestamp of the first block without WARMUP, while WARMUP runs, and the blocks of the last WARMUP; R351. -/
  warmTo  : Option Nat
  warmAll : Nat
  /-- The last reset was by a lock; R351. -/
  byLock : Bool
  /-- t_a; R344. -/
  ta : Nat
  /-- FILTER with its fade, pending request and REPLACED; R349. -/
  filter : Fade Nat
  /-- Boundary of the source's entry into MISMATCH or DEAD; R353; none. -/
  muteAt : Option Nat
  /-- First block of the ramp of R326; R351; none. -/
  rampAt : Option Nat
  /-- RESETS and MISMATCHES, saturating; R357; 0 at admission. -/
  resets     : Nat
  mismatches : Nat
  /-- Input words by slot, newest first, with the number of periods; and the same at the last boundary; R346. -/
  words  : List (List Int)
  count  : Nat
  frozen : List (List Int)
  fcount : Nat
deriving DecidableEq, Repr

/-- The gear unit's own counts (R357, GEAR_STATUS, GEAR_FLAGS). -/
structure GearTop where
  /-- LOAD, 18 bits; reset 0. -/
  load : Nat
  /-- PEAK since admission; reset 0. -/
  peak : Nat
  /-- GEAR_FLAGS.UNRESOLVED and MISMATCH (RC); reset 0. -/
  unresolved : Bool
  mismatch   : Bool
deriving DecidableEq, Repr

/-! ### Network (11) -/

/-- A frame handed to a transmit queue (R364, R367, R380, R390): the transmit stream it belongs to, its length with FCS, its
R-TAG, the RTP sequence number and timestamp, its payload, and whether it has waited for a pause. -/
structure TxFrame where
  stream  : Option Nat
  bytes   : Nat
  rtag    : Option Nat
  seq     : Nat
  stamp   : Word
  payload : List Byte
  waited  : Bool
deriving DecidableEq, Repr

/-- A gate list: its entries as GATES and INTERVAL, none for all gates open (R370). -/
abbrev GateList := Option (List (Nat × Nat))

/-- A pause (R376): pause time in quanta, the tick from which it counts (none while a frame is still being sent), and whether
PAUSE_LONG has been raised. -/
structure Pause where
  quanta : Nat
  start  : Option Nat
  long   : Bool
deriving DecidableEq, Repr

/-- A MAC. -/
structure Mac where
  /-- LINK: 0 DOWN, 1 UP, 2 SPEED_FAULT; R361, NETn_STATUS.LINK; reset 0. -/
  link : Nat
  /-- RATE; R361, NETn_STATUS.RATE; reset 0. -/
  rate : Nat
  /-- Transmit queues 0 to 7, oldest first; R367; reset empty. -/
  queues : List (List TxFrame)
  /-- The frame being sent and the tick it started; R368; reset none. -/
  sending : Option (TxFrame × Nat)
  /-- The last frame sent; reset none. -/
  sent : Option TxFrame
  /-- PAUSED; R376; reset none. -/
  pause : Option Pause
  /-- Tally up to which PAUSE_HELD_TICKS has been counted while paused; R378. -/
  heldAt : Nat
  /-- NETn_CNT_k; R397; reset 0. -/
  cnt : List Word
  /-- NETn_HOLD_k and NETn_HOLD_TICK; R399; reset 0. -/
  hold     : List Word
  holdTick : Nat
  /-- NETn_HALF_EN and NETn_HALF_STAT (RC); R398; reset 0. -/
  halfEn   : Word
  halfStat : Word
  /-- The operating gate list, with the start of its first cycle; R372, NETn_STATUS.GATE_ON; reset none. -/
  gate : Option (List (Nat × Nat) × Nat)
  /-- OPER_START; R370; reset 0. -/
  operStart : Nat
  /-- The pending list and its change instant; R372; reset none. -/
  gateNext : Option (GateList × Nat)
  /-- REPLACED of the gate node, saturating; reset 0. -/
  gateReplaced : Nat
  /-- Gates open in the running interval, bit q for queue q; R371; reset all. -/
  gatesNow : Nat
  /-- STATE of `/net/N/ptp`; R384; reset 0. -/
  ptp : Nat
deriving DecidableEq, Repr

/-- A transmit stream (R387 to R391). -/
structure TxStream where
  mac : Nat
  s   : Nat
  /-- ENABLE in force, and the tick from which it stops; R396; 0 and none at admission. -/
  on     : Bool
  stopAt : Option Nat
  /-- RTP sequence number and R-TAG number of the next packet, 16 bits; R380, R390. -/
  seq  : Nat
  rseq : Nat
  /-- Reference instant of the packet being filled and its samples, oldest first; R391. -/
  q0   : Nat
  fill : List (List Int)
  /-- A full packet not yet handed over: its Q0 and samples. -/
  ready : Option (Nat × List (List Int))
  /-- PACKETS, wrapping; R388; 0. -/
  packets : Nat
deriving DecidableEq, Repr

/-- Recovery of an elimination stream (R381, R382). -/
structure CbState where
  /-- Any number is taken: at start, and after the reset time. -/
  any : Bool
  seq : Nat
  /-- Numbers passed among the last 32, the latest first. -/
  seen : List Bool
  /-- Tick of the last packet passed. -/
  passedAt : Nat
  /-- Tick of the last packet of each MAC of the pair, and the MAC reported lost. -/
  heard : List (Nat × Nat)
  lost  : Option Nat
deriving DecidableEq, Repr

/-- A receive stream (R387 to R396). -/
structure RxStream where
  mac : Nat
  s   : Nat
  /-- ENABLE in force. -/
  on : Bool
  /-- STATE RUNNING rather than SILENT; R388. -/
  run : Bool
  /-- Placed samples: sample number of the reference instant, and the samples of the channels; R392. -/
  placed : List (Nat × List Int)
  /-- Next sample of a fade-out, 0 to 95; R394; none. -/
  fade : Option Nat
  /-- Samples of the ramp done, up to 960; R394. -/
  ramp : Nat
  /-- Samples placed before the end of the fade are to be discarded; R394. -/
  flush : Bool
  /-- No sample is taken before this tick after a change of MEDIA_OFFSET; R386. -/
  quietTo : Option Nat
  /-- Boundary of a commit of ENABLE 0 whose fade begins in the frame dispatched there; R396. -/
  offAt : Option Nat
  /-- ADJUST, LATE, EXCESS, BAD, PACKETS; R388; 0. -/
  adjust  : Int
  late    : Nat
  excess  : Nat
  bad     : Nat
  packets : Nat
  cb : CbState
deriving DecidableEq, Repr

/-- The network block. -/
structure Net where
  macs : List Mac
  txs  : List TxStream
  rxs  : List RxStream
  /-- MEDIA_OFFSET, when valid; R386; reset none. -/
  offset : Option Nat
  /-- The offset receive streams place samples under; R386. -/
  rxOffset : Nat
deriving DecidableEq, Repr

/-! ### DRAM (12) -/

/-- A place in the DRAM (R404 to R407): space (false normal, true vault), bank, row, slot and group number in its space. -/
structure Place where
  vault : Bool
  bank  : Nat
  row   : Nat
  slot  : Nat
  group : Nat
deriving DecidableEq, Repr

/-- A transaction (R415). `off` is the byte in its group; `rmw` is 0 none, 1 its group is to be read, 2 to be written back. -/
structure DramTx where
  num      : Nat
  req      : Nat
  cls      : Nat
  ch       : Nat
  place    : Place
  off      : Nat
  bytes    : Nat
  write    : Bool
  data     : List Byte
  bound    : Bool
  shared   : Bool
  at_      : Nat
  panic    : Bool
  promoted : Bool
  rmw      : Nat
deriving DecidableEq, Repr

/-- How a read ends (R410): delivered, an error response to the teller, or a poisoned completion to PCIe. -/
inductive DramEnd where
  | good | error | poisoned
deriving DecidableEq, Repr

/-- A transaction completed: its number, requester, data (a read) and end. -/
structure DramDone where
  num  : Nat
  req  : Nat
  data : List Byte
  end_ : DramEnd
deriving DecidableEq, Repr

/-- A row-disturbance entry (R429): space, group of 64 rows, count, leading requester and its margin of votes. -/
structure HammerEntry where
  vault  : Bool
  group  : Nat
  count  : Nat
  leader : Nat
  votes  : Nat
deriving DecidableEq, Repr

/-- A DRAM channel. -/
structure DramCh where
  /-- The channel has failed; R436, DDR_STATUS.CHn_FAIL; reset 0. -/
  failed : Bool
  /-- A failure waits for the next frame boundary: its reason, 1 to 4; R436; reset none. -/
  failing : Option Nat
  /-- The slot that is next, 0 to 31; R417; reset 0. -/
  slot : Nat
  /-- Owed refreshes, -8 to 8; R425, DDR_STATUS.OWEDn; reset 0. -/
  owed : Int
  /-- DDR_REF_FORCED of the channel, 16 bits, wraps; R425; reset 0. -/
  forced : Nat
  /-- The factor of MR4; R424; reset 1. -/
  mr4 : Nat
  /-- Row-disturbance tables of the eight banks; R429; reset empty. -/
  hammer : List (List HammerEntry)
  /-- Throttled requesters: bank, requester, and the tally of its last activate there; R430; reset none. -/
  throttled : List (Nat × Nat × Nat)
  /-- Rows to be activated and precharged for R430: vault, bank, row; reset none. -/
  heal : List (Bool × Nat × Nat)
  /-- Activates per bank in ordinary slots of the running window; R431; reset 0. -/
  skew : List Nat
  /-- Tally at which the window began, and skewed windows in a row; R431; reset 0. -/
  skewAt : Nat
  skewRun : Nat
  /-- Corrected words to be written back; R410; reset none. -/
  back : List (Place × Nat)
  /-- Mirrored words to be written back from the other channel, with the tally by which they must be; R414; reset none. -/
  repair : List (Place × Nat × Nat)
  /-- Groups scrubbed in the running period, and the tally it began; R412; reset 0. -/
  scrubbed : Nat
  scrubAt : Nat
  /-- The retraining pass that gathers: the tally it began; R434, DDR_STATUS.GATHER; reset none. -/
  gather : Option Nat
  /-- The training row has been used in this rotation; R434; reset false. -/
  trained : Bool
  /-- Tally at which the last pass began; R434; reset 0. -/
  passAt : Nat
  /-- Eye widths of the byte lanes, in ps, by set point; R434, R435; reset none. -/
  eyes : List (Nat × List Nat)
  /-- Write-eye delay in force, and one waiting for the next refresh; R433; reset 0, none. -/
  delay : Nat
  delayNext : Option Nat
  /-- Corrected words of the last 3000 frames, and when ECC_CORRECTED was last raised; R439; reset none. -/
  ceHits : List Nat
  ceRaised : Option Nat
  /-- Uncorrectable words of the last 3000 frames; R436; reset none. -/
  ueHits : List Nat
deriving DecidableEq, Repr

/-- The DRAM controller. -/
structure Dram where
  /-- DDR_STATUS.READY; R412, R503; reset 0. -/
  ready : Bool
  /-- Gb per 16-bit channel of the device attached: 4, 8, 12 or 16; R402; DESIGN CHOICE 16 (log 30). -/
  density : Nat
  /-- Set point in force; R403, DDR_STATUS.SP; reset 3. -/
  sp : Nat
  /-- A set-point change that waits; R432, DDR_STATUS.SP_PEND; reset none. -/
  spNext : Option Nat
  /-- The normal space, and the vaults of the two channels, by byte address; R405; unlisted bytes read 0 (R412). -/
  normal : Mem
  vaults : List Mem
  /-- Vault groups last written by a mirrored write; R413; reset none. -/
  mirrored : List Nat
  /-- Transactions in command entries, oldest first, and those waiting in the ports; R416; reset none. -/
  entries : List DramTx
  ports   : List DramTx
  /-- Number of the next transaction. MODEL'S OWN; reset 0. -/
  num : Nat
  /-- The last transactions completed, newest first, at most 32. MODEL'S OWN; reset none. -/
  done : List DramDone
  /-- Bytes moved in the running frame for each class; R420; reset 0. -/
  used : List Nat
  /-- DDR_ECC_CNT.CE and UE (RC); R410; reset 0. -/
  ce : Nat
  ue : Nat
  /-- DDR_ECC_LOC bits 31:1, and VALID (RC); R410; reset 0. -/
  loc : Word
  locValid : Bool
  channels : List DramCh
deriving DecidableEq, Repr

/-! ### Pilot DACs (13) -/

/-- A pilot channel (R440 to R450). -/
structure Pilot where
  /-- STATE: 0 HIZ, 1 SOFT_START, 2 RUNNING, 3 RANGE_HIZ, 4 STOPPING; R445, PILn_STATUS.STATE; reset 0. -/
  state : Nat
  /-- Range in force; R446, PILn_STATUS.RANGE; reset 0. -/
  range : Nat
  /-- ENABLE in force; R441; reset 0. -/
  on : Bool
  /-- Ramp factor r in 1/2400; R445; reset 0. -/
  r : Nat
  /-- SOURCE, HOLD, LOW, HIGH, PERIOD, DIV, FEED in force; R441; reset the defaults. -/
  source : Nat
  hold : Nat
  low  : Nat
  high : Nat
  period : Nat
  div  : Nat
  feed : Nat
  /-- WIN_LO, WIN_HI and WIN_FRAMES in force; R441; reset the defaults. -/
  winLo : Nat
  winHi : Nat
  winFrames : Nat
  /-- Writes on their way: the instant E = B + 9216, tag and value, oldest first; R441; reset none. -/
  due : List (Nat × Nat × Nat)
  /-- A range stored for the next enable; R446; reset none. -/
  stored : Option Nat
  /-- Tally at which the state was entered; R445; reset 0. -/
  since : Nat
  /-- Updates counted; R442; reset 0. -/
  k : Nat
  /-- The noise register; R442; reset 0x5EED0000 + N. -/
  lfsr : BitVec 32
  /-- CODE latched at the last update, and the code the pin drives (none: high impedance); R442, R445; reset 0, none. -/
  code : Nat
  pin  : Option Nat
  /-- RANGE_HIZ began in STOPPING: HIZ follows it; R446; reset false. -/
  stopping : Bool
  /-- SENSE and LINE; R448; reset 0. -/
  sense : Nat
  line  : Nat
  /-- Frames in a row with the same LINE not 0, with LINE 0, and whether a fault has been raised; R448; reset 0. -/
  bad  : Nat
  good : Nat
  fault : Bool
  /-- PILn_STATUS.OPEN, SHORT, ELEM (RC); reset 0. -/
  flags : Nat
  /-- Element under test, trims of the 64 elements in 1/16 LSB; R449; reset 0. -/
  elem : Nat
  trims : List Int
  /-- MATCH_MAX; RETIRED; the retired element; R449, R450; reset 0, 0, none. -/
  matchMax : Nat
  retired : Nat
  dead : Option Nat
  /-- A second element has passed the range; R450; reset none. -/
  degraded : List Nat
deriving DecidableEq, Repr

/-! ### The block -/

/-- The state of the block: every register, ring, buffer, counter, mode and pin the spec names, and the queue of commands. -/
structure State where
  /-- Cadence and clocks (01). -/
  clk : Clk
  /-- Boot and power (15). -/
  boot : Boot
  /-- Boot flash (15, 17). -/
  flash : Flash
  /-- Registers and host interfaces (14). -/
  regs : HostRegs
  /-- The eleven mailboxes (02), by index. -/
  mbox : List Mbox
  /-- Mailbox service (02). -/
  svc : Svc
  /-- NMB0 and NMB1 (02). -/
  nmbs : List Nmb
  /-- What requests change (03, 05, 06). -/
  fw : Fw
  /-- Armed commits, in arming order (03). -/
  armed : List Armed
  /-- Committed values that differ from their defaults, or that an admission or commit has set (03 R76). -/
  vals : List Write
  /-- The eight event rings (03). -/
  rings : List EvRing
  /-- Rate-limited events (04, 06, 09, 12); reset none. -/
  limits : List Limit
  /-- Fault state (16). -/
  fault : FaultSt
  /-- Ladder and accounting (16). -/
  ladder : LadderSt
  /-- Recorder rings 0 to 7 (16). -/
  recs : List RecRing
  /-- The plan (16). -/
  plan : Plan
  /-- The ledgers (16). -/
  ledg : Ledgers
  /-- Key, seal, monitor, JTAG (17, 18). -/
  maint : Maint
  /-- Objects (04). -/
  render : Render
  /-- The frame pipeline (01). -/
  snd : Sound
  /-- Admitted feeds in index order (05). -/
  feeds : List Feed
  /-- The swap till (05). -/
  till : Till
  /-- Admitted channels and buses in index order, admitted zones, and the scene engine (06). -/
  chans : List Channel
  buses : List Bus
  zones : List Zone
  sceneRun : SceneRun
  /-- The 40 spokes by global index (01, 08). -/
  spokes : List SpokeSt
  /-- Instances of user stages in record order, and the tandems that are not instances (08, 03). -/
  insts : List Inst
  tandems : List TandemSt
  /-- Admitted TDM ports, AES3 inputs and microphones, the four AES3 outputs (09). -/
  sais  : List SaiPort
  aesis : List AesIn
  aesos : List AesOut
  pdms  : List Pdm
  /-- Gear channels and the gear unit (10). -/
  gears : List Gear
  gearTop : GearTop
  /-- The network block (11). -/
  net : Net
  /-- The DRAM controller (12). -/
  dram : Dram
  /-- The four pilot channels (13). -/
  pilots : List Pilot
  /-- Configurations and placement (07). -/
  adm : Adm
  /-- ALARM copies (07). -/
  alarm : Alarm
  /-- Bell path (07). -/
  bell : Bell
  /-- Counter of free values drawn. MODEL'S OWN; DESIGN CHOICE 0. -/
  free : Nat
  /-- Commands waiting, first in, first out. MODEL'S OWN; reset none. -/
  pending : List Instr
deriving DecidableEq, Repr

/-! ### Reset -/

def Clk.reset : Clk :=
  { tally := 0, nextSample := 0, nextFrame := 0, mclkPresent := true, mclkSince := 0, lostAt := 0, onHoldover := false,
    holdover := false, ratio := 0, ratioSince := 0, mhz := 750, mhzTarget := 750, mhzAt := none }

def Mbox.reset : Mbox :=
  { inRing := [], outRing := [], inWr := 0, inRd := 0, outWr := 0, outRd := 0, irqEn := false, lenErrs := 0,
    rdErr := false, wrErr := false, held := false, headAt := 0 }

def Nmb.reset : Nmb := { macs := 0, port := 0, queued := [], taken := none, stored := [], sent := [] }

/-- R111: ring 0 enabled with every group of R106, the others disabled. -/
def EvRing.reset (e : Nat) : EvRing :=
  { mask := if e = 0 then 0x0FFF else 0, log2S := 12, enable := e == 0, irqEn := false, words := [], wr := 0, rd := 0,
    lost := 0, rdErr := false, eseq := 0, run := none }

def SysErr.reset : SysErr :=
  { pairErr := false, accErr := false, collide := false, keyErr := false, busErr := false, snapLost := false }

def IndBank.reset : IndBank := { addr := 0#32, off := false, undec := false, wrIgn := false }

def HdQueue.reset : HdQueue := { baseLo := 0#32, baseHi := 0#32, k := 4, enable := false, wr := 0, rd := 0, cur := none }

/-- Every MSI-X vector is masked: PRESUMED, PCIe's own reset value of the Mask bit. Log 71. -/
def msixReset : Mem := (List.range 32).map fun v => (16 * v + 12, 1#8)

def HostRegs.reset : HostRegs :=
  { err := SysErr.reset, busAddr := 0#32, busValid := false, busInfo := 0#32, tallyHi := List.replicate 4 0#32,
    snapOff := 0, snapUntil := 0, ind := List.replicate 4 IndBank.reset, mind := IndBank.reset, irqPend := 0#32,
    irqMask := 0#32, remap := 0#32, bar2Base := 0#32, dramWin := 0#32, halves := [],
    hd := List.replicate 16 HdQueue.reset, hdDone := 0, msixTable := msixReset, msixPba := 0#32, tsram := [[], []], hubSram := [], readData := [], spiOut := [],
    spiStat := 0, hostWrites := [] }

/-- The defaults of R438. -/
def DramCfg.default : DramCfg :=
  { maxSp := 0, vaultRows := 8192, scrub := 86400, retrain := 600, hammer := 4096, ueLimit := 16 }

def NetBoot.zero : NetBoot :=
  { mode := 0, speed := 0, macHi := 0#32, macLo := 0#32, ipv4 := 0#32, prefix_ := 0, vlan := 0 }

/-- The boot flash of the model: image A good with an empty bell image, everything else blank. DESIGN CHOICE, log 20. -/
def Flash.reset : Flash :=
  { images := [some { gen := 1, bell := some [], fwGood := true }, none], cfgs := [none, none], failed := [false, false],
    update := none }

def Boot.reset : Boot :=
  { porst := false, hostStrap := 0, monStrap := false, image := 0, jumpAt := none, served := false, ready := false,
    readyAt := 0, bar2En := false, pcieLink := false, crs := false, cfgRead := false, domains := 1, sealDriven := true,
    dramCfg := DramCfg.default, nets := List.replicate 4 NetBoot.zero, ids := [] }

def TellerPair.reset : TellerPair := { state := 0, beat := 0, fails := [], marked := false, testing := false }

def FaultSt.reset : FaultSt :=
  { charges := [], doomed := [], retired := [], release := false, pairs := List.replicate 2 TellerPair.reset, active := 0,
    detected := none, idleSince := 0, outA := true, outB := true, test := 0#32, lastBad := 0, relA := 0, relB := 0,
    stopA := false, stopB := false, code4At := none, code7 := false }

def LadderSt.reset : LadderSt :=
  { pos := 0, changed := 0, checked := 0, asked := false, replacing := none, fades := [], outFades := [], silent := [], alarmFrames := 0, alarmBad := 0,
    excluded := 0, gearDis := [], gearFaultAt := none, mono := Fade.const 0 }

def RecRing.reset : RecRing := { recs := [], lost := 0, total := 0, since := none }

def SensorSet.zero : SensorSet :=
  { slack := [], slackHub := 0, slackTlr := 0, sramVmin := 0, tempMax := 0, ceRate := 0, eyeMin := 0, eyeDrop := 0,
    eyes := [] }

def Plan.reset : Plan :=
  { vcore := 800, scale := 1, retrain := DramCfg.default.retrain, sp := 0, eyeRef := 0, last := SensorSet.zero,
    promote := [], due := 0, dailyAt := 0 }

def Ledgers.reset : Ledgers :=
  { events := [], evNext := 0, queue := [], suppressed := [], margins := [], mgNext := 0, opSec := 0, opSaved := 0,
    opTicks := 0, resets := 0, ce := 0, ue := 0 }

def Maint.reset : Maint :=
  { key := false, loop := false, lfsr := 1#15, matched := 0, baud := 115200, baudAt := none, trace := 0,
    lines := [], awaiting := false, jtagIr := 1, cells := [], pins := [], tdo := [] }

def Render.reset : Render := { objs := [], period := 1, wanted := 1 }

def Fw.reset : Fw := { handles := [], gens := [], staged := [], banks := [], scenes := [] }

def Svc.reset : Svc := { state := 0, pair := 0, out := [], last := 10, journal := none }

def Cfg.empty : Cfg := { nodes := [], tandems := [], values := [] }

def Adm.reset : Adm :=
  { cfg := Cfg.empty, active := 0xFFFF, admittedAt := 0, waiting := none, place := [], auditors := [], fadeIn := [], fadeOut := [] }

def Alarm.reset : Alarm := { marked := false, open_ := [], outs := [], bad := false, resync := [] }

def BellTrig.reset : BellTrig :=
  { pin := false, on := false, starts := 0, play := { msg := 0, pos := none, left := 0, gapEnd := none, again := false, fade := 0 } }

def Bell.reset : Bell :=
  { store := [], imageOk := false, imageCrc := 0#32, storeErr := false, sw := 0#32,
    trigs := List.replicate 4 BellTrig.reset, routes := List.replicate 64 { voices := [], down := 0 }, tails := [],
    next := [], sent := [] }

def Sound.reset : Sound :=
  { gatherN := 0, gather := [], inBlk := [], warm := [], running := none, compBlk := [], compWarm := [], complete := [],
    aborted := [], out := [], outStamp := 0, outWarm := [], pipe := [], published := [], frames := 0 }

def Regs.zero : Regs :=
  { d := List.replicate 32 0#32, acc := List.replicate 8 0, p := List.replicate 8 0#32, n := List.replicate 8 0#32,
    rb := List.replicate 8 0#32, rl := List.replicate 8 0#32, ova := false, ovr := false }

def Core.reset : Core :=
  { regs := Regs.zero, snap := Regs.zero, flights := [], loops := [], pc := 0, rank := 0, written := [], cmac := false,
    setA := false, setR := false, undo := [], issue := 0, extra := 0, next := 1, sram := [], areas := [], inst := none,
    copy := 0, fence := 0, mode := .firmware, stall := none, dmaq := [] }

/-- R6, 01: spoke 9 of each wheel is the spare and serves as the audit spoke. -/
def SpokeSt.reset (i : Nat) : SpokeSt :=
  { role := if i % 10 = 9 then 2 else 0, peak := 0, used := 0, overruns := 0, auditFails := 0, core := Core.reset }

/-- The default channel status of R315. -/
def defaultCs : List Word := 0x002C0085#32 :: List.replicate 5 0#32

def AesOut.reset (n : Nat) : AesOut :=
  { n := n, mode := 1, csA := defaultCs, csB := defaultCs, change := none, tx := List.replicate 2 (Fade.const 0xFFFF),
    dout := [0, 0], v := [true, true], c := [false, false], z := false }

def Mac.reset : Mac :=
  { link := 0, rate := 0, queues := List.replicate 8 [], sending := none, sent := none, pause := none, heldAt := 0,
    cnt := List.replicate 32 0#32, hold := List.replicate 32 0#32, holdTick := 0, halfEn := 0#32, halfStat := 0#32,
    gate := none, operStart := 0, gateNext := none, gateReplaced := 0, gatesNow := 255, ptp := 0 }

def Net.reset : Net := { macs := List.replicate 4 Mac.reset, txs := [], rxs := [], offset := none, rxOffset := 0 }

def DramCh.reset : DramCh :=
  { failed := false, failing := none, slot := 0, owed := 0, forced := 0, mr4 := 1, hammer := List.replicate 8 [],
    throttled := [], heal := [], skew := List.replicate 8 0, skewAt := 0, skewRun := 0, back := [], repair := [],
    scrubbed := 0, scrubAt := 0, gather := none, trained := false, passAt := 0, eyes := [], delay := 0, delayNext := none,
    ceHits := [], ceRaised := none, ueHits := [] }

def Dram.reset : Dram :=
  { ready := false, density := 16, sp := 3, spNext := none, normal := [], vaults := [[], []], mirrored := [], entries := [],
    ports := [], num := 0, done := [], used := [0, 0, 0, 0], ce := 0, ue := 0, loc := 0#32, locValid := false,
    channels := [DramCh.reset, DramCh.reset] }

/-- The defaults of R441, and the noise seed of R442. -/
def Pilot.reset (n : Nat) : Pilot :=
  { state := 0, range := 0, on := false, r := 0, source := 0, hold := 0, low := 0, high := 65535, period := 480, div := 1,
    feed := 0, winLo := 0, winHi := 4095, winFrames := 30, due := [], stored := none, since := 0, k := 0, lfsr := BitVec.ofNat 32 (0x5EED0000 + n), code := 0, pin := none,
    stopping := false, sense := 0, line := 0, bad := 0, good := 0, fault := false, flags := 0, elem := 0,
    trims := List.replicate 64 0, matchMax := 0, retired := 0, dead := none, degraded := [] }

/-- The block right after reset: every register at its tabled reset value, every memory with nothing listed. -/
def State.reset : State :=
  { clk := Clk.reset, boot := Boot.reset, flash := Flash.reset, regs := HostRegs.reset,
    mbox := List.replicate 11 Mbox.reset, svc := Svc.reset, nmbs := List.replicate 2 Nmb.reset, fw := Fw.reset,
    armed := [], vals := [], rings := (List.range 8).map EvRing.reset, limits := [], fault := FaultSt.reset, ladder := LadderSt.reset,
    recs := List.replicate 8 RecRing.reset, plan := Plan.reset, ledg := Ledgers.reset, maint := Maint.reset,
    render := Render.reset, snd := Sound.reset, feeds := [], till := { waiting := [], runGeneral := false, runAlarm := false }, chans := [], buses := [], zones := [],
    sceneRun := { running := none, pending := none, replaced := 0 }, spokes := (List.range 40).map SpokeSt.reset, insts := [], tandems := [], sais := [], aesis := [], aesos := (List.range 4).map AesOut.reset, pdms := [],
    gears := [], gearTop := { load := 0, peak := 0, unresolved := false, mismatch := false }, net := Net.reset,
    dram := Dram.reset, pilots := (List.range 4).map Pilot.reset, adm := Adm.reset, alarm := Alarm.reset, bell := Bell.reset, free := 0, pending := [] }

end Sys2Proof.Machine
end

