-- ==== Sys2Proof/Machine/Ops.lean ====
section
/-! DEFINITION. The named operations the meanings share: memories, lists, committed values, classes, handles, events and
interrupts. -/

namespace Sys2Proof.Machine

/-! ### Byte memories -/

/-- What an unlisted byte reads as. DESIGN CHOICE, log 15. -/
def memDefault : Byte := 0#8

/-- Read one byte. -/
def Mem.get : Mem → Nat → Byte
  | [], _ => memDefault
  | (k, v) :: r, a => if a = k then v else Mem.get r a

/-- List a byte at an address that is not listed, in its place. -/
def Mem.list : Mem → Nat → Byte → Mem
  | [], a, b => [(a, b)]
  | (k, v) :: r, a, b => if a < k then (a, b) :: (k, v) :: r else (k, v) :: Mem.list r a b

/-- Write one byte, keeping the canonical form. -/
def Mem.put (m : Mem) (a : Nat) (b : Byte) : Mem :=
  let r : Mem := m.filter fun e => !(e.1 == a)
  if b = memDefault then r else r.list a b

/-- The canonical form above address `lo`: addresses at least `lo`, strictly rising, no entry equal to the default. -/
def Mem.wfFrom : Nat → Mem → Bool
  | _, [] => true
  | lo, (k, v) :: r => decide (lo ≤ k) && !(v == memDefault) && Mem.wfFrom (k + 1) r

/-- The canonical form. -/
def Mem.wf (m : Mem) : Bool := Mem.wfFrom 0 m

/-- Read a little-endian word. -/
def Mem.word (m : Mem) (a : Nat) : Word := wordOfBytes (m.get a) (m.get (a + 1)) (m.get (a + 2)) (m.get (a + 3))

/-- Write bytes from an address up. -/
def Mem.putBytes : Mem → Nat → List Byte → Mem
  | m, _, [] => m
  | m, a, b :: bs => Mem.putBytes (Mem.put m a b) (a + 1) bs

/-- Write a little-endian word. -/
def Mem.putWord (m : Mem) (a : Nat) (w : Word) : Mem := m.putBytes a (bytesOf w)

/-- Read `n` bytes. -/
def Mem.bytes (m : Mem) (a n : Nat) : List Byte := (List.range n).map fun i => m.get (a + i)

/-- Read `n` words. -/
def Mem.words (m : Mem) (a n : Nat) : List Word := (List.range n).map fun i => m.word (a + 4 * i)

/-- A ring of `size` words: write words at positions `pos`, `pos + 1`, … modulo `size` (R33, R34). -/
def ringPut (size : Nat) : Mem → Nat → List Word → Mem
  | m, _, [] => m
  | m, pos, w :: ws => ringPut size (m.putWord (4 * (pos % size)) w) (pos + 1) ws

/-- Read `n` ring words from position `pos`. -/
def ringGet (size : Nat) (m : Mem) (pos n : Nat) : List Word :=
  (List.range n).map fun i => m.word (4 * ((pos + i) % size))

/-- Words posted between two ring indices of `2 * size` values (R33). -/
def posted (size wr rd : Nat) : Nat := (wr + 2 * size - rd) % (2 * size)

/-! ### Lists -/

/-- The entries whose key is not `k`. -/
def dropKey {α β : Type} [DecidableEq α] (k : α) (l : List (α × β)) : List (α × β) := l.filter fun e => !(e.1 == k)

/-- The value of the first entry with key `k`. -/
def findKey {α β : Type} [DecidableEq α] (k : α) (l : List (α × β)) : Option β := (l.find? fun e => e.1 == k).map (·.2)

/-- The sum of a list of naturals. -/
def sumNat (l : List Nat) : Nat := l.foldl (· + ·) 0

/-- The sum of a list of integers. -/
def sumInt (l : List Int) : Int := l.foldl (· + ·) 0

/-- The largest of a list of naturals. -/
def maxNat (l : List Nat) : Nat := l.foldl max 0

/-- Saturating addition in 32 bits. -/
def satAdd32 (a b : Nat) : Nat := min (a + b) 0xFFFFFFFF

/-- Saturate at 16 bits. -/
def sat16 (n : Nat) : Nat := min n 0xFFFF

/-- The low 16 bits. -/
def low16 (n : Nat) : Nat := n % 65536

/-- Low and high words of a 64-bit number, low first. -/
def words64 (n : Nat) : List Word := [wd n, wd (n / 2 ^ 32)]

/-- Four spaces of text in words: the characters packed as R45 gives. -/
def packText : List Nat → List Word
  | [] => []
  | [a] => [wd a]
  | [a, b] => [wd (a + 256 * b)]
  | [a, b, c] => [wd (a + 256 * b + 65536 * c)]
  | a :: b :: c :: d :: r => wd (a + 256 * b + 65536 * c + 16777216 * d) :: packText r

/-- The bytes of a text value (R45). -/
def textBytes (ws : List Word) : List Nat := ws.flatMap fun w => (bytesOf w).map BitVec.toNat

/-- The text of a text value: its characters before the first 0x00, or none when a later byte is not 0 (R45). -/
def textOf (ws : List Word) : Option Name :=
  let bs := textBytes ws
  let t := bs.takeWhile (· != 0)
  if (bs.drop t.length).all (· == 0) then some t else none

/-- A name from a string literal. -/
def nm (s : String) : Name := s.toList.map Char.toNat

/-! ### Time -/

/-- Ticks of a frame and of a sample (00). -/
def frameTicks : Nat := 8192
def sampleTicks : Nat := 512

/-- The tally is a frame boundary (R8). -/
def atFrame (s : State) : Bool := s.clk.tally % frameTicks == 0

/-- The frame boundary the tally stands on, or the last one before it. -/
def lastBoundary (s : State) : Nat := s.clk.tally / frameTicks * frameTicks

/-- The first frame boundary at or after a tally. -/
def boundaryFrom (t : Nat) : Nat := ceilDiv t frameTicks * frameTicks

/-- Frames in ticks. -/
def frames (n : Nat) : Nat := frameTicks * n

/-! ### State parts -/

def State.updMbox (s : State) (m : Nat) (f : Mbox → Mbox) : State := { s with mbox := s.mbox.modify m f }
def State.mboxAt (s : State) (m : Nat) : Mbox := s.mbox.getD m Mbox.reset
def State.updRegs (s : State) (f : HostRegs → HostRegs) : State := { s with regs := f s.regs }
def State.updErr (s : State) (f : SysErr → SysErr) : State := s.updRegs fun r => { r with err := f r.err }
def State.updFault (s : State) (f : FaultSt → FaultSt) : State := { s with fault := f s.fault }
def State.serving (s : State) : Bool := s.svc.state == 1

/-! ### Committed values (R75, R76) -/

/-- The value a list of writes gives a parameter. -/
def findVal (l : List Write) (n : Node) (tag : Nat) : Option (List Word) :=
  (l.find? fun w => w.node == n && w.tag == tag).map Write.vals

/-- Set a parameter in a list of writes. -/
def setVal (l : List Write) (n : Node) (tag : Nat) (v : List Word) : List Write :=
  { node := n, tag := tag, vals := v } :: l.filter fun w => !(w.node == n && w.tag == tag)

/-! ### Classes (R236) -/

/-- The node whose record fixes the class of a node (R160, R343). -/
def ownerOf : Node → Node
  | .align n => .feed n
  | .corr n => .feed n
  | .bank n _ => .feed n
  | .eq n => .feed n
  | .limit n => .feed n
  | .gearSai n => .sai n
  | .gearAesi n => .aesi n
  | .gearPdm n => .pdm n
  | n => n

/-- The class of a node under a configuration: 0 ALARM to 3 BULK, or none (R80, R236). -/
def classIn (c : Cfg) (n : Node) : Option Nat :=
  let rec' (k : Node) : Option Nat := (c.nodes.find? fun r => r.node == k).map NodeRec.cls
  let outer (p : List Name) : Option Nat := (c.tandems.find? fun t => t.path == p.take 1).map Tandem.cls
  match n with
  | .bell => some 0
  | .bellMsg _ => some 0
  | .bellTrig _ => some 0
  | .bellRoute _ => some 0
  | .tandem p => outer p
  | .inst p => outer p
  | .zone _ => none
  | .layout => none
  | .car _ => none
  | .stage _ => none
  | .cls _ => none
  | .till => none
  | .net _ => some 0
  | .gate _ => some 0
  | .ptp _ => some 0
  | k => rec' (ownerOf k)

/-- The class of a node as admitted. -/
def classOf (s : State) (n : Node) : Option Nat := classIn s.adm.cfg n

/-- CLASS of an event about a node, raised for a mailbox or for none (R103). -/
def eventClass (s : State) (n : Option Node) (source : Nat) : Nat :=
  match n.bind (classOf s) with
  | some k => k
  | none => if source = 0 then 0 else 1

/-! ### Handles (R67) -/

/-- The handle word of a record. -/
def HandleRec.word (h : HandleRec) : Word := wd (h.gen * 2 ^ 20 + h.num)

/-- The live handle record of a node. -/
def handleRec (s : State) (r : Ref) : Option HandleRec := s.fw.handles.find? fun h => h.live && h.ref == r

/-- The handle of a node, 0 where it has never been looked up (R103). -/
def handleOf (s : State) (r : Ref) : Word := ((handleRec s r).map HandleRec.word).getD 0#32

/-! ### Items and messages (R44) -/

/-- The words of an item. -/
def Item.words (i : Item) : List Word := wd (i.tag * 65536 + i.vals.length) :: i.vals

/-- The words of items. -/
def itemWords (is : List Item) : List Word := is.flatMap Item.words

/-! ### Interrupt vectors (R456) -/

/-- Raise MSI-X vector `v`: its SYS_IRQ_PEND bit sets; the pending-bit array holds it while its table entry masks it. -/
def raiseVec (v : Nat) (s : State) : State :=
  s.updRegs fun r =>
    { r with irqPend := r.irqPend ||| wd (2 ^ v),
             msixPba := if (r.msixTable.word (16 * v + 12)).getLsbD 0 then r.msixPba ||| wd (2 ^ v) else r.msixPba }

/-- Raise a vector when a condition holds. -/
def raiseVecIf (c : Bool) (v : Nat) (s : State) : State := if c then raiseVec v s else s

/-! ### Events (R103 to R112) -/

/-- KIND of R103. -/
def StampKind.code : StampKind → Nat
  | .boundary => 0
  | .detect => 1
  | .block => 2
  | .teller => 3

/-- The words of a record on a ring, with its ESEQ or entry number. -/
def Event.words (s : State) (e : Event) (seq : Nat) : List Word :=
  let body := itemWords e.items
  [wd ((6 + body.length) * 2 ^ 20 + e.code / 4096 * 65536 + e.code), wd seq, wd e.stamp, wd (e.stamp / 2 ^ 32),
    (e.node.map (handleOf s)).getD 0#32,
    wd (e.kind.code * 2 ^ 28 + e.source * 2 ^ 24 + e.cls * 2 ^ 22 + low16 e.detail)] ++ body

/-- The EVENTS_LOST record (R106, R109). -/
def lostEvent (s : State) (n : Nat) : Event :=
  { code := 0x0005, kind := .teller, stamp := s.clk.tally, node := none, source := 0xF, cls := 1, detail := sat16 n,
    items := [] }

/-- Size of a ring in words. -/
def EvRing.size (r : EvRing) : Nat := 2 ^ r.log2S

/-- Free words of a ring. -/
def EvRing.space (r : EvRing) : Nat := r.size - posted r.size r.wr r.rd

/-- Write a whole record, then advance WR (R108). -/
def EvRing.write (r : EvRing) (ws : List Word) : EvRing :=
  { r with words := ringPut r.size r.words r.wr ws, wr := (r.wr + ws.length) % (2 * r.size) }

/-- Lose a record (R108, R109). -/
def EvRing.lose (r : EvRing) (seq : Nat) : EvRing :=
  { r with lost := sat16 (r.lost + 1), run := some (match r.run with | none => (seq, 1) | some (f, n) => (f, n + 1)) }

/-- Raise a record for one ring (R105, R108, R109): the ring, and whether WR advanced. -/
def EvRing.raise (s : State) (e : Event) (r : EvRing) : EvRing × Bool :=
  if !r.enable || !bitOf r.mask (e.code / 4096) then (r, false)
  else
    let seq := r.eseq
    let ws := e.words s seq
    let r := { r with eseq := (seq + 1) % 2 ^ 32 }
    match r.run with
    | none => if ws.length ≤ r.space then (r.write ws, true) else (r.lose seq, false)
    | some (f, n) =>
      if r.space < 6 then (r.lose seq, false)
      else
        let r := { (r.write ((lostEvent s n).words s f)) with run := none }
        if ws.length ≤ r.space then (r.write ws, true) else (r.lose seq, true)

/-- Raise a record for ring `e`, and its vector when WR advances with IRQ_EN 1 (R110). -/
def raiseOn (ev : Event) (s : State) (e : Nat) : State :=
  match s.rings[e]? with
  | none => s
  | some r =>
    let x := r.raise s ev
    raiseVecIf (x.2 && r.irqEn) (8 + e) { s with rings := s.rings.set e x.1 }

/-- Events that also reach the event ledger (R534). -/
def ledgered (e : Event) : Bool :=
  e.code / 4096 == 0xA || e.code / 4096 == 0xB ||
  (e.cls == 0 && (e.code == 0x5002 || e.code == 0x5003)) ||
  [0x4002, 0x4003, 0x4007, 0x8002, 0x8004, 0x8005, 0x8008, 0x8009, 0x6006, 0x6007, 0x7002, 0x700A, 0x7006, 0x9002, 0x9004,
    0x9005].contains e.code

/-- An event waits for its ledger entry; like events within 3000 frames are counted in REPEATS (R534). -/
def ledgerQueue (e : Event) (s : State) : State :=
  let same (x : Event) : Bool := x.code == e.code && x.node == e.node && decide (e.stamp < x.stamp + frames 3000)
  if s.ledg.queue.any fun q => same q.1 then
    { s with ledg := { s.ledg with
        queue := s.ledg.queue.map fun q => if same q.1 then (q.1, min (q.2 + 1) 0xFFFF) else q } }
  else if s.ledg.events.any fun x => same x.ev then
    let old := ((s.ledg.suppressed.find? fun x => x.1 == e.code && x.2.1 == e.node).map (·.2.2)).getD 0
    { s with ledg := { s.ledg with
        suppressed := (e.code, e.node, min (old + 1) 0xFFFF) ::
          s.ledg.suppressed.filter fun x => !(x.1 == e.code && x.2.1 == e.node) } }
  else
    let old := ((s.ledg.suppressed.find? fun x => x.1 == e.code && x.2.1 == e.node).map (·.2.2)).getD 0
    { s with ledg := { s.ledg with
        queue := s.ledg.queue ++ [(e, old)],
        suppressed := s.ledg.suppressed.filter fun x => !(x.1 == e.code && x.2.1 == e.node) } }

/-- Raise an event: on every enabled ring whose mask takes it, in ring order, and for the ledger where it belongs (R111). -/
def raiseEvent (e : Event) (s : State) : State :=
  let s := (List.range 8).foldl (raiseOn e) s
  if ledgered e then ledgerQueue e s else s

/-- Raise an event about a node with its default class. -/
def raiseNode (code : Nat) (kind : StampKind) (stamp : Nat) (n : Option Node) (source detail : Nat) (items : List Item)
    (s : State) : State :=
  raiseEvent { code := code, kind := kind, stamp := stamp, node := n.map fun k => { node := k, tag := none },
               source := source, cls := eventClass s n source, detail := detail, items := items } s

/-- Raise an event of the hub or the firmware itself, with no mailbox concerned. -/
def raiseOwn (code : Nat) (kind : StampKind) (stamp : Nat) (n : Option Node) (detail : Nat) (s : State) : State :=
  raiseNode code kind stamp n 0xF detail [] s

/-- The limiter record of a rate-limited event. -/
def limitOf (s : State) (code : Nat) (n : Option Node) : Limit :=
  (s.limits.find? fun l => l.code == code && l.node == n).getD { code := code, node := n, raised := none, hits := [] }

/-- Count `k` occurrences and raise the event at most once in 3000 frames, with the count of the last 3000 frames (R152,
R196, R439). -/
def raiseLimited (code : Nat) (kind : StampKind) (stamp : Nat) (n : Option Node) (k : Nat) (items : List Item)
    (s : State) : State :=
  if k = 0 then s
  else
    let l := limitOf s code n
    let hits := (stamp, k) :: l.hits.filter fun h => decide (stamp < h.1 + frames 3000)
    let due := match l.raised with
      | none => true
      | some t => decide (t + frames 3000 ≤ stamp)
    let l' : Limit := { l with hits := hits, raised := if due then some stamp else l.raised }
    let s := { s with limits := l' :: s.limits.filter fun x => !(x.code == code && x.node == n) }
    if due then raiseNode code kind stamp n 0xF (sat16 (sumNat (hits.map (·.2)))) items s else s

/-! ### Free values -/

/-- A fresh free value, and the state that has drawn it. -/
def drawFree (s : State) : Word × State := (Config.freeWord s.free, { s with free := s.free + 1 })

/-! ### Bus errors (R468) -/

/-- MASTER of SYS_BUS_ERR_INFO. -/
def masterCode : Master → Nat
  | .tellerA => 0
  | .tellerB => 1
  | .pcie => 2
  | .spi => 3

/-- An error response: BUS_ERR sets, vector 22 is raised when it sets, and the first error is recorded (R456, R468). -/
def busError (m : Master) (addr kind : Nat) (write window : Bool) (s : State) : State :=
  let s := raiseVecIf (!s.regs.err.busErr) 22 s
  let s := s.updErr fun e => { e with busErr := true }
  if s.regs.busValid then s
  else s.updRegs fun r =>
    { r with busValid := true, busAddr := wd addr,
             busInfo := wd (b2n window * 1024 + kind * 256 + b2n write * 16 + masterCode m) }

end Sys2Proof.Machine
end

