-- ==== Sys2Proof/Machine/Schema.lean ====
section
/-! DEFINITION. The parameters of the tree, node type by node type, from the tables of the chapters: tag, name, value words,
range, default and how it is set (R75, R572, R576; the tables of 03 to 16). Checks that depend on another parameter
(R575) are made where the request is checked. -/

namespace Sys2Proof.Machine

/-- How a parameter is set (R118). -/
inductive SetBy where
  | escrow | adm | ro | fixed
deriving DecidableEq, Repr

/-- A parameter, or a run of indexed parameters with consecutive tags. -/
structure PSpec where
  /-- Name in lower case; an indexed one gets an underscore and its index (R572). -/
  name : String
  lo : Nat
  count : Nat
  indexed : Bool
  /-- VLEN, or none where it varies. -/
  len : Option Nat
  /-- Every value is within its range. -/
  ok : List Word → Bool
  dflt : List Word
  by_ : SetBy

/-! ### Ranges -/

/-- Unsigned word in a range. -/
def uIn (lo hi : Nat) (w : Word) : Bool := decide (lo ≤ w.toNat) && decide (w.toNat ≤ hi)

/-- Signed word in a range. -/
def sIn (lo hi : Int) (w : Word) : Bool := decide (lo ≤ w.toInt) && decide (w.toInt ≤ hi)

/-- Only the bits of a mask are set. -/
def onlyBits (mask : Nat) (w : Word) : Bool := w &&& wd mask == w

/-- Each word passes its own check. -/
def each : List (Word → Bool) → List Word → Bool
  | [], [] => true
  | p :: ps, w :: ws => p w && each ps ws
  | _, _ => false

/-- All words pass one check. -/
def alls (p : Word → Bool) (ws : List Word) : Bool := ws.all p

def esc (name : String) (tag : Nat) (ok : List (Word → Bool)) (dflt : List Word) : PSpec :=
  { name := name, lo := tag, count := 1, indexed := false, len := some ok.length, ok := each ok, dflt := dflt, by_ := .escrow }

def escN (name : String) (tag count : Nat) (ok : List (Word → Bool)) (dflt : List Word) : PSpec :=
  { name := name, lo := tag, count := count, indexed := true, len := some ok.length, ok := each ok, dflt := dflt,
    by_ := .escrow }

def admP (name : String) (tag : Nat) (ok : List (Word → Bool)) (dflt : List Word) : PSpec :=
  { esc name tag ok dflt with by_ := .adm }

def roP (name : String) (tag : Nat) : PSpec :=
  { name := name, lo := tag, count := 1, indexed := false, len := none, ok := fun _ => true, dflt := [], by_ := .ro }

/-- One word. -/
def w1 (n : Nat) : List Word := [wd n]

/-- A parameter covers a tag. -/
def PSpec.has (p : PSpec) (tag : Nat) : Bool := decide (p.lo ≤ tag) && decide (tag < p.lo + p.count)

/-! ### SOURCE and DEST encodings -/

/-- A SOURCE word (R123, R124): kind 0 has index 0, bits 27:16 are 0, the kind is listed, the index is below its limit. -/
def sourceOk (limits : List (Nat × Nat)) (w : Word) : Bool :=
  let kind := fld w 28 4
  let idx := fld w 0 16
  fld w 16 12 == 0 && (if kind == 0 then idx == 0 else limits.any fun l => l.1 == kind && decide (idx < l.2))

/-! ### 01: status objects -/

def specsHw : List PSpec :=
  [roP "members" 0x180, roP "health" 0x181, roP "role" 0x182, roP "active_count" 0x183, roP "cycles_alloc" 0x184,
   roP "cycles_peak" 0x185, roP "overruns" 0x186, roP "audit_fails" 0x187, roP "temp_max" 0x188, roP "slack_min" 0x189]

/-! ### 04: layout and objects (R118, R123) -/

def mmBuild : Word → Bool := fun _ => true

def specsLayout : List PSpec :=
  [esc "cab_swap" 0x101 [uIn 0 1] (w1 0), admP "length" 0x102 [uIn 10000 1000000] (w1 0),
   admP "cars" 0x103 [uIn 1 32] (w1 0), esc "sound_speed" 0x104 [uIn 300000 360000] (w1 343000)]

def specsCar : List PSpec :=
  [admP "x_front" 0x101 [uIn 0 1000000] (w1 0), admP "x_rear" 0x102 [uIn 0 1000000] (w1 0)]

def posRun : List (Word → Bool) := [sIn (-50000) 1000000, sIn (-10000) 10000, sIn (-2000) 10000]

/-- BYPASS, tag 0x0100 (R78). -/
def pBypass : PSpec := esc "bypass" 0x100 [uIn 0 1] (w1 0)

def specsObject : List PSpec :=
  [pBypass,
   esc "source" 0x101 [sourceOk [(1, 96), (2, 0x10000), (3, 0x10000), (4, 0x10000)]] (w1 0),
   esc "route_ramp" 0x102 [uIn 0 2000] (w1 10),
   esc "gain" 0x103 [sIn (-14400) 1200] (w1 0),
   esc "gain_ramp" 0x104 [uIn 0 2000] (w1 20),
   esc "pos" 0x110 posRun [0#32, 0#32, 0#32],
   esc "vmax" 0x111 [uIn 0 1000000] (w1 20000),
   esc "law" 0x112 [uIn 0 3] (w1 0),
   esc "zone" 0x113 [fun w => uIn 0 255 w || w == 0xFFFF#32] (w1 0xFFFF),
   esc "side" 0x114 [uIn 0 3] (w1 2),
   esc "curve" 0x115 [uIn 0 1] (w1 0),
   esc "spread" 0x116 [uIn 0 50000] (w1 0),
   esc "dist_law" 0x117 [uIn 0 3] (w1 0),
   esc "dist_ref" 0x118 [uIn 500 50000] (w1 2000),
   esc "dist_span" 0x119 [uIn 1000 500000] (w1 20000),
   esc "dist_delay" 0x11A [uIn 0 1] (w1 0),
   esc "base_delay" 0x11B [uIn 0 (1920 * 65536)] (w1 0),
   esc "cmax" 0x11C [uIn 1 64] (w1 16),
   esc "floor" 0x11D [sIn (-9600) (-4000)] [wi (-8000)],
   esc "handover" 0x11E [uIn 1 8] (w1 2),
   esc "reenter" 0x11F [uIn 65536 (1920 * 65536)] (w1 (48 * 65536)),
   esc "steer" 0x130 [uIn 0 1] (w1 0),
   esc "target" 0x131 posRun [0#32, 0#32, 0#32],
   esc "lead" 0x132 [uIn (48 * 65536) (384 * 65536)] (w1 (96 * 65536)),
   esc "lead_radius" 0x133 [uIn 200 10000] (w1 1500),
   esc "comp" 0x134 [uIn 0 2] (w1 1),
   esc "trim" 0x135 [uIn 0 1200] (w1 300),
   esc "grade_max" 0x136 [uIn 0 (1536 * 65536)] (w1 (480 * 65536)),
   roP "rpos" 0x180, roP "ncontrib" 0x181, roP "reentries" 0x182, roP "deferrals" 0x183, roP "truncated" 0x184,
   roP "contrib" 0x190]

/-! ### 05: feeds (R118, R160, R186) -/

/-- TAPS_MAX of R160. -/
def tapsMaxOk (w : Word) : Bool :=
  let n := w.toNat
  (decide (64 ≤ n) && decide (n ≤ 1024) && n % 64 == 0) || (decide (2048 ≤ n) && decide (n ≤ 16384) && n % 1024 == 0)

/-- SECTION n and its default (R186), and RAW n. -/
def sectionOk : List (Word → Bool) := [uIn 0 8, uIn 100 230000, sIn (-2400) 1200, uIn 100 20000, uIn 0 0]
def sectionDflt : List Word := [0#32, 10000#32, 0#32, 707#32, 0#32]
def anyWord : Word → Bool := fun _ => true

def specsFeed : List PSpec :=
  [pBypass, esc "trim" 0x101 [sIn (-14400) 1200] (w1 0), esc "polarity" 0x102 [uIn 0 1] (w1 0),
   esc "trim_ramp" 0x103 [uIn 0 2000] (w1 20), admP "taps_max" 0x104 [tapsMaxOk] (w1 1024),
   admP "align_max" 0x105 [uIn 0 72000] (w1 0),
   admP "pos" 0x140 [anyWord, anyWord, anyWord] [0#32, 0#32, 0#32],
   admP "aim" 0x141 [sIn (-1800) 1799, sIn (-900) 900] [0#32, 0#32], admP "car" 0x142 [uIn 1 32] (w1 1),
   admP "zones" 0x143 (List.replicate 8 anyWord) (List.replicate 8 0#32),
   roP "clips" 0x180, roP "tail" 0x181]

def specsAlign : List PSpec :=
  [pBypass, esc "delay" 0x101 [uIn 0 72000] (w1 0), esc "xfade" 0x102 [uIn 10 2000] (w1 20), roP "fading" 0x180,
   roP "replaced" 0x181]

def specsCorr : List PSpec :=
  [pBypass, esc "active" 0x101 [uIn 0 1] (w1 0), esc "xfade" 0x102 [uIn 10 2000] (w1 50), roP "audible" 0x180,
   roP "pending" 0x181, roP "replaced" 0x182, roP "waits" 0x183]

def specsBank : List PSpec :=
  [roP "state" 0x180, roP "total" 0x181, roP "shift" 0x182, roP "crc" 0x183, roP "ready_at" 0x184]

def specsEq : List PSpec :=
  [pBypass, esc "xfade" 0x101 [uIn 10 2000] (w1 20), escN "section" 0x110 12 sectionOk sectionDflt,
   escN "raw" 0x120 12 (List.replicate 5 anyWord) (List.replicate 5 0#32), roP "replaced" 0x180]

def specsLimit : List PSpec :=
  [pBypass, esc "thresh" 0x101 [sIn (-4000) 0] [wi (-100)], esc "attack" 0x102 [uIn 0 1000] (w1 50),
   esc "release" 0x103 [uIn 10 2000] (w1 200), roP "gr" 0x180]

def specsTill : List PSpec :=
  [admP "lanes" 0x101 [uIn 0 1024] (w1 16), admP "alarm_lanes" 0x102 [uIn 0 64] (w1 4), roP "busy" 0x180,
   roP "waiting" 0x181]

/-! ### 06: console, zones, scenes (R205, R209, R216, R226) -/

/-- Indices of the source kinds: buses, port input channels, receive stream channels and gear outputs. -/
def srcKinds (bus : Bool) : List (Nat × Nat) := (if bus then [(1, 96)] else []) ++ [(2, 0x10000), (3, 0x10000), (4, 0x10000)]

/-- DIRECT word 0 (R205). -/
def directOk (w : Word) : Bool :=
  onlyBits 0xF003FFFF w && decide (fld w 16 2 < 3) &&
    (match fld w 28 4 with
    | 0 => fld w 0 16 == 0
    | 3 => true
    | 4 => true
    | 5 => decide (fld w 0 16 < 64)
    | _ => false)

/-- SEND word 0 (R205). -/
def sendOk (w : Word) : Bool := onlyBits 0x8003FFFF w && decide (fld w 16 2 < 3) && decide (fld w 0 16 < 96)

/-- DEST word 0 (R208, R209). -/
def destOk (w : Word) : Bool :=
  onlyBits 0xF000FFFF w &&
    (match fld w 28 4 with
    | 0 => fld w 0 16 == 0
    | 1 => decide (fld w 0 16 < 256)
    | 2 => decide (fld w 0 16 < 1024)
    | 3 => true
    | 4 => true
    | 5 => decide (fld w 0 16 < 64)
    | _ => false)

def levelOk : Word → Bool := sIn (-14400) 1200

def specsChannel : List PSpec :=
  [pBypass, esc "source" 0x101 [sourceOk (srcKinds false)] (w1 0), esc "trim" 0x102 [sIn (-14400) 2400] (w1 0),
   esc "polarity" 0x103 [uIn 0 1] (w1 0), esc "gain_ramp" 0x104 [uIn 0 2000] (w1 20),
   esc "route_ramp" 0x105 [uIn 0 2000] (w1 10), esc "eq_xfade" 0x106 [uIn 10 2000] (w1 20),
   admP "hpf_order" 0x107 [uIn 0 2] (w1 1), esc "hpf_freq" 0x108 [uIn 200 10000] (w1 800),
   admP "eq_max" 0x109 [uIn 0 8] (w1 2), escN "section" 0x110 8 sectionOk sectionDflt,
   escN "raw" 0x118 8 (List.replicate 5 anyWord) (List.replicate 5 0#32),
   esc "dyn_mode" 0x130 [uIn 0 3] (w1 0), esc "comp_thresh" 0x131 [sIn (-6000) 0] [wi (-2000)],
   esc "ratio" 0x132 [uIn 100 2000] (w1 300), esc "attack" 0x133 [uIn 0 1000] (w1 500),
   esc "release" 0x134 [uIn 10 2000] (w1 200), esc "gate_thresh" 0x135 [sIn (-9600) 0] [wi (-7000)],
   esc "gate_range" 0x136 [uIn 0 9600] (w1 4000), esc "makeup" 0x137 [uIn 0 2400] (w1 0),
   admP "delay_max" 0x140 [uIn 0 4800] (w1 0), esc "delay" 0x141 [uIn 0 4800] (w1 0),
   esc "delay_xfade" 0x142 [uIn 10 2000] (w1 20), esc "mute" 0x150 [uIn 0 1] (w1 1),
   esc "fader" 0x151 [levelOk] (w1 0), admP "sends_max" 0x152 [uIn 0 32] (w1 8),
   esc "direct" 0x153 [directOk, levelOk] [0x20000#32, 0#32],
   escN "send" 0x160 32 [sendOk, levelOk] [0x20000#32, 0#32],
   roP "clips" 0x180, roP "gr" 0x181, roP "fading" 0x182, roP "replaced" 0x183]

def specsBus : List PSpec :=
  [pBypass, esc "gain" 0x101 [levelOk] (w1 0), esc "mute" 0x102 [uIn 0 1] (w1 0),
   esc "gain_ramp" 0x103 [uIn 0 2000] (w1 20), esc "route_ramp" 0x104 [uIn 0 2000] (w1 10),
   esc "eq_xfade" 0x105 [uIn 10 2000] (w1 20), esc "auto" 0x106 [uIn 0 2] (w1 0),
   esc "auto_ramp" 0x107 [uIn 0 2000] (w1 20), admP "eq_max" 0x108 [uIn 0 8] (w1 4),
   admP "dests_max" 0x109 [uIn 0 8] (w1 2), admP "feeds_max" 0x10A [uIn 0 1024] (w1 0),
   escN "section" 0x110 8 sectionOk sectionDflt,
   escN "raw" 0x118 8 (List.replicate 5 anyWord) (List.replicate 5 0#32),
   escN "dest" 0x130 8 [destOk, levelOk, fun w => uIn 0 255 w || w == 0xFFFF#32] [0#32, 0#32, 0xFFFF#32],
   roP "n" 0x180, roP "scale" 0x181, roP "clips" 0x182, roP "fading" 0x183, roP "replaced" 0x184, roP "feeds" 0x185]

def specsZone : List PSpec :=
  [esc "mirror" 0x101 [uIn 0 255] (w1 0), esc "amb_on" 0x102 [uIn 0 1] (w1 0),
   admP "sensor" 0x103 (List.replicate 4 (sourceOk (srcKinds false))) (List.replicate 4 0#32),
   admP "amb_class" 0x104 [uIn 0 1] (w1 1), esc "ref" 0x105 [sIn (-9600) 0] [wi (-5000)],
   esc "slope" 0x106 [uIn 0 1000] (w1 500), esc "min" 0x107 [sIn (-1200) 0] [wi (-600)],
   esc "max" 0x108 [uIn 0 1200] (w1 1200), esc "slew_up" 0x109 [uIn 1 10000] (w1 100),
   esc "slew_down" 0x10A [uIn 1 10000] (w1 50), esc "hold_level" 0x10B [sIn (-9600) 0] [wi (-6000)],
   esc "hold_tail" 0x10C [uIn 0 3000] (w1 500),
   roP "members" 0x180, roP "amb_level" 0x181, roP "amb_gain" 0x182, roP "held" 0x183]

def specsScene : List PSpec :=
  [roP "fading" 0x180, roP "running" 0x181, roP "pending" 0x182, roP "replaced" 0x183, roP "fade_end" 0x184]

def specsScenes : List PSpec :=
  [roP "state" 0x180, roP "words" 0x181, roP "alarm" 0x182, roP "xfade" 0x183, roP "stored_at" 0x184, roP "crc" 0x185]

/-! ### 07: classes, configurations and the Bell path (R238, R241, R267) -/

def specsClass (k : Nat) : List PSpec :=
  let pick (l : List Nat) : List Word := w1 (l.getD k 0)
  [admP "cycles" 0x101 [uIn 0 9600000] (pick [1000000, 4500000, 1500000, 500000]),
   admP "hub_bytes" 0x102 [uIn 0 29360128] (pick [2097152, 25165824, 1048576, 1048576]),
   admP "dram_rate" 0x103 [uIn 0 27000000] (pick [2000000, 14000000, 3000000, 2000000]),
   admP "gate" 0x104 (List.replicate 4 (uIn 0 1000)) (List.replicate 4 (wd ([100, 400, 300, 100].getD k 0))),
   roP "used_cycles" 0x180, roP "used_hub" 0x181, roP "used_dram" 0x182, roP "used_gate" 0x183,
   { roP "mailbox" 0x184 with by_ := .fixed, len := some 1, dflt := w1 (if k = 0 then 0 else 1) }]

def specsConfig : List PSpec := [roP "active" 0x180, roP "admitted_at" 0x181, roP "pending_at" 0x182]

def specsSlot : List PSpec :=
  [esc "count" 0x101 [uIn 0 1024] (w1 0), roP "words" 0x180, roP "crc" 0x181,
   { name := "part", lo := 0x1000, count := 1024, indexed := true, len := none,
     ok := fun ws => decide (1 ≤ ws.length) && decide (ws.length ≤ 1000), dflt := [], by_ := .escrow }]

def specsBell : List PSpec := [roP "image_ok" 0x180, roP "image_crc" 0x181]

def specsBellMsg : List PSpec := [roP "length" 0x180]

def specsBellTrig : List PSpec :=
  [esc "msg" 0x101 [uIn 0 63] (w1 0), esc "mode" 0x102 [uIn 0 2] (w1 0), esc "repeats" 0x103 [uIn 1 255] (w1 1),
   esc "gap" 0x104 [uIn 0 10000] (w1 0), esc "sw" 0x105 [uIn 0 1] (w1 0), roP "starts" 0x180]

/-- DEST of a bell route (R267). -/
def bellDestOk (w : Word) : Bool :=
  onlyBits 0xF0000F1F w &&
  match fld w 28 4 with
  | 0 => fld w 0 28 == 0
  | 1 => decide (fld w 8 4 < 16) && decide (fld w 0 5 < 16)
  | 2 => decide (fld w 8 4 < 4) && decide (fld w 0 5 < 2)
  | 3 => decide (fld w 8 4 < 4) && fld w 0 5 == 0
  | _ => false

def specsBellRoute : List PSpec :=
  [esc "dest" 0x101 [bellDestOk] (w1 0), esc "mask" 0x102 [onlyBits 0x10F] (w1 0),
   esc "gain" 0x103 [sIn (-6000) 0] (w1 0), esc "duck" 0x104 [sIn (-9600) 0] (w1 0)]

/-! ### 16: ledgers (R538) -/

def specsLedgerEvent : List PSpec :=
  [roP "newest" 0x180, roP "rec_lost" 0x181,
   escN "tap" 0x200 64 [fun w => onlyBits 0xC700FFFF w && (decide (fld w 0 16 < 1024) || fld w 0 16 == 0xFFFF)]
     (w1 0xFFFF)]

def specsLedgerMargin : List PSpec :=
  [roP "op_seconds" 0x180, roP "ladder" 0x181, roP "alarm_frames" 0x182, roP "alarm_bad" 0x183, roP "excluded" 0x184]

/-! ### 09: ports (R315) -/

def feedOrNone : Word → Bool := fun w => uIn 0 1023 w || w == 0xFFFF#32

def specsSai : List PSpec :=
  [admP "format" 0x101 [uIn 0 2] (w1 2), admP "rate" 0x102 [uIn 0 7] (w1 0),
   admP "bits" 0x103 [fun w => w == 16#32 || w == 24#32 || w == 32#32] (w1 32), admP "timing" 0x104 [onlyBits 7] (w1 0),
   esc "slots" 0x105 [uIn 2 16] (w1 8), esc "rx_mask" 0x106 [onlyBits 0xFFFF] (w1 0), esc "tx_mask" 0x107 [onlyBits 0xFFFF] (w1 0),
   admP "tx_idle" 0x108 [uIn 0 1] (w1 1), esc "route_ramp" 0x109 [uIn 0 2000] (w1 10),
   escN "tx_feed" 0x110 16 [feedOrNone] (w1 0xFFFF),
   roP "state" 0x180, roP "phase" 0x181, roP "faults" 0x182, roP "missing" 0x183, roP "excess" 0x184]

def specsAesi : List PSpec :=
  [admP "rate" 0x102 [fun w => w == 0#32 || w == 5#32 || w == 6#32 || w == 7#32] (w1 0), esc "validity" 0x105 [uIn 0 1] (w1 0),
   roP "state" 0x180, roP "phase" 0x181, roP "faults" 0x182, roP "cs_a" 0x186, roP "cs_b" 0x187, roP "v" 0x188,
   roP "errors" 0x189]

def specsAeso : List PSpec :=
  [esc "cs_mode" 0x101 [uIn 0 1] (w1 1), esc "cs_a" 0x102 (List.replicate 6 anyWord) defaultCs,
   esc "cs_b" 0x103 (List.replicate 6 anyWord) defaultCs, esc "v_mode" 0x104 [uIn 0 2] (w1 0),
   esc "route_ramp" 0x109 [uIn 0 2000] (w1 10), escN "tx_feed" 0x110 2 [feedOrNone] (w1 0xFFFF), roP "state" 0x180]

def specsPdm : List PSpec :=
  [esc "enable" 0x101 [uIn 0 1] (w1 0), esc "wake" 0x102 [uIn 0 300] (w1 20), roP "state" 0x180, roP "stuck" 0x181]

/-! ### 10: gear unit (R357) -/

def specsGearTop : List PSpec := [roP "load" 0x180, roP "peak" 0x181, roP "capacity" 0x182]

def gearRo : List PSpec :=
  [roP "delay" 0x180, roP "settle" 0x181, roP "state" 0x182, roP "resets" 0x183, roP "replaced" 0x184, roP "mismatches" 0x185]

def gearRw : List PSpec :=
  [esc "filter" 0x101 [uIn 0 1] (w1 0), esc "xfade" 0x102 [uIn 10 2000] (w1 20), esc "resync" 0x103 [anyWord] (w1 0)]

def specsGear : List PSpec := gearRw ++ gearRo
def specsGearPdm : List PSpec := gearRw ++ [esc "deskew" 0x104 [uIn 0 1] (w1 0)] ++ gearRo

/-! ### 11: network (R361, R370, R384, R388) -/

def specsNet : List PSpec :=
  [admP "mode" 0x101 [uIn 0 3] (w1 0), admP "speed" 0x102 [uIn 0 2] (w1 0), admP "step_down" 0x103 [uIn 0 1] (w1 0),
   admP "mac_addr" 0x104 [anyWord, uIn 0 0xFFFF] [0#32, 0#32], admP "ipv4" 0x105 [anyWord] (w1 0),
   admP "prefix" 0x106 [uIn 1 30] (w1 24), admP "vlan" 0x107 [uIn 0 4094] (w1 0),
   admP "max_frame" 0x108 [uIn 1522 2048] (w1 1522), esc "pause_rx" 0x109 [uIn 0 1] (w1 1),
   admP "cb_pair" 0x10A [fun w => uIn 0 3 w || w == 0xFF#32] (w1 0xFF), roP "link" 0x180, roP "rate" 0x181,
   roP "paused" 0x182]

def specsGate : List PSpec :=
  [esc "enable" 0x101 [uIn 0 1] (w1 0), esc "base" 0x102 [anyWord, anyWord] [0#32, 0#32], esc "count" 0x103 [uIn 1 64] (w1 1),
   escN "entry" 0x110 64 [fun w => decide (8 ≤ fld w 0 24)] [0xFF000C00#32], roP "oper_start" 0x180, roP "cycle" 0x181,
   roP "pending" 0x182, roP "change_at" 0x183, roP "replaced" 0x184]

/-- Tags 0x0110 to 0x0113 exist on `/net/0/ptp` only (R384). -/
def specsPtp (n : Nat) : List PSpec :=
  [admP "enable" 0x101 [uIn 0 1] (w1 0), admP "domain" 0x102 [uIn 0 239] (w1 0), admP "transport" 0x103 [uIn 0 1] (w1 0),
   admP "delay_mech" 0x104 [uIn 0 1] (w1 0), admP "lat_rx" 0x105 [uIn 0 65535] (w1 0),
   admP "lat_tx" 0x106 [uIn 0 65535] (w1 0)] ++
  (if n = 0 then
    [admP "clock_source" 0x110 [uIn 0 1] (w1 0), esc "fixed_offset" 0x111 [anyWord, anyWord] [0#32, 0#32],
     admP "synth" 0x112 [uIn 0 1] (w1 0), roP "media_offset" 0x113]
  else []) ++ [roP "state" 0x180, roP "offset_ns" 0x181]

def streamHead : List PSpec :=
  [esc "enable" 0x101 [uIn 0 1] (w1 0), admP "addr" 0x102 [anyWord] (w1 0), admP "udp_port" 0x103 [uIn 1024 65535] (w1 5004),
   admP "pt" 0x104 [uIn 96 127] (w1 98), admP "ssrc" 0x105 [anyWord] (w1 0), admP "encoding" 0x106 [uIn 0 1] (w1 1),
   admP "channels" 0x107 [uIn 1 64] (w1 2), admP "ptime" 0x108 [uIn 0 3] (w1 0)]

def specsTx : List PSpec :=
  streamHead ++
  [admP "dscp" 0x109 [uIn 0 63] (w1 34), admP "ttl" 0x10A [uIn 1 255] (w1 16), admP "cb_rep" 0x10B [uIn 0 1] (w1 0),
   roP "state" 0x180, roP "packets" 0x181]

def specsRx : List PSpec :=
  streamHead ++
  [admP "source_ip" 0x10C [anyWord] (w1 0), admP "margin" 0x10D [uIn 0 480] (w1 6), admP "depth" 0x10E [uIn 0 960] (w1 64),
   admP "mode" 0x10F [uIn 0 1] (w1 0), esc "low" 0x110 [uIn 1 960] (w1 1), esc "rearm" 0x111 [uIn 1 960] (w1 1),
   admP "cb_elim" 0x112 [uIn 0 1] (w1 0), roP "state" 0x180, roP "packets" 0x181, roP "adjust" 0x182, roP "late" 0x183,
   roP "excess" 0x184, roP "bad" 0x185]

/-! ### 13: pilot DACs (R441) -/

def codeOk : Word → Bool := uIn 0 65535

def specsPilot : List PSpec :=
  [esc "enable" 0x101 [uIn 0 1] (w1 0), esc "range" 0x102 [uIn 0 3] (w1 0), esc "source" 0x103 [uIn 0 4] (w1 0),
   esc "hold" 0x104 [codeOk] (w1 0), esc "low" 0x105 [codeOk] (w1 0), esc "high" 0x106 [codeOk] (w1 65535),
   esc "period" 0x107 [uIn 2 65534] (w1 480), esc "div" 0x108 [uIn 1 48000] (w1 1), esc "feed" 0x109 [uIn 0 1023] (w1 0),
   esc "win_lo" 0x10A [uIn 0 4095] (w1 0), esc "win_hi" 0x10B [uIn 0 4095] (w1 4095),
   esc "win_frames" 0x10C [uIn 1 3000] (w1 30), roP "state" 0x180, roP "code" 0x181, roP "sense" 0x182, roP "line" 0x183,
   roP "match_max" 0x184, roP "retired" 0x185]

/-! ### 08: stage images and instances (R307, R308) -/

def specsStage : List PSpec :=
  [admP "parts" 0x101 [uIn 1 64] (w1 0), roP "crc" 0x180, roP "cycles" 0x181, roP "instances" 0x182,
   { name := "image", lo := 0x1000, count := 64, indexed := true, len := none,
     ok := fun ws => decide (1 ≤ ws.length) && decide (ws.length ≤ 1000), dflt := [], by_ := .adm }]

/-- An instance; the range and default of P n, and how many there are, come from the image (Tree). -/
def specsInst : List PSpec :=
  [pBypass, roP "spokes" 0x180, roP "faults" 0x181, roP "fault_code" 0x182, roP "faulted" 0x183, roP "ov_frames" 0x184,
   roP "peak" 0x185, escN "p" 0x200 64 [anyWord] (w1 0)]

end Sys2Proof.Machine
end

