-- ==== Sys2Proof/Machine/Params.lean ====
section
/-! DEFINITION. The parameters of every node and their committed values (R75, R76). -/

namespace Sys2Proof.Machine

/-- The parameters of a node, in ascending tag order (R76). -/
def specs : Node → List PSpec
  | .hub => specsHw
  | .wheel _ => specsHw
  | .spoke _ _ => specsHw
  | .layout => specsLayout
  | .car _ => specsCar
  | .zone _ => specsZone
  | .object _ => specsObject
  | .feed _ => specsFeed
  | .align _ => specsAlign
  | .corr _ => specsCorr
  | .bank _ _ => specsBank
  | .eq _ => specsEq
  | .limit _ => specsLimit
  | .till => specsTill
  | .channel _ => specsChannel
  | .bus _ => specsBus
  | .scene => specsScene
  | .sceneChip _ => specsScenes
  | .sceneLib _ => specsScenes
  | .cls k => specsClass k
  | .config => specsConfig
  | .slot _ => specsSlot
  | .bell => specsBell
  | .bellMsg _ => specsBellMsg
  | .bellTrig _ => specsBellTrig
  | .bellRoute _ => specsBellRoute
  | .stage _ => specsStage
  | .sai _ => specsSai
  | .aesi _ => specsAesi
  | .aeso _ => specsAeso
  | .pdm _ => specsPdm
  | .gear => specsGearTop
  | .gearSai _ => specsGear
  | .gearAesi _ => specsGear
  | .gearPdm _ => specsGearPdm
  | .net _ => specsNet
  | .gate _ => specsGate
  | .ptp n => specsPtp n
  | .tx _ _ => specsTx
  | .rx _ _ => specsRx
  | .pilot _ => specsPilot
  | .tandem _ => [pBypass]
  | .inst _ => specsInst
  | .ring _ => []
  | .ledgerEvent => specsLedgerEvent
  | .ledgerMargin => specsLedgerMargin

/-- The parameter a tag names. -/
def specOf (n : Node) (tag : Nat) : Option PSpec := (specs n).find? fun p => p.has tag

/-- A default that depends on the node, the bell image or the boot flash (R118, R267, R361). -/
def dfltOf (s : State) (n : Node) (tag : Nat) (p : PSpec) : List Word :=
  match n with
  | .zone k => if tag = 0x101 then w1 k else p.dflt
  | .net k => if tag = 0x104 then (let b := s.boot.nets.getD k NetBoot.zero; [b.macHi, b.macLo]) else p.dflt
  | .bellTrig k => if tag ≤ 0x104 then [s.bell.store.word (0x840 + 16 * k + 4 * (tag - 0x101))] else p.dflt
  | .bellRoute k => [s.bell.store.word (0x440 + 16 * k + 4 * (tag - 0x101))]
  | _ => p.dflt

/-- The committed value of a parameter that is set (R76). -/
def param (s : State) (n : Node) (tag : Nat) : List Word :=
  match findVal s.vals n tag with
  | some v => v
  | none =>
    match specOf n tag with
    | some p => dfltOf s n tag p
    | none => []

/-- Word `i` of a committed value; as a natural number; as a signed number. -/
def pW (s : State) (n : Node) (tag i : Nat) : Word := (param s n tag).getD i 0#32
def pN (s : State) (n : Node) (tag : Nat) : Nat := (pW s n tag 0).toNat
def pZ (s : State) (n : Node) (tag : Nat) : Int := (pW s n tag 0).toInt

/-! ### Stage images (R305 to R308) -/

/-- The member at a path under a configuration. -/
def memberIn (c : Cfg) (path : List Name) : Option Member :=
  (c.tandems.find? fun t => t.path == path.dropLast).bind fun t => t.members.find? fun m => path.getLast? == some m.name

/-- The user stage of the instance at a path. -/
def stageIn (c : Cfg) (path : List Name) : Option Name := (memberIn c path).bind Member.stage

/-- The words of a stage's image: its IMAGE parts in order (R307). -/
def imageWords (vals : List Write) (nm : Name) : List Word :=
  let parts := ((findVal vals (.stage nm) 0x101).getD []).getD 0 0#32
  (List.range parts.toNat).flatMap fun i => (findVal vals (.stage nm) (0x1000 + i)).getD []

/-- Fields of the image header (R305). -/
structure ImageHdr where
  inputs  : Nat
  outputs : Nat
  params  : Nat
  classes : Nat
  cycles  : Nat
  code    : Nat
  data    : Nat
  state   : Nat
  scratch : Nat
  hub     : Nat
  dram    : Nat
  rate    : Nat
  latency : Nat
  entryPc : Nat
deriving DecidableEq, Repr

/-- The header of an image. -/
def imageHdr (ws : List Word) : ImageHdr :=
  let w (i : Nat) : Word := ws.getD i 0#32
  { inputs := fld (w 1) 16 4 + 1, outputs := fld (w 1) 20 4 + 1, params := fld (w 1) 8 8, classes := fld (w 1) 0 4,
    cycles := (w 2).toNat, code := (w 3).toNat, data := (w 4).toNat, state := (w 5).toNat, scratch := (w 6).toNat,
    hub := (w 7).toNat, dram := (w 8).toNat, rate := (w 9).toNat, latency := (w 10).toNat, entryPc := (w 11).toNat }

/-- MIN, MAX and DEFAULT of parameter `k` of an image. -/
def imageParam (ws : List Word) (k : Nat) : Word × Word × Word :=
  (ws.getD (32 + 3 * k) 0#32, ws.getD (33 + 3 * k) 0#32, ws.getD (34 + 3 * k) 0#32)

/-- The image of the instance at a path, as admitted. -/
def instImage (s : State) (path : List Name) : List Word :=
  match stageIn s.adm.cfg path with
  | some nm => imageWords s.vals nm
  | none => []

/-- A parameter of an instance as committed (R308). -/
def instParam (s : State) (path : List Name) (k : Nat) : Word :=
  match findVal s.vals (.inst path) (0x200 + k) with
  | some v => v.getD 0 0#32
  | none => (imageParam (instImage s path) k).2.2

/-- A node belongs to the admitted configuration. -/
def admitted (s : State) (n : Node) : Bool := s.adm.cfg.nodes.any fun r => r.node == n

end Sys2Proof.Machine
end

