-- ==== Sys2Proof/Machine/Dram.lean ====
section
/-! DEFINITION. The DRAM controller: places, command entries, slots, ECC, the vault, refresh, row disturbance, set points and
training (spec/12_memory_controller.md). -/

namespace Sys2Proof.Machine

/-! ### Places (R403 to R407) -/

/-- Rows of a bank (R404). -/
def dramRows (d : Dram) : Nat := d.density * 8192

/-- Normal-space rows of a bank (R405). -/
def normalRows (s : State) : Nat := dramRows s.dram - s.boot.dramCfg.vaultRows - 1

/-- The channel that is left when the other has failed (R519). -/
def soleChannel (d : Dram) : Option Nat :=
  match (d.channels.getD 0 DramCh.reset).failed, (d.channels.getD 1 DramCh.reset).failed with
  | true, false => some 1
  | false, true => some 0
  | _, _ => none

/-- Bytes of the normal space (R405, R519). -/
def normalBytes (s : State) : Nat := (if (soleChannel s.dram).isSome then 1 else 2) * 8 * 3584 * normalRows s

/-- Bytes of a vault (R405). -/
def vaultBytes (s : State) : Nat := 8 * 3584 * s.boot.dramCfg.vaultRows

/-- Channel of a data group (R406). -/
def groupChannel (g : Nat) : Nat := (g + g / 2 ^ 9 + g / 2 ^ 17 + g / 2 ^ 25) % 2

/-- Place of the group that stands `h`th in its channel (R406). -/
def placeOf (h g : Nat) : Place :=
  let lrow := h / 56
  { vault := false, bank := ((h % 8) ^^^ (lrow % 8)) ^^^ ((lrow / 8) % 8), row := 1 + lrow, slot := (h / 8) % 7, group := g }

/-- Channel and place of normal group `g`: R406; on one channel every group lies there (R519). DEDUCED, log 31. -/
def normalPlace (d : Dram) (g : Nat) : Nat × Place :=
  match soleChannel d with
  | some c => (c, placeOf g g)
  | none => (groupChannel g, placeOf (g / 2) g)

/-- Place of vault group `v` (R407). -/
def vaultPlace (rows v : Nat) : Place :=
  { vault := true, bank := v % 8, row := rows - 1 - v / 56, slot := (v / 8) % 7, group := v }

/-- DDR_ECC_LOC bits 31:1 of a word (R439). -/
def eccLoc (ch : Nat) (p : Place) (word : Nat) : Word :=
  wd (ch * 2 ^ 31 + p.bank * 2 ^ 28 + (p.row % 2 ^ 17) * 2 ^ 11 + p.slot * 2 ^ 8 + word * 4 + b2n p.vault * 2)

/-- F_ctrl in kHz by set point (R403). -/
def ctrlKHz (sp : Nat) : Nat := [533250, 466625, 400000, 266625].getD sp 266625

/-- Data rate of a set point in MT/s (R403). -/
def dataRate (sp : Nat) : Nat := [4266, 3733, 3200, 2133].getD sp 2133

/-- tRFCab in ns (R426). -/
def tRfc (density : Nat) : Nat := if density ≤ 4 then 130 else if density ≤ 8 then 180 else 280

/-- The vault bound S_b (R427). -/
def vaultLimit (density sp : Nat) : Nat := (333333 - 342 * tRfc density) * ctrlKHz sp / 640000000

/-- The set point that purses and admission use: the lower of the two while a change is pending (R427, R432). -/
def admitSp (d : Dram) : Nat := match d.spNext with | none => d.sp | some p => max d.sp p

/-- The refresh factor s (R424). -/
def refreshScale (s : State) : Nat := maxNat (s.plan.scale :: s.dram.channels.map DramCh.mr4)

/-! ### Parts of the state -/

def State.updDram (s : State) (f : Dram → Dram) : State := { s with dram := f s.dram }
def State.chAt (s : State) (c : Nat) : DramCh := s.dram.channels.getD c DramCh.reset
def State.updCh (s : State) (c : Nat) (f : DramCh → DramCh) : State :=
  s.updDram fun d => { d with channels := d.channels.modify c f }

/-- Raise a memory event with a class of its own (R439). -/
def raiseMem (code : Nat) (kind : StampKind) (stamp cls detail : Nat) (items : List Item) (s : State) : State :=
  raiseEvent { code := code, kind := kind, stamp := stamp, node := none, source := 0xF, cls := cls, detail := detail,
               items := items } s

/-! ### Data (R422, R423) -/

/-- Bytes of a transaction in memory. -/
def dramRead (d : Dram) (t : DramTx) : List Byte :=
  let a := t.place.group * 512 + t.off
  if t.place.vault then (d.vaults.getD t.ch []).bytes a t.bytes else d.normal.bytes a t.bytes

/-- Store the bytes of a transaction. -/
def dramStore (t : DramTx) (d : Dram) : Dram :=
  let a := t.place.group * 512 + t.off
  if t.place.vault then { d with vaults := d.vaults.modify t.ch fun m => m.putBytes a t.data }
  else { d with normal := d.normal.putBytes a t.data }

/-- Two transactions lie in one group of one channel. -/
def sameGroup (a b : DramTx) : Bool :=
  a.ch == b.ch && a.place.vault == b.place.vault && a.place.group == b.place.group

/-- Two transactions share a byte. -/
def overlaps (a b : DramTx) : Bool :=
  sameGroup a b && decide (a.off < b.off + b.bytes) && decide (b.off < a.off + a.bytes)

/-- Two transactions touch one 64-byte block. -/
def shareBlock (a b : DramTx) : Bool :=
  sameGroup a b && decide (a.off / 64 ≤ (b.off + b.bytes - 1) / 64) && decide (b.off / 64 ≤ (a.off + a.bytes - 1) / 64)

/-- Byte `o` of a transaction's group lies in a queued write. -/
def queuedByte (es : List DramTx) (t : DramTx) (o : Nat) : Bool :=
  es.any fun e => e.write && sameGroup e t && decide (e.off ≤ o) && decide (o < e.off + e.bytes)

/-- Every byte of a read lies in queued writes (R423). -/
def coveredByWrites (es : List DramTx) (t : DramTx) : Bool := (List.range t.bytes).all fun i => queuedByte es t (t.off + i)

/-- Record a completed transaction; the last 32 are kept. -/
def dramFinish (t : DramTx) (data : List Byte) (e : DramEnd) (d : Dram) : Dram :=
  { d with done := ({ num := t.num, req := t.req, data := data, end_ := e } :: d.done).take 32 }

/-! ### Command entries (R416) -/

/-- A copy-bound transaction takes one of the 32 kept entries while one is free; every other one, and a copy-bound one that
finds them taken, takes a shared entry within the limits of R416. DEDUCED, log 32. -/
def entryFor (es : List DramTx) (t : DramTx) : Option Bool :=
  let shared := es.filter DramTx.shared
  if t.bound && decide ((es.filter fun e => !e.shared).length < 32) then some false
  else if shared.length < 96 && decide ((shared.filter fun e => e.req == t.req).length < 16) &&
      (decide (t.req < 40) || decide (43 < t.req) ||
        decide ((shared.filter fun e => decide (40 ≤ e.req) && decide (e.req ≤ 43)).length < 8)) then some true
  else none

/-- A transaction enters: a write is visible from here, and cancels write-backs of its words (R410, R422); a read takes its
data here, and completes when queued writes hold all of it (R423); a failed channel returns zeros and drops writes (R436). -/
def enterTx (sh : Bool) (t : DramTx) (s : State) : State :=
  let words (p : Place × Nat) : Bool :=
    p.1 == t.place && decide (t.off / 8 ≤ p.2) && decide (p.2 ≤ (t.off + t.bytes - 1) / 8)
  if (s.chAt t.ch).failed then
    s.updDram (dramFinish t (if t.write then [] else List.replicate t.bytes 0#8) .good)
  else if t.write then
    let s := s.updCh t.ch fun c => { c with back := c.back.filter fun p => !words p }
    let s := if t.bound && t.place.vault then
        s.updDram fun d => { d with mirrored := d.mirrored.filter fun g => !(g == t.place.group) } else s
    s.updDram fun d => { dramStore t d with entries := d.entries ++ [{ t with shared := sh }] }
  else
    let t := { t with shared := sh, data := dramRead s.dram t }
    if coveredByWrites s.dram.entries t then s.updDram (dramFinish t t.data .good)
    else s.updDram fun d => { d with entries := d.entries ++ [t] }

/-- Transactions waiting in the ports take free entries, each port in order (R416). -/
def admitPorts (s : State) : State :=
  s.dram.ports.foldl (fun (s : State) (t : DramTx) =>
    if s.dram.ports.any fun p => p.req == t.req then s.updDram fun d => { d with ports := d.ports ++ [t] }
    else match entryFor s.dram.entries t with
      | some sh => enterTx sh t s
      | none => s.updDram fun d => { d with ports := d.ports ++ [t] }) (s.updDram fun d => { d with ports := [] })

/-- Split a range at group boundaries (R415): group, offset, bytes. -/
def splitGroups : Nat → Nat → Nat → List (Nat × Nat × Nat)
  | 0, _, _ => []
  | fuel + 1, a, n =>
    if n = 0 then []
    else
      let k := min n (512 - a % 512)
      (a / 512, a % 512, k) :: splitGroups fuel (a + k) (n - k)

/-- The space may be reached by the requester (R408): the vault by spokes, the tellers and the controller's own parts; the
window and BAR2 reach the normal space only. -/
def spaceReach (q : DramReq) : Bool :=
  match q.space with
  | .normal => true
  | _ => decide (q.requester ≤ 41)

/-- A request is whole and inside its space (R405, R415). -/
def dramReqOk (s : State) (q : DramReq) : Bool :=
  s.dram.ready && decide (q.requester ≤ 46) && decide (q.cls < 4) && decide (0 < q.bytes) && q.bytes % 4 == 0 &&
  q.addr % 4 == 0 && (!q.write || q.data.length == q.bytes) && spaceReach q &&
  (match q.space with
  | .normal => decide (q.addr + q.bytes ≤ normalBytes s)
  | .copyBound ch => decide (ch < 2) && decide (q.addr + q.bytes ≤ vaultBytes s)
  | .mirrored => decide (q.addr + q.bytes ≤ vaultBytes s))

/-- Channels and place of a part (R406, R407, R413): a mirrored write goes to both channels, and a mirrored read outside a
copy to channel 0 while it works. DESIGN CHOICE, log 32. -/
def partPlaces (s : State) (q : DramReq) (g : Nat) : List (Nat × Place) :=
  match q.space with
  | .normal => [normalPlace s.dram g]
  | .copyBound ch => [(ch, vaultPlace (dramRows s.dram) g)]
  | .mirrored =>
    let p := vaultPlace (dramRows s.dram) g
    if q.write then [(0, p), (1, p)] else [(if (s.chAt 0).failed then 1 else 0, p)]

/-- The phase of the frame from which spoke reads panic (R421). -/
def panicPhase : Nat := 6144

/-- A request is split, and takes entries or waits in the port (R415, R416). -/
def acceptReq (q : DramReq) (s : State) : State :=
  if !dramReqOk s q then s
  else
    let bound := match q.space with
      | .copyBound _ => true
      | _ => false
    let cls := match q.space with
      | .normal => q.cls
      | _ => 0
    let late := decide (q.requester < 40) && !q.write && decide (panicPhase ≤ s.clk.tally % frameTicks)
    let parts := splitGroups (q.bytes / 4 + 1) q.addr q.bytes
    let txs := parts.flatMap fun g =>
      (partPlaces s q g.1).map fun c =>
        { num := 0, req := q.requester, cls := cls, ch := c.1, place := c.2, off := g.2.1, bytes := g.2.2, write := q.write,
          data := if q.write then (q.data.drop (g.1 * 512 + g.2.1 - q.addr)).take g.2.2 else [], bound := bound,
          shared := false, at_ := s.clk.tally, panic := late, promoted := false,
          rmw := if q.write && !(g.2.1 % 8 == 0 && g.2.2 % 8 == 0) then 1 else 0 : DramTx }
    let n := s.dram.num
    let txs := txs.zipIdx.map fun t => { t.1 with num := n + t.2 }
    let groups := if q.write && q.space == .mirrored then parts.map (·.1) else []
    admitPorts (s.updDram fun d =>
      { d with num := n + txs.length, ports := d.ports ++ txs, mirrored := (groups ++ d.mirrored).eraseDups })

/-- DRAM_REQUEST_ACCEPT. -/
def execDramRequestAccept (q : DramReq) (s : State) : Host.Outcome State Fault Refusal := .next (acceptReq q s)

/-! ### Row disturbance (R429, R430): the controller's own activates are requester 46 -/

/-- The row group of a place: 64 consecutive rows of its space. DEDUCED, log 33. -/
def rowGroup (s : State) (p : Place) : Nat :=
  if p.vault then (p.row - (dramRows s.dram - s.boot.dramCfg.vaultRows)) / 64 else (p.row - 1) / 64

/-- First row of a row group. -/
def groupRow (s : State) (vault : Bool) (g : Nat) : Nat :=
  (if vault then dramRows s.dram - s.boot.dramCfg.vaultRows else 1) + 64 * g

/-- One activate in a bank's table (R429): the table and the entry it counts. -/
def hammerCount (vault : Bool) (g req : Nat) (t : List HammerEntry) : List HammerEntry × HammerEntry :=
  let fresh (c : Nat) : HammerEntry := { vault := vault, group := g, count := c, leader := req, votes := 1 }
  match t.findIdx? fun e => e.vault == vault && e.group == g with
  | some i =>
    let e := t.getD i (fresh 0)
    let e := if e.leader = req then { e with count := e.count + 1, votes := e.votes + 1 }
      else if e.votes = 0 then { e with count := e.count + 1, leader := req, votes := 1 }
      else { e with count := e.count + 1, votes := e.votes - 1 }
    (t.set i e, e)
  | none =>
    if t.length < 16 then (t ++ [fresh 1], fresh 1)
    else
      let low := (t.map HammerEntry.count).foldl min (t.headD (fresh 0)).count
      let i := (t.findIdx? fun e => e.count == low).getD 0
      (t.set i (fresh (low + 1)), fresh (low + 1))

/-- An activate of a place by a requester (R429 to R431). -/
def activate (ch : Nat) (p : Place) (req cls : Nat) (ordinary : Bool) (s : State) : State :=
  let g := rowGroup s p
  let x := hammerCount p.vault g req ((s.chAt ch).hammer.getD p.bank [])
  let now := s.clk.tally
  let s := s.updCh ch fun c =>
    { c with hammer := c.hammer.set p.bank x.1,
             skew := if ordinary then c.skew.modify p.bank (· + 1) else c.skew,
             throttled := c.throttled.map fun e => if e.1 = p.bank && e.2.1 = req then (e.1, e.2.1, now) else e }
  if x.2.count ≠ s.boot.dramCfg.hammer then s
  else
    let first := groupRow s p.vault g
    let rows := (List.range 66).filterMap fun i =>
      let r := first + i - 1
      if r < dramRows s.dram then some (p.vault, p.bank, r) else none
    let s := s.updCh ch fun c =>
      { c with heal := c.heal ++ rows,
               throttled := if c.throttled.any fun e => e.1 = p.bank && e.2.1 = x.2.leader then c.throttled
                            else (p.bank, x.2.leader, now) :: c.throttled }
    raiseMem 0x8004 .detect now cls (x.2.leader * 256 + ch * 16 + p.bank) [{ tag := 0x00C1, vals := [wd first] }] s

/-- A throttled requester waits until 1 µs has passed since its last activate in the bank (R430). -/
def throttledNow (s : State) (t : DramTx) : Bool :=
  (s.chAt t.ch).throttled.any fun e =>
    e.1 == t.place.bank && e.2.1 == t.req && decide ((s.clk.tally - e.2.2) * 1000 < 24576)

/-! ### ECC (R410, R414, R436) -/

/-- Hits of the last 3000 frames. -/
def recent (now : Nat) (l : List Nat) : List Nat := l.filter fun t => decide (now < t + frames 3000)

/-- A corrected word (R410, R439). -/
def eccCorrected (ch : Nat) (p : Place) (word cls : Nat) (s : State) : State :=
  let now := s.clk.tally
  let s := s.updDram fun d => { d with ce := sat16 (d.ce + 1) }
  let s := { s with ledg := { s.ledg with ce := s.ledg.ce + 1 } }
  let hits := now :: recent now (s.chAt ch).ceHits
  let due := match (s.chAt ch).ceRaised with
    | none => true
    | some t => decide (t + frames 3000 ≤ now)
  let s := s.updCh ch fun c =>
    { c with ceHits := hits, back := c.back ++ [(p, word)], ceRaised := if due then some now else c.ceRaised }
  if due then
    raiseMem 0x8001 .detect now cls (sat16 hits.length) [{ tag := 0x00C0, vals := [eccLoc ch p word ||| 1#32] }] s
  else s

/-- An uncorrectable word (R410, R436). -/
def eccUncorrected (ch : Nat) (p : Place) (word req cls : Nat) (s : State) : State :=
  let now := s.clk.tally
  let s := s.updDram fun d => { d with ue := sat16 (d.ue + 1), loc := eccLoc ch p word, locValid := true }
  let s := { s with ledg := { s.ledg with ue := s.ledg.ue + 1 } }
  let hits := now :: recent now (s.chAt ch).ueHits
  let given := decide (s.boot.dramCfg.ueLimit < hits.length)
  let s := s.updCh ch fun c =>
    { c with ueHits := hits, failing := if given && c.failing.isNone then some 3 else c.failing }
  raiseMem 0x8002 .detect now cls req [{ tag := 0x00C0, vals := [eccLoc ch p word ||| 1#32] }] s

/-- The word of a mirrored store reads good from the other channel (R414): the store is mirrored, the other channel works, and
the word is found bad once only. A second finding of the word is the other channel's. -/
def mirrorGood (s : State) (t : DramTx) (errs : List EccObs) (word : Nat) : Bool :=
  t.place.vault && s.dram.mirrored.contains t.place.group && !(s.chAt (1 - t.ch)).failed &&
  (errs.filter fun e => e.word == word && e.double).length == 1

/-- Zero the bytes of a word in data that begin at byte `off` of the group. -/
def zeroWord (off word : Nat) (l : List Byte) : List Byte :=
  l.zipIdx.map fun b => if (off + b.2) / 8 = word then 0#8 else b.1

/-- The findings in the words a transaction reads, one by one: the state, the data, and whether a word was lost. -/
def eccScan (t : DramTx) (errs : List EccObs) (s : State) : State × List Byte × Bool :=
  let seen := (errs.filter fun e => decide (e.word < 64)).eraseDups
  seen.foldl (fun (x : State × List Byte × Bool) (e : EccObs) =>
    if !e.double then (eccCorrected t.ch t.place e.word t.cls x.1, x.2)
    else if mirrorGood x.1 t errs e.word then
      let due := x.1.clk.tally + 24576
      (x.1.updCh t.ch fun c => { c with repair := c.repair ++ [(t.place, e.word, due)] }, x.2)
    else (eccUncorrected t.ch t.place e.word t.req t.cls x.1, zeroWord t.off e.word x.2.1, true)) (s, t.data, false)

/-- The findings that concern a transaction: words it reads, or the whole group when it is read to be merged (R411). -/
def eccFor (t : DramTx) (errs : List EccObs) : List EccObs :=
  if t.rmw = 1 then errs
  else if t.write then []
  else errs.filter fun e => decide (t.off / 8 ≤ e.word) && decide (e.word ≤ (t.off + t.bytes - 1) / 8)

/-- The bytes of an uncorrectable word that a merge writes back as zero: those no queued write holds (R410, R411). -/
def zeroMerged (t : DramTx) (words : List Nat) (s : State) : State :=
  let bytes := words.flatMap fun w => (List.range 8).filterMap fun i =>
    if queuedByte s.dram.entries t (8 * w + i) then none else some (8 * w + i)
  s.updDram fun d => bytes.foldl (fun d o => dramStore { t with off := o, bytes := 1, data := [0#8] } d) d

/-! ### Slots (R417 to R420, R425) -/

/-- The class has used up its credit of the frame: DRAM_RATE / 3 bytes (R420). -/
def overPurse (s : State) (cls : Nat) : Bool := decide (pN s (.cls cls) 0x103 / 3 ≤ s.dram.used.getD cls 0)

/-- The recorder's staging buffer is more than three-quarters full (R421): 8 MB for each of its rings (R529). -/
def recorderFull (s : State) : Bool := s.recs.any fun r => decide (3 * 8388608 < r.recs.length * 80 * 4)

/-- A transaction panics (R421). -/
def panics (s : State) (t : DramTx) : Bool := t.panic || (t.req == 44 && recorderFull s)

/-- Rank of R419 with R420 and R421, and 1 when it does not panic. A promoted request has the VOICE rank, over purse or not
(DEDUCED, log 32). -/
def dramRank (s : State) (t : DramTx) : Nat × Nat :=
  let p := panics s t
  let base := t.cls + 1
  let r := if t.promoted then min base 2
    else if overPurse s t.cls then 5
    else if p && decide (3 ≤ base) then base - 1 else base
  (r, if p then 0 else 1)

/-- Nothing older or half done stands in the way (R411, R422, R423). -/
def mayIssue (es : List DramTx) (t : DramTx) : Bool :=
  es.all fun e =>
    e.num == t.num ||
    (!(e.rmw == 2 && sameGroup e t) &&
      (decide (t.num < e.num) || !((e.write && !t.write && overlaps e t) || (e.req == t.req && shareBlock e t))))

/-- The bank an ordinary slot must leave alone: its reserved slot is one of the next two (R418). -/
def heldBank (slot : Nat) : Option Nat := if slot % 4 = 1 || slot % 4 = 2 then some (slot / 4) else none

/-- The transaction of a reserved slot: the oldest copy-bound one for its bank (R418). -/
def pickReserved (s : State) (ch slot : Nat) : Option DramTx :=
  if slot % 4 ≠ 3 then none
  else s.dram.entries.find? fun t => t.bound && t.ch == ch && t.place.bank == slot / 4 && mayIssue s.dram.entries t

/-- The transaction of an ordinary slot (R419). -/
def pickOrdinary (s : State) (ch slot : Nat) : Option DramTx :=
  let es := s.dram.entries.filter fun t =>
    !t.bound && t.ch == ch && heldBank slot != some t.place.bank && !throttledNow s t && mayIssue s.dram.entries t
  es.foldl (fun b t => match b with
    | none => some t
    | some u =>
      let a := dramRank s t
      let c := dramRank s u
      if a.1 < c.1 || (a.1 = c.1 && a.2 < c.2) then some t else b) none

/-- Issue a transaction in a slot: activate, meter, check, complete (R410, R411, R415, R420). -/
def issueTx (t : DramTx) (ordinary : Bool) (errs : List EccObs) (s : State) : State :=
  let s := activate t.ch t.place t.req t.cls ordinary s
  let s := if t.rmw = 2 then s else s.updDram fun d => { d with used := d.used.modify t.cls (· + t.bytes) }
  let x := eccScan t (eccFor t errs) s
  let s := x.1
  if t.rmw = 1 then
    let lost := (errs.filter fun e => e.double && decide (e.word < 64) && !mirrorGood s t errs e.word).map EccObs.word
    let s := zeroMerged t lost s
    s.updDram fun d => { d with entries := d.entries.map fun e => if e.num = t.num then { e with rmw := 2 } else e }
  else
    let e : DramEnd := if !x.2.2 || t.write then .good
      else if t.req = 40 || t.req = 41 then .error
      else if t.req = 42 || t.req = 43 then .poisoned else .good
    let s := s.updDram fun d => { d with entries := d.entries.filter fun e => !(e.num == t.num) }
    admitPorts (s.updDram (dramFinish t (if t.write then [] else x.2.1) e))

/-- One REFab (R425): the owed count falls, and delays waiting for a refresh are taken over (R433). -/
def refresh (ch : Nat) (s : State) : State :=
  s.updCh ch fun c => { c with owed := c.owed - 1, delay := c.delayNext.getD c.delay, delayNext := none }

/-- A forced refresh (R425): counted, and the event at most once in 3000 frames. -/
def forcedRefresh (ch : Nat) (s : State) : State :=
  let s := (refresh ch s).updCh ch fun c => { c with forced := (c.forced + 1) % 65536 }
  raiseLimited 0x8006 .detect s.clk.tally none 1 [] s

/-- Groups of both spaces in one channel (R412). -/
def scrubGroups (s : State) : Nat := 56 * (normalRows s + s.boot.dramCfg.vaultRows)

/-- Place of the `i`th group of a channel in scrub order: the normal space, then the vault. -/
def scrubPlace (s : State) (ch i : Nat) : Place :=
  if i < 56 * normalRows s then
    match soleChannel s.dram with
    | some _ => placeOf i i
    | none => placeOf i (if groupChannel (2 * i) = ch then 2 * i else 2 * i + 1)
  else vaultPlace (dramRows s.dram) (i - 56 * normalRows s)

/-- A group is due for the patrol scrub: the groups are spread evenly over SCRUB_PERIOD. DESIGN CHOICE, log 34. -/
def scrubDue (s : State) (c : DramCh) : Bool :=
  decide (c.scrubbed * s.boot.dramCfg.scrub * 24576000 ≤ (s.clk.tally - c.scrubAt) * scrubGroups s)

/-- Scrub the next group (R412). -/
def scrubGroup (ch : Nat) (errs : List EccObs) (s : State) : State :=
  let p := scrubPlace s ch (s.chAt ch).scrubbed
  let t : DramTx :=
    { num := 0, req := 46, cls := if p.vault then 0 else 1, ch := ch, place := p, off := 0, bytes := 512, write := false,
      data := [], bound := false, shared := false, at_ := s.clk.tally, panic := false, promoted := false, rmw := 0 }
  let s := (eccScan t errs (activate ch p 46 t.cls true s)).1
  let last := decide (scrubGroups s ≤ (s.chAt ch).scrubbed + 1)
  let now := s.clk.tally
  s.updCh ch fun c =>
    { c with scrubbed := if last then 0 else c.scrubbed + 1, scrubAt := if last then now else c.scrubAt }

/-- A slot that no request claims: a write-back of R410, a row of R430, the training row of R434, a voluntary refresh of
R425, or a scrub of R412, in this order. DESIGN CHOICE (the spec orders none of them), log 34. -/
def unclaimedSlot (ch slot : Nat) (errs : List EccObs) (s : State) : State :=
  let c := s.chAt ch
  let free (bank : Nat) : Bool := heldBank slot != some bank
  match c.back.find? fun p => free p.1.bank with
  | some p => activate ch p.1 46 (if p.1.vault then 0 else 1) true (s.updCh ch fun c => { c with back := c.back.erase p })
  | none =>
    match c.heal.find? fun r => free r.2.1 with
    | some r =>
      let s := s.updCh ch fun c => { c with heal := c.heal.erase r }
      if r.2.2 = 0 then s.updCh ch fun c => { c with skew := c.skew.modify r.2.1 (· + 1) }
      else
        let v := decide (dramRows s.dram - s.boot.dramCfg.vaultRows ≤ r.2.2)
        activate ch { vault := v, bank := r.2.1, row := r.2.2, slot := 0, group := 0 } 46 (if v then 0 else 1) true s
    | none =>
      if c.gather.isSome && !c.trained then s.updCh ch fun c => { c with trained := true }
      else if !(s.dram.entries.any fun t => t.ch == ch) && decide (-8 < c.owed) then refresh ch s
      else if scrubDue s c && free (scrubPlace s ch c.scrubbed).bank then scrubGroup ch errs s
      else s

/-- DRAM_SLOT (R417): a forced refresh suspends the rotation; else the slot that is next runs. -/
def execDramSlot (ch : Nat) (errs : List EccObs) (s : State) : Host.Outcome State Fault Refusal :=
  let c := s.chAt ch
  if 2 ≤ ch || !s.dram.ready || c.failed then .next s
  else if 8 ≤ c.owed then .next (forcedRefresh ch s)
  else
    let slot := c.slot
    let s := s.updCh ch fun c =>
      { c with slot := (slot + 1) % 32, trained := if slot = 31 then false else c.trained }
    match pickReserved s ch slot with
    | some t => .next (issueTx t false errs s)
    | none =>
      match pickOrdinary s ch slot with
      | some t => .next (issueTx t true errs s)
      | none => .next (unclaimedSlot ch slot errs s)

/-- VAULT_REPAIRED (R414): the oldest mirrored word waiting on the channel is written back. -/
def execVaultRepaired (ch : Nat) (s : State) : Host.Outcome State Fault Refusal :=
  match (s.chAt ch).repair with
  | [] => .next s
  | (p, word, _) :: rest =>
    let s := s.updCh ch fun c => { c with repair := rest }
    let data := (s.dram.vaults.getD (1 - ch) []).bytes (p.group * 512 + 8 * word) 8
    let s := s.updDram fun d =>
      { d with vaults := d.vaults.modify ch fun m => m.putBytes (p.group * 512 + 8 * word) data }
    .next (raiseMem 0x8003 .detect s.clk.tally 0 ch [{ tag := 0x00C0, vals := [eccLoc ch p word ||| 1#32] }] s)

/-- REFRESH_INTERVAL (R424, R425). -/
def execRefreshInterval (ch : Nat) (s : State) : Host.Outcome State Fault Refusal :=
  if 2 ≤ ch || !s.dram.ready then .next s else .next (s.updCh ch fun c => { c with owed := min 8 (c.owed + 1) })

/-- READ_PANIC (R421): from 6144 ticks into the frame, a spoke's outstanding reads panic. -/
def execReadPanic (sp : Nat) (s : State) : Host.Outcome State Fault Refusal :=
  if sp < 40 && panicPhase ≤ s.clk.tally % frameTicks then
    let mark (t : DramTx) : DramTx := if t.req = sp && !t.write then { t with panic := true } else t
    .next (s.updDram fun d => { d with entries := d.entries.map mark, ports := d.ports.map mark })
  else .next s

/-- AGE_PROMOTION (R421): transaction `i`, MEDIA or BULK, has waited 20 µs. -/
def execAgePromotion (i : Nat) (s : State) : Host.Outcome State Fault Refusal :=
  let now := s.clk.tally
  let mark (t : DramTx) : DramTx :=
    if t.num = i && 2 ≤ t.cls && 20 * 24576 ≤ (now - t.at_) * 1000 then { t with promoted := true } else t
  .next (s.updDram fun d => { d with entries := d.entries.map mark })

/-- MR4_POLL (R424). -/
def execMr4Poll (ch factor : Nat) (s : State) : Host.Outcome State Fault Refusal :=
  if ch < 2 && (factor = 1 || factor = 2 || factor = 4) then .next (s.updCh ch fun c => { c with mr4 := factor })
  else .next s

/-- DQS_OSC_TRACK (R433): the delays follow in the next refresh. -/
def execDqsOscTrack (ch delay : Nat) (s : State) : Host.Outcome State Fault Refusal :=
  if ch < 2 then .next (s.updCh ch fun c => { c with delayNext := some delay }) else .next s

/-- RETRAIN_START (R434, R435): the period has passed and no set-point change is pending. -/
def execRetrainStart (ch : Nat) (s : State) : Host.Outcome State Fault Refusal :=
  let c := s.chAt ch
  let now := s.clk.tally
  if ch < 2 && s.dram.ready && !c.failed && c.gather.isNone && s.dram.spNext.isNone &&
      c.passAt + s.plan.retrain * 24576000 ≤ now then
    .next (s.updCh ch fun c => { c with gather := some now, passAt := now })
  else .next s

/-- RETRAIN_DONE (R434 to R436): after 64 frames, in the first refresh, the delays and eye widths of the set point are taken. -/
def execRetrainDone (ch : Nat) (eyes : List Nat) (s : State) : Host.Outcome State Fault Refusal :=
  match (s.chAt ch).gather with
  | none => .next s
  | some t =>
    if s.clk.tally < t + frames 64 || eyes.length ≠ 4 then .next s
    else
      let sp := s.dram.sp
      let s := s.updCh ch fun c =>
        { c with gather := none, eyes := (sp, eyes) :: c.eyes.filter fun e => !(e.1 == sp),
                 failing := if eyes.contains 0 && c.failing.isNone then some 4 else c.failing }
      .next (raiseMem 0x8008 .detect s.clk.tally 1 (sp * 256 + ch) [{ tag := 0x00C2, vals := eyes.map wd }] s)

/-- HAMMER_WINDOW_CLEAR (R429, R430): every table is cleared, and every throttle ends. -/
def execHammerWindowClear (s : State) : Host.Outcome State Fault Refusal :=
  .next (s.updDram fun d =>
    { d with channels := d.channels.map fun c => { c with hammer := List.replicate 8 [], throttled := [] } })

/-- BANK_SKEW_WINDOW (R431). -/
def execBankSkewWindow (ch : Nat) (s : State) : Host.Outcome State Fault Refusal :=
  let c := s.chAt ch
  if 2 ≤ ch || s.clk.tally < c.skewAt + frames 3000 then .next s
  else
    let total := sumNat c.skew
    let top := maxNat c.skew
    let skewed := decide (total < 4 * top)
    let run := if skewed then c.skewRun + 1 else 0
    let bank := (c.skew.findIdx? fun n => n == top).getD 0
    let now := s.clk.tally
    let s := s.updCh ch fun c =>
      { c with skew := List.replicate 8 0, skewAt := now, skewRun := if run = 3600 then 0 else run }
    if run = 3600 then
      .next (raiseMem 0x8005 .detect now 1 (ch * 16 + bank) [{ tag := 0x00C1, vals := [wd (top * 1000 / total)] }] s)
    else .next s

/-- A pending set-point change is ready to be made: no pass gathers (R432, R435). -/
def setpointReady (s : State) : Bool := s.dram.spNext.isSome && !(s.dram.channels.any fun c => c.gather.isSome)

/-- SETPOINT_CHANGED (R432): at a frame boundary the change is made. -/
def execSetpointChanged (s : State) : Host.Outcome State Fault Refusal :=
  match s.dram.spNext with
  | none => .next s
  | some p =>
    if !atFrame s || !setpointReady s then .next s
    else
      let s := s.updDram fun d => { d with sp := p, spNext := none }
      .next (raiseMem 0x8007 .boundary s.clk.tally 1 p [] s)

/-- Reset of a requester (R437): its reads are dropped; writes accepted and merges begun complete. -/
def dropReads (req : Nat) (s : State) : State :=
  admitPorts (s.updDram fun d =>
    { d with entries := d.entries.filter fun t => !(t.req == req && !t.write),
             ports := d.ports.filter fun t => !(t.req == req) })

/-- The credits restart (R420). -/
def creditRestart (s : State) : State := s.updDram fun d => { d with used := [0, 0, 0, 0] }

/-! ### Registers (12, "Memory registers") -/

/-- DDR_STATUS. -/
def ddrStatus (s : State) : Word :=
  let c0 := s.chAt 0
  let c1 := s.chAt 1
  let sc := refreshScale s
  wd (c1.owed.toNat * 2 ^ 24 + c0.owed.toNat * 2 ^ 20 + (if sc = 1 then 0 else if sc = 2 then 1 else 2) * 2 ^ 16 +
    s.dram.sp * 2 ^ 12 + b2n (c0.gather.isSome || c1.gather.isSome) * 128 + b2n s.dram.spNext.isSome * 64 +
    b2n c1.failed * 8 + b2n c0.failed * 4 + b2n s.dram.ready)

/-- Read a DDR register by indirect address, with its read effect; none where nothing decodes. -/
def ddrRead (a : Nat) (s : State) : Option (Word × State) :=
  if a = 0x02000000 then some (ddrStatus s, s)
  else if a = 0x02000010 then
    some (wd (s.dram.ue * 65536 + s.dram.ce), s.updDram fun d => { d with ce := 0, ue := 0 })
  else if a = 0x02000014 then
    some (if s.dram.locValid then s.dram.loc ||| 1#32 else s.dram.loc, s.updDram fun d => { d with locValid := false })
  else if a = 0x02000018 then some (wd ((s.chAt 1).forced * 65536 + (s.chAt 0).forced), s)
  else none

end Sys2Proof.Machine
end

