-- ==== Sys2Proof/Machine/Request.lean ====
section
/-! DEFINITION. What the opcodes share: handles named by requests, the class rule of R32, replies (R43, R52) and the items of
a request (R44). -/

namespace Sys2Proof.Machine

/-- What an opcode answers: status, DETAIL, a handle of its own, items, and what takes effect with the response. -/
structure Reply where
  status : Nat
  detail : Nat
  handle : Option Word
  items  : List Item
  after  : After
deriving DecidableEq, Repr

/-- Status OK with items. -/
def Reply.ok (is : List Item) : Reply := { status := 0, detail := 0, handle := none, items := is, after := .none }

/-- A status other than OK: no items (R52). -/
def Reply.fail (status detail : Nat) : Reply :=
  { status := status, detail := detail, handle := none, items := [], after := .none }

/-- Status codes of R52. -/
def stFormat : Nat := 2
def stBadHandle : Nat := 0xB
def stBadPath : Nat := 0xC
def stType : Nat := 0xD
def stRange : Nat := 0xE
def stClass : Nat := 0xF
def stEscrowFull : Nat := 0x10
def stAdmission : Nat := 0x11
def stTooLong : Nat := 0x12
def stTellerBusy : Nat := 0x13
def stNetSize : Nat := 0x14
def stInProgress : Nat := 0x15
def stInternal : Nat := 0x16

/-- The node a valid handle names (R71). -/
def refOfHandle (s : State) (w : Word) : Option Ref :=
  (s.fw.handles.find? fun h => h.live && h.word == w).map HandleRec.ref

/-- The node a valid handle names when it is no parameter node. -/
def nodeOfHandle (s : State) (w : Word) : Option Node :=
  match refOfHandle s w with
  | some r => if r.tag.isNone then some r.node else none
  | none => none

/-- R32: an ALARM object from MB0 and MMB only, an object of another class from every mailbox but MB0, and one without a
class from every mailbox. -/
def permits (cls : Option Nat) (mb : Nat) : Bool :=
  match cls with
  | none => true
  | some 0 => mb == 0 || mb == 10
  | some _ => mb != 0

/-- The items that are no padding, with their index (R44). -/
def realItems (is : List Item) : List (Nat × Item) :=
  (is.zipIdx.map fun p => (p.2, p.1)).filter fun p => p.2.tag != 0

/-- Index of the first item, padding apart, that the wanted list does not match, or the number of items carried when one is
missing; none when the items are as wanted. Each wanted item is a tag with a test of VLEN. -/
def itemsBad (is : List Item) : List (Nat × (Nat → Bool)) → List (Nat × Item) → Option Nat
  | [], [] => none
  | [], (i, _) :: _ => some i
  | _ :: _, [] => some is.length
  | (t, ok) :: ws, (i, it) :: rest => if it.tag = t && ok it.vals.length then itemsBad is ws rest else some i

/-- Words of a response of these items (R43). -/
def replyWords (is : List Item) : Nat := 4 + (itemWords is).length

/-- The mailbox is a network mailbox (R31). -/
def isNmb (mb : Nat) : Bool := mb == 8 || mb == 9

end Sys2Proof.Machine
end

