-- ==== Sys2Proof/Machine/Feed.lean ====
section
/-! DEFINITION. Feeds (05): the five stages of a feed's path, bank loads, bank swaps and the till. -/

namespace Sys2Proof.Machine

/-! ### Access -/

def State.feedAt (s : State) (f : Nat) : Option Feed := s.feeds.find? fun x => x.n == f
def State.updFeed (s : State) (f : Nat) (g : Feed → Feed) : State :=
  { s with feeds := s.feeds.map fun x => if x.n == f then g x else x }

/-- The bank record of a feed, when it is not EMPTY. -/
def State.bankAt (s : State) (f b : Nat) : Option Bank := s.fw.banks.find? fun x => x.feed == f && x.bank == b
def State.setBank (s : State) (b : Bank) : State :=
  { s with fw := { s.fw with banks := b :: s.fw.banks.filter fun x => !(x.feed == b.feed && x.bank == b.bank) } }
def State.dropBank (s : State) (f b : Nat) : State :=
  { s with fw := { s.fw with banks := s.fw.banks.filter fun x => !(x.feed == f && x.bank == b) } }

/-- The unit impulse that the admission puts into bank A (R161). -/
def impulseBank (f tally : Nat) : Bank :=
  { feed := f, bank := 0, state := 3, total := 1, shift := 1, taps := [0x40000000], crc := crc32Words [0x40000000#32],
    readyAt := tally, mb := 0xF, lastAt := 0 }

/-! ### Tier counts and charges (R165, R171, R172) -/

def pMid (tapsMax : Nat) : Nat := (min tapsMax 1024 - 64) / 64
def pTail (tapsMax : Nat) : Nat := if tapsMax > 1024 then (tapsMax - 1024) / 1024 else 0

/-- Middle and tail terms of a period (R171). -/
def midCycles (p : Nat) : Nat := if p = 0 then 0 else 65 * p + 760
def tailCycles (p : Nat) : Nat := if p = 0 then 0 else 1025 * p + 14336

/-- C(m) of a feed at phase `p`, single computation; a shed tail releases its term (R171, R190). -/
def feedCycles (tapsMax : Nat) (shed : Bool) (f p : Nat) : Nat :=
  872 + (if p % 4 = f % 4 then midCycles (pMid tapsMax) else 0) +
    (if p % 64 = f % 64 && !shed then tailCycles (pTail tapsMax) else 0)

/-- CYCLES of R171, rounded up, in 1/64 steps. -/
def feedCyclesMean (tapsMax : Nat) : Nat :=
  872 + ceilDiv (16 * midCycles (pMid tapsMax) + tailCycles (pTail tapsMax)) 64
def feedHub (tapsMax : Nat) : Nat := 256 + 1040 * pMid tapsMax
def feedDram (tapsMax alignMax : Nat) (shed : Bool) : Nat :=
  ceilDiv (76875 * (if shed then 0 else pTail tapsMax)) 100 + (if alignMax > 0 then 576 else 0)

/-- A till lane of a pool whose largest TAPS_MAX is given (R183). -/
def laneCycles (tapsMax : Nat) : Nat := 256 + midCycles (pMid tapsMax) + tailCycles (pTail tapsMax)
def laneHub (tapsMax : Nat) : Nat := 256 + 520 * pMid tapsMax
def laneDram (tapsMax : Nat) : Nat := ceilDiv (384375 * pTail tapsMax) 1000

/-! ### The stages (R157 to R166, R186, R189) -/

/-- Samples of a stage, each with whether any reduction of its sample has saturated so far (R159). -/
abbrev Sig := List (Int × Bool)

/-- Trim and polarity: one product, one reduction (R162). -/
def stageTrim (r : Ramp) (x : Sig) : Sig :=
  (x.zip r.frame).map fun p => let y := reduce (p.1.1 * p.2) 27; (y.1, p.1.2 || y.2)

/-- History after 16 samples, newest first. -/
def pushAll (x : List Int) (h : List Int) (keep : Nat) : List Int := (x.reverse ++ h).take keep

/-- Sample `k` of the frame delayed by `d`, from the history after the frame. -/
def delayed (h : List Int) (k d : Nat) : Int := h.getD (15 - k + d) 0

/-- Σ h[j] · x[n − j] (R166). -/
def convSum : List Int → List Int → Int
  | [], _ => 0
  | _, [] => 0
  | h :: hs, x :: xs => h * x + convSum hs xs

/-- A correction filter's sample from its taps, SHIFT and input history: bit-exact up to 64 taps, else the tiers (R166, R167). -/
def corrSample (taps : List Int) (shift : Nat) (hist : List Int) : Int × Bool :=
  if taps.length ≤ 64 then reduce (convSum taps hist * 2 ^ shift) 31
  else (Config.tierOutput taps shift hist, false)

/-- Weight of the tail in 1024ths of full: fading out over 16 frames, in over 64 frames, sample `k` (R190, R191). -/
def tailWeight (t : Tail) (k : Nat) : Nat :=
  if t.shed then (if t.out ≥ 16 then 0 else 4 * (256 - (16 * t.out + k + 1)))
  else if t.in_ ≥ 64 then 1024 else 16 * t.in_ + k + 1

/-- The correction filter with its tail (R165, R190, R191): the tail is heard with its weight, from the samples its line holds. -/
def corrWithTail (t : Tail) (b : Option Bank) (hist : List Int) (k : Nat) : Int × Bool :=
  match b with
  | none => (0, false)
  | some b =>
    let w := tailWeight t k
    let full := corrSample b.taps b.shift (hist.take (if t.have_ ≥ 16384 then 16384 else max 1024 t.have_))
    if b.taps.length ≤ 1024 || w ≥ 1024 then full
    else
      let part := corrSample (b.taps.take 1024) b.shift hist
      (sat31 (divHalfUp (part.1 * (1024 - w : Nat) + full.1 * (w : Nat)) 1024), part.2 || full.2)

/-- One sample through sections in ascending order (R186). -/
def sectionsStep : List Coefs → List Biquad → Int → List Biquad × Int × Bool
  | [], _, x => ([], x, false)
  | c :: cs, st, x =>
    let b := st.headD Biquad.zero
    let r := if c = Coefs.off then (b, x, false) else b.step c x
    let q := sectionsStep cs (st.tail) r.2.1
    (r.1 :: q.1, q.2.1, r.2.2 || q.2.2)

/-- Samples through sections. -/
def sectionsRun (cs : List Coefs) : List Biquad → List Int → List Biquad × Sig
  | st, [] => (st, [])
  | st, x :: xs =>
    let r := sectionsStep cs st x
    let q := sectionsRun cs r.1 xs
    (q.1, (r.2.1, r.2.2) :: q.2)

/-- Samples through a fading bank of sections: state of the old and the new bank, and the mix (R179, R188). -/
def stageSections (f : Fade (List Coefs)) (old new : List Biquad) (x : Sig) : List Biquad × List Biquad × Sig :=
  let xs := x.map (·.1)
  let n := sectionsRun f.new new xs
  if f.running then
    let o := sectionsRun f.old old xs
    (o.1, n.1, ((o.2.zip n.2).zipIdx.map fun p =>
      (mixAt f.len (f.pos + p.2) p.1.1.1 p.1.2.1, p.1.1.2 || p.1.2.2)).zip x |>.map fun q => (q.1.1, q.1.2 || q.2.2))
  else (old, n.1, (n.2.zip x).map fun q => (q.1.1, q.1.2 || q.2.2))

/-- A stage with its bypass: the mix of its input and its output (R78). -/
def withBypass (f : Fade Nat) (dry wet : Sig) : Sig :=
  (dry.zip wet).zipIdx.map fun p =>
    (f.mix p.2 (fun b => if b = 1 then p.1.1.1 else p.1.2.1), p.1.1.2 || p.1.2.2)

/-- The limiter over samples: gain, its smallest value, and the clamped output (R189). -/
def limiterRun (th : Int) (att rel : Nat) : Nat → Nat → List Int → Nat × Nat × List Int
  | g, mn, [] => (g, mn, [])
  | g, mn, x :: xs =>
    let g' := min (Config.limGain th att rel g x) (2 ^ 30)
    let t := (Config.limCeiling th : Int)
    let y := max (-t) (min t (rhu (g' * x) 30))
    let r := limiterRun th att rel g' (min mn g') xs
    (r.1, r.2.1, y :: r.2.2)

/-- One frame of a feed up to its limiter: the state it leaves and the signal at the insert point (R157, R245). -/
def feedFront (s : State) (fd : Feed) (x : Sig) : Feed × Sig :=
  let f := fd.n
  let amax := pN s (.feed f) 0x105
  let raw := pushAll (x.map (·.1)) fd.raw (amax + 32)
  let t := stageTrim fd.trim x
  let line := pushAll (t.map (·.1)) fd.line (amax + 32)
  let a : Sig := t.zipIdx.map fun p => (fd.align.mix p.2 (delayed line p.2), p.1.2)
  let xs := pushAll (a.map (·.1)) fd.xs 16400
  let bank (b k : Nat) : Int × Bool := corrWithTail fd.tail (s.bankAt f b) (xs.drop (15 - k)) k
  let c : Sig := a.zipIdx.map fun p =>
    (fd.corr.mix p.2 (fun b => (bank b p.2).1),
     p.1.2 || (bank fd.corr.new p.2).2 || (fd.corr.running && (bank fd.corr.old p.2).2))
  let c := withBypass fd.corrByp a c
  let e := stageSections fd.eq fd.eqOld fd.eqNew c
  let e2 := withBypass fd.eqByp c e.2.2
  ({ fd with raw := raw, line := line, xs := xs, eqOld := e.1, eqNew := e.2.1 }, e2)

/-- The limiter, the feed's bypass and the ramps moved on by one frame; CLIPS and the number of clipped samples (R159, R189). -/
def feedBack (s : State) (fd : Feed) (x : Sig) : Feed × List Int × Nat :=
  let f := fd.n
  let l := limiterRun (pZ s (.limit f) 0x101) (pN s (.limit f) 0x102) (pN s (.limit f) 0x103) fd.lim (2 ^ 30) (x.map (·.1))
  let y := withBypass fd.limByp x ((l.2.2.zip x).map fun p => (p.1, p.2.2))
  let out := y.zipIdx.map fun p =>
    fd.byp.mix p.2 (fun b => if b = 1 then fd.align.mix p.2 (delayed fd.raw p.2) else p.1.1)
  let clipped := (x.filter (·.2)).length
  let tl := fd.tail
  ({ fd with
      lim := l.1, limMin := l.2.1, clips := satAdd32 fd.clips clipped,
      trim := fd.trim.advance, byp := fd.byp.advance, corrByp := fd.corrByp.advance, eqByp := fd.eqByp.advance,
      limByp := fd.limByp.advance, align := fd.align.advance, corr := fd.corr.advance, eq := fd.eq.advance,
      tail := { tl with out := if tl.shed then min (tl.out + 1) 16 else 0,
                        in_ := if tl.shed then tl.in_ else min (tl.in_ + 1) 64,
                        have_ := min (tl.have_ + 16) 16384 } }, out, clipped)

/-! ### Swaps (R178 to R182) and the till (R183 to R185) -/

/-- XFADE of a member, in frames. -/
def xfadeOf (s : State) (n : Node) (tag : Nat) : Nat := framesOfMs (pN s n tag)

/-- A feed's pool: ALARM lanes or general lanes (R183), and the lanes of a pool. -/
def alarmPool (s : State) (f : Nat) : Bool := classOf s (.feed f) == some 0
def poolLanes (s : State) (alarm : Bool) : Nat := pN s .till (if alarm then 0x102 else 0x101)
def poolBusy (s : State) (alarm : Bool) : Nat :=
  (s.feeds.filter fun x => x.lane.isSome && alarmPool s x.n == alarm).length
def poolWaiting (s : State) (alarm : Bool) : Nat := (s.till.waiting.filter fun w => alarmPool s w.2 == alarm).length
def laneFree (s : State) (f : Nat) : Bool := decide (poolBusy s (alarmPool s f) < poolLanes s (alarmPool s f))

/-- A bank is READY. -/
def bankReady (s : State) (f b : Nat) : Bool := ((s.bankAt f b).map fun x => x.state == 3).getD false

/-- A bank is audible: resident, or either bank of a running fade (R178). -/
def audible (fd : Feed) (b : Nat) : Bool := b == fd.corr.new || (fd.corr.running && b == fd.corr.old)

/-- The armed requests for a feed's ACTIVE whose reservation has come, boundary and bank (R184): at the arming, or at B − 16 384 ticks
if that is later. -/
def dueSwaps (s : State) (f : Nat) : List (Nat × Nat) :=
  s.armed.filterMap fun a =>
    if s.clk.tally + 16384 < a.at_ then none
    else (findVal a.writes (.corr f) 0x101).map fun v => (a.at_, (v.headD 0#32).toNat)

/-- The requests of a feed that need a lane (R184, R185): the pending one, and the armed ones whose reservation has come. -/
def laneNeeds (s : State) (fd : Feed) : List (Nat × Nat) :=
  (match fd.corr.pending with | none => [] | some b => [(fd.asked, b)]) ++ dueSwaps s fd.n

/-- The bank a lane is filled with: the one not resident where a request names it. -/
def laneBank (s : State) (fd : Feed) : Nat :=
  let bs := (laneNeeds s fd).map fun x => x.2
  (bs.find? fun b => b != fd.corr.new).getD (bs.headD fd.corr.new)

/-- Hold a lane for an incoming bank from now (R184): kept filled when it already holds that bank. -/
def holdLane (bank tally : Nat) (fd : Feed) : Feed :=
  match fd.lane with
  | some l => if l.bank == bank then fd else { fd with lane := some { bank := bank, since := tally, filled := false } }
  | none => { fd with lane := some { bank := bank, since := tally, filled := false } }

/-- The conditions of R180 but for the pending request: no fade, another bank, READY, a filled lane. -/
def canSwap (s : State) (fd : Feed) (bank : Nat) : Bool :=
  !fd.corr.running && bank != fd.corr.new && bankReady s fd.n bank &&
    (match fd.lane with | some l => l.bank == bank && l.filled | none => false)

/-- Start a bank fade at the boundary (R179). -/
def startSwap (f bank : Nat) (s : State) : State :=
  raiseOwn 0x2002 .boundary (lastBoundary s) (some (.corr f)) bank
    (s.updFeed f fun fd => { fd with corr := { fd.corr.start bank (xfadeOf s (.corr f) 0x102) with pending := none } })

/-- A request for ACTIVE applied at the boundary (R180, R181 step 3). -/
def requestSwap (f bank mb : Nat) (s : State) : State :=
  match s.feedAt f with
  | none => s
  | some fd =>
    if !fd.corr.running && fd.corr.pending.isNone && bank == fd.corr.new then s
    else if fd.corr.pending.isNone && canSwap s fd bank then startSwap f bank s
    else
      let h := fd.corr.hold bank
      let s := s.updFeed f fun fd => { fd with corr := h.1, asked := lastBoundary s }
      if h.2 then raiseNode 0x2004 .boundary (lastBoundary s) (some (.corr f)) mb (low16 h.1.replaced) [] s else s

/-- R181 steps 1 and 2 for a feed's banks. -/
def settleCorr (s : State) (f : Nat) : State :=
  match s.feedAt f with
  | none => s
  | some fd =>
    let s := if fd.corr.due then
        raiseOwn 0x2003 .boundary (lastBoundary s) (some (.corr f)) fd.corr.new
          (s.updFeed f fun fd => { fd with
            corr := fd.corr.finish, lane := (fd.lane.map fun l => { l with bank := fd.corr.old, filled := true }) })
      else s
    match s.feedAt f with
    | none => s
    | some fd =>
      match fd.corr.pending with
      | none => s
      | some b =>
        if fd.corr.running then s
        else if b == fd.corr.new then s.updFeed f fun fd => { fd with corr := { fd.corr with pending := none } }
        else if canSwap s fd b then startSwap f b s
        else s

/-- A request for a new alignment tap applied at the boundary (R164, R182). -/
def requestAlign (f d mb : Nat) (s : State) : State :=
  match s.feedAt f with
  | none => s
  | some fd =>
    if !fd.align.running && fd.align.pending.isNone && d == fd.align.new then s
    else
      let started := !fd.align.running && fd.align.pending.isNone
      let h := fd.align.request d (xfadeOf s (.align f) 0x102)
      let s := s.updFeed f fun fd => { fd with align := h.1 }
      if h.2 then raiseNode 0x2004 .boundary (lastBoundary s) (some (.align f)) mb (low16 h.1.replaced) [] s
      else if started then raiseOwn 0x2002 .boundary (lastBoundary s) (some (.align f)) 0 s else s

/-- R181 steps 1 and 2 for a feed's alignment. -/
def settleAlign (s : State) (f : Nat) : State :=
  match s.feedAt f with
  | none => s
  | some fd =>
    let s := if fd.align.due then
        raiseOwn 0x2003 .boundary (lastBoundary s) (some (.align f)) 0 (s.updFeed f fun fd => { fd with align := fd.align.finish })
      else s
    match s.feedAt f with
    | none => s
    | some fd =>
      match fd.align.pending with
      | none => s
      | some d =>
        if fd.align.running then s
        else if d == fd.align.new then s.updFeed f fun fd => { fd with align := { fd.align with pending := none } }
        else raiseOwn 0x2002 .boundary (lastBoundary s) (some (.align f)) 0
          (s.updFeed f fun fd => { fd with align := fd.align.test (xfadeOf s (.align f) 0x102) })

/-- The committed coefficients of the sections of a node: SECTION n at `base + n`, RAW n at `base + 0x10 + n` (R186). -/
def sectionsOf (s : State) (n : Node) (base count : Nat) : List Coefs :=
  (List.range count).map fun i => coefsOf (param s n (base + i)) (param s n (base + 0x10 + i))

/-- The states an incoming bank starts with. Free value, log 16. -/
def incomingStates (old : List Biquad) : List Biquad :=
  let r := Config.sectionStart (old.map fun b => [b.x1, b.x2, b.y1, b.y2])
  old.zipIdx.map fun p =>
    let v := r.getD p.2 []
    { x1 := v.getD 0 0, x2 := v.getD 1 0, y1 := v.getD 2 0, y2 := v.getD 3 0 }

/-- A write of a section or RAW applied at the boundary (R188). -/
def requestEq (f mb : Nat) (s : State) : State :=
  match s.feedAt f with
  | none => s
  | some fd =>
    let cs := sectionsOf s (.eq f) 0x110 12
    let started := !fd.eq.running && fd.eq.pending.isNone
    let h := fd.eq.request cs (xfadeOf s (.eq f) 0x101)
    let s := s.updFeed f fun fd =>
      { fd with eq := h.1, eqOld := if started then fd.eqNew else fd.eqOld,
                eqNew := if started then incomingStates fd.eqNew else fd.eqNew }
    if h.2 then raiseNode 0x2004 .boundary (lastBoundary s) (some (.eq f)) mb (low16 h.1.replaced) [] s
    else if started then raiseOwn 0x2002 .boundary (lastBoundary s) (some (.eq f)) 0 s else s

/-- R181 steps 1 and 2 for a feed's sections: the pending request starts a fade to the latest committed values. -/
def settleEq (s : State) (f : Nat) : State :=
  match s.feedAt f with
  | none => s
  | some fd =>
    let s := if fd.eq.due then
        raiseOwn 0x2003 .boundary (lastBoundary s) (some (.eq f)) 0 (s.updFeed f fun fd => { fd with eq := fd.eq.finish })
      else s
    match s.feedAt f with
    | none => s
    | some fd =>
      if fd.eq.pending.isNone || fd.eq.running then s
      else
        let e := { fd.eq with pending := some (sectionsOf s (.eq f) 0x110 12) }
        raiseOwn 0x2002 .boundary (lastBoundary s) (some (.eq f)) 0
          (s.updFeed f fun fd => { fd with eq := e.test (xfadeOf s (.eq f) 0x101), eqOld := fd.eqNew,
                                           eqNew := incomingStates fd.eqNew })

/-- Insert a waiting request in order of the boundary it asked for, then of feed (R185). -/
def insertWait (e : Nat × Nat) : List (Nat × Nat) → List (Nat × Nat)
  | [] => [e]
  | x :: xs =>
    if e == x then x :: xs
    else if e.1 < x.1 || (e.1 == x.1 && decide (e.2 < x.2)) then e :: x :: xs else x :: insertWait e xs

/-- A request takes a free lane of its pool for its feed, or waits and counts once in WAITS (R184, R185). -/
def askLane (w : Nat × Nat) (s : State) : State :=
  match s.feedAt w.2 with
  | none => s
  | some fd =>
    if fd.lane.isSome then s
    else if laneFree s w.2 then
      { s.updFeed w.2 (holdLane (laneBank s fd) s.clk.tally) with till := { s.till with waiting := s.till.waiting.filter fun x => x.2 != w.2 } }
    else if s.till.waiting.contains w then s
    else { s.updFeed w.2 (fun fd => { fd with waits := satAdd32 fd.waits 1 }) with
             till := { s.till with waiting := insertWait w s.till.waiting } }

/-- LANE_WAIT of a pool, at the first boundary of a run of boundaries with waiting requests (R185). -/
def raiseWait (alarm was : Bool) (s : State) : State :=
  match s.till.waiting.find? fun w => alarmPool s w.2 == alarm with
  | none => s
  | some w => if was then s else raiseOwn 0x2005 .boundary (lastBoundary s) (some (.corr w.2)) (poolWaiting s alarm) s

/-- The till at a boundary (R184, R185): lanes no longer needed are released, a lane whose feed asks for another bank is filled again,
freed lanes go to waiting requests in order, and LANE_WAIT is raised. -/
def settleTill (s : State) : State :=
  let s := { s with
    feeds := s.feeds.map fun (fd : Feed) =>
      if fd.corr.running then fd
      else if (laneNeeds s fd).isEmpty then { fd with lane := none }
      else if fd.lane.isSome then holdLane (laneBank s fd) s.clk.tally fd else fd }
  let asks : List (Nat × Nat) :=
    s.feeds.foldl (fun (l : List (Nat × Nat)) (fd : Feed) => (laneNeeds s fd).foldl (fun (l : List (Nat × Nat)) (n : Nat × Nat) => insertWait (n.1, fd.n) l) l) []
  let s := { s with till := { s.till with waiting := s.till.waiting.filter fun w => asks.contains w } }
  let s := asks.foldl (fun s w => askLane w s) s
  let s := raiseWait true s.till.runAlarm (raiseWait false s.till.runGeneral s)
  { s with till := { s.till with runGeneral := decide (0 < poolWaiting s false), runAlarm := decide (0 < poolWaiting s true) } }

/-- The steps of R181 for every feed at a boundary. -/
def settleFeeds (s : State) : State :=
  s.feeds.foldl (fun s fd => settleEq (settleAlign (settleCorr s fd.n) fd.n) fd.n) s

/-- The trim gain of the committed TRIM and POLARITY (R162). -/
def trimGain (s : State) (f : Nat) : Int :=
  let g := gainOfDb (pZ s (.feed f) 0x101)
  if pN s (.feed f) 0x102 = 1 then -g else g

/-- Bypass writes: the fade of R78 over the frames given. -/
def bypassTo (f : Fade Nat) (v frames : Nat) : Fade Nat :=
  if v = f.new && !f.running then f else { f.start v frames with pending := none }

/-- What a committed write of a feed's parameter does at its boundary (R160). The value is already committed. -/
def applyFeedWrite (mb : Nat) (n : Node) (tag : Nat) (s : State) : State :=
  let v := pN s n tag
  match n with
  | .feed f =>
    if tag = 0x100 then
      s.updFeed f fun fd => { fd with byp := bypassTo fd.byp v (framesOfMs (pN s (.feed f) 0x103)) }
    else if tag = 0x101 || tag = 0x102 then
      s.updFeed f fun fd => { fd with trim := fd.trim.to (trimGain s f) (framesOfMs (pN s (.feed f) 0x103)) }
    else s
  | .align f => if tag = 0x101 then requestAlign f v mb s else s
  | .corr f =>
    if tag = 0x100 then s.updFeed f fun fd => { fd with corrByp := bypassTo fd.corrByp v (xfadeOf s n 0x102) }
    else if tag = 0x101 then requestSwap f v mb s else s
  | .eq f =>
    if tag = 0x100 then s.updFeed f fun fd => { fd with eqByp := bypassTo fd.eqByp v (xfadeOf s n 0x101) } else s
  | .limit f =>
    if tag = 0x100 then s.updFeed f fun fd => { fd with limByp := bypassTo fd.limByp v (framesOfMs 20) } else s
  | _ => s

/-! ### Feeds at an admission (R161) -/

/-- A feed as the admission that creates it starts it, from its committed values. -/
def newFeed (s : State) (f : Nat) : Feed :=
  { n := f, clips := 0, trim := Ramp.const (trimGain s f), byp := Fade.const (pN s (.feed f) 0x100),
    corrByp := Fade.const (pN s (.corr f) 0x100), eqByp := Fade.const (pN s (.eq f) 0x100),
    limByp := Fade.const (pN s (.limit f) 0x100), align := Fade.const (pN s (.align f) 0x101), corr := Fade.const 0,
    asked := 0, waits := 0, lane := none,
    tail := { shed := false, out := 0, restore := none, in_ := 64, have_ := 16384 },
    eq := Fade.const (sectionsOf s (.eq f) 0x110 12), eqOld := [], eqNew := List.replicate 12 Biquad.zero,
    lim := 2 ^ 30, limMin := 2 ^ 30, raw := [], line := [], xs := [] }

/-- The resident bank of a restarted feed: the one ACTIVE names when it is READY, else the one resident before (R161). -/
def restartBank (s : State) (fd : Feed) : Nat :=
  let b := pN s (.corr fd.n) 0x101
  if bankReady s fd.n b then b else fd.corr.new

/-- A feed restarted by an admission that changes its admission parameters (R161). -/
def restartFeed (s : State) (fd : Feed) : Feed :=
  { newFeed s fd.n with
      clips := 0, corr := Fade.const (restartBank s fd), waits := fd.waits,
      tail := { fd.tail with out := if fd.tail.shed then 16 else 0, have_ := 16384 } }

/-- Abandon the loads of a feed at an admission (R177). -/
def abandonLoads (f why stamp : Nat) (kind : StampKind) (s : State) : State :=
  (s.fw.banks.filter fun b => b.feed == f && (b.state == 1 || b.state == 2)).foldl (fun s b =>
    raiseNode 0x2006 kind stamp (some (.bank f b.bank)) b.mb why [] (s.dropBank f b.bank)) s

/-! ### Tails (R190, R191) -/

/-- A step of the ladder sheds the tails of the feeds a test names; LADDER 3 or 4. -/
def shedTails (step : Nat) (which : Feed → Bool) (s : State) : State :=
  raiseOwn 0x2007 .boundary (lastBoundary s) none (step * 256 + 1)
    { s with feeds := s.feeds.map fun fd =>
        if which fd && !fd.tail.shed then { fd with tail := { fd.tail with shed := true, out := 0, restore := none } } else fd }

/-- The step is undone: each restored feed clears its tail line and waits for its first tail period (R191). -/
def restoreTails (step : Nat) (which : Feed → Bool) (s : State) : State :=
  raiseOwn 0x2007 .boundary (lastBoundary s) none (step * 256)
    { s with feeds := s.feeds.map fun fd =>
        if which fd && fd.tail.shed then { fd with tail := { fd.tail with restore := some (lastBoundary s) } } else fd }

/-- At the boundary of a feed's tail period, a restored tail starts its fade-in from a line of the last 64 frames (R168, R191). -/
def tailPeriod (boundary : Nat) (fd : Feed) : Feed :=
  match fd.tail.restore with
  | none => fd
  | some u =>
    if u ≤ boundary && boundary / frameTicks % 64 == fd.n % 64 then
      { fd with tail := { shed := false, out := 0, restore := none, in_ := 0, have_ := 1024 } }
    else fd

/-! ### Read-only values (R160) -/

def roFeed (s : State) (n : Node) (tag : Nat) : List Word :=
  match n with
  | .feed f =>
    match s.feedAt f with
    | none => w1 0
    | some fd =>
      if tag = 0x180 then w1 fd.clips
      else w1 (if pN s n 0x104 ≤ 1024 then 2 else if fd.tail.shed then 1 else 0)
  | .align f =>
    match s.feedAt f with
    | none => w1 0
    | some fd => if tag = 0x180 then w1 (b2n fd.align.running) else w1 fd.align.replaced
  | .corr f =>
    match s.feedAt f with
    | none => w1 0
    | some fd =>
      if tag = 0x180 then w1 (if fd.corr.running then (if fd.corr.new = 1 then 2 else 3) else fd.corr.new)
      else if tag = 0x181 then w1 (match fd.corr.pending with | none => 0 | some b => b + 1)
      else if tag = 0x182 then w1 fd.corr.replaced else w1 fd.waits
  | .bank f b =>
    match s.bankAt f b with
    | none => if tag = 0x184 then [0#32, 0#32] else w1 0
    | some k =>
      if tag = 0x180 then w1 k.state else if tag = 0x181 then w1 k.total else if tag = 0x182 then w1 k.shift
      else if tag = 0x183 then [if k.state = 3 then k.crc else 0#32] else words64 k.readyAt
  | .eq f => w1 (((s.feedAt f).map fun fd => fd.eq.replaced).getD 0)
  | .limit f => w1 (((s.feedAt f).map fun fd => Config.grOfLimit fd.limMin).getD 0)
  | .till =>
    if tag = 0x180 then w1 (poolBusy s false + 65536 * poolBusy s true) else w1 s.till.waiting.length
  | _ => []

/-! ### FILTER_LOAD (R173 to R175) -/

/-- FILTER_LOAD. -/
def opFilterLoad (r : Request) (s : State) : State × Reply :=
  match nodeOfHandle s r.handle with
  | some (.bank f b) =>
    if !permits (classOf s (.feed f)) r.mb then (s, .fail stClass 0)
    else
      match itemsBad r.items [(0x50, (· == 3)), (0x51, fun n => decide (1 ≤ n) && decide (n ≤ 1014))] (realItems r.items) with
      | some i => (s, .fail stType i)
      | none =>
        let vals (t : Nat) : List Word := ((r.items.find? fun i => i.tag == t).map Item.vals).getD []
        let d := vals 0x50
        let taps := (vals 0x51).map BitVec.toInt
        let total := (d.getD 0 0#32).toNat
        let off := (d.getD 1 0#32).toNat
        let w2 := d.getD 2 0#32
        let first := w2.getLsbD 0
        let last := w2.getLsbD 1
        let shift := fld w2 8 3
        if total > 16384 || total > pN s (.feed f) 0x104 then (s, .fail stTooLong 0)
        else
          let old := s.bankAt f b
          let st := (old.map Bank.state).getD 0
          let theirs := (old.map Bank.mb).getD 0xF
          if st = 1 && theirs != r.mb then (s, .fail stInProgress 0)
          else
            let mine := st == 1 && theirs == r.mb
            let sound := ((s.feedAt f).map fun fd => audible fd b).getD false
            let k := (old.getD (impulseBank f 0))
            let have' := if first then 0 else k.taps.length
            let good := !sound && st != 2 && decide (shift ≤ 4) && onlyBits 0x703 w2 &&
              (first || (mine && k.total == total && k.shift == shift)) && off == have' &&
              decide (off + taps.length ≤ total) && (!last || off + taps.length == total)
            if !good then (s, .fail stRange 0)
            else
              let all := if first then taps else k.taps ++ taps
              let bk : Bank :=
                { feed := f, bank := b, state := if last then 2 else 1, total := total, shift := shift, taps := all,
                  crc := 0#32, readyAt := 0, mb := r.mb, lastAt := s.clk.tally }
              let s := s.setBank bk
              let s := if first then s.updFeed f (fun fd =>
                { fd with lane := (fd.lane.map fun l => if l.bank == b then { l with filled := false } else l) }) else s
              (s, .ok [{ tag := 0x52, vals := w1 all.length }])
  | _ => (s, .fail stBadHandle 0)

/-! ### The rows of this chapter -/

/-- FILTER_READY (R176): a bank in PREPARING becomes READY while the mailboxes are served. -/
def execFilterReady (f b : Nat) (s : State) : Host.Outcome State Fault Refusal :=
  match s.bankAt f b with
  | none => .next s
  | some k =>
    if k.state = 2 && s.serving then
      let crc := crc32Words (k.taps.map wi)
      .next (raiseNode 0x2001 .teller s.clk.tally (some (.bank f b)) k.mb (low16 k.total) [{ tag := 0x53, vals := [crc] }]
        (s.setBank { k with state := 3, crc := crc, readyAt := s.clk.tally }))
    else .next s

/-- LOAD_ABANDONED (R177): a bank left in LOADING for 30 000 frames becomes EMPTY at a boundary. -/
def execLoadAbandoned (f b : Nat) (s : State) : Host.Outcome State Fault Refusal :=
  match s.bankAt f b with
  | none => .next s
  | some k =>
    if k.state = 1 && atFrame s && decide (k.lastAt + frames 30000 ≤ s.clk.tally) then
      .next (raiseNode 0x2006 .boundary s.clk.tally (some (.bank f b)) k.mb 0 [] (s.dropBank f b))
    else .next s

/-- LANE_RESERVE (R184, R185): a feed's armed requests whose reservation has come take a free lane of its pool, or wait. -/
def execLaneReserve (f : Nat) (s : State) : Host.Outcome State Fault Refusal :=
  .next ((dueSwaps s f).foldl (fun s n => askLane (n.1, f) s) s)

/-- LANE_FILL_DONE (R184): a lane held for a READY bank holds its coefficients. -/
def execLaneFillDone (f : Nat) (s : State) : Host.Outcome State Fault Refusal :=
  match s.feedAt f with
  | none => .next s
  | some fd =>
    match fd.lane with
    | none => .next s
    | some l =>
      if !l.filled && bankReady s f l.bank then
        .next (s.updFeed f fun fd => { fd with lane := some { l with filled := true } })
      else .next s

end Sys2Proof.Machine
end

