-- ==== Sys2Proof/Machine/Console.lean ====
section
/-! DEFINITION. The console (06): channel strips, bus strips, ramps and route fades, auto-scaling, ambient tracking and
shedding. Contributions to sums are exact rationals in units of one Q1.31 step; each sum is reduced once. -/

namespace Sys2Proof.Machine

/-! ### Sums -/

/-- Sixteen exact contributions. -/
abbrev Part := List Rat

/-- Add contributions sample by sample. -/
def addParts : Part → Part → Part
  | [], b => b
  | a, [] => a
  | x :: a, y :: b => (x + y) :: addParts a b

/-- The exact sum of contributions. -/
def sumParts (ps : List Part) : Part := ps.foldl addParts (List.replicate 16 0)

/-- Reduce a rational to Q1.31 once: round half up, saturate (R159, R196). -/
def reduceRat (r : Rat) : Int × Bool := let z := (r + 1 / 2).floor; (sat31 z, sats31 z)

/-- Reduce a sum. -/
def reducePart (p : Part) : Sig := p.map reduceRat

/-- A sample times a Q5.27 gain, exact. -/
def times27 (x g : Int) : Rat := (x * g : Int) / 134217728

/-- A path fading with weight `w` of the new form, exact (R203). -/
def fadeRat {α : Type} (f : Fade α) (k : Nat) (path : α → Rat) : Rat :=
  if f.running && decide (f.pos + k + 1 < f.len) then
    (path f.old * ((f.len - (f.pos + k + 1) : Nat) : Rat) + path f.new * ((f.pos + k + 1 : Nat) : Rat)) / ((f.len : Nat) : Rat)
  else path f.new

/-! ### Access -/

def State.chanAt (s : State) (c : Nat) : Option Channel := s.chans.find? fun x => x.n == c
def State.updChan (s : State) (c : Nat) (g : Channel → Channel) : State :=
  { s with chans := s.chans.map fun x => if x.n == c then g x else x }
def State.busAt (s : State) (b : Nat) : Option Bus := s.buses.find? fun x => x.n == b
def State.updBus (s : State) (b : Nat) (g : Bus → Bus) : State :=
  { s with buses := s.buses.map fun x => if x.n == b then g x else x }
def State.zoneAt (s : State) (z : Nat) : Option Zone := s.zones.find? fun x => x.n == z
def State.updZone (s : State) (z : Nat) (g : Zone → Zone) : State :=
  { s with zones := s.zones.map fun x => if x.n == z then g x else x }

/-- Sample `k` of a source in the block being computed; kind 0 and absent channels give zero. -/
def sourceAt (s : State) (w : Word) (k : Nat) : Int :=
  if fld w 28 4 = 0 then 0 else ((findKey w s.snd.compBlk).getD []).getD k 0

/-! ### Zones and mirrors (R114, R122, R212) -/

def cabSwapped (s : State) : Bool := pN s .layout 0x101 == 1

/-- The zone used for a zone named: its MIRROR while the cab swap is 1 (R122). -/
def zoneUsed (s : State) (z : Nat) : Nat := if cabSwapped s then pN s (.zone z) 0x101 else z

/-- A feed is a member of a zone (R118). -/
def inZone (s : State) (f z : Nat) : Bool := (pW s (.feed f) 0x143 (z / 32)).getLsbD (z % 32)

/-- The member feeds of a zone, among the admitted feeds. -/
def zoneFeeds (s : State) (z : Nat) : List Nat := (s.feeds.map Feed.n).filter fun f => inZone s f z

/-- A destination word with its zone after MIRROR (R212). -/
def destUsed (s : State) (w : Word) : Word :=
  if fld w 28 4 = 1 then wd (0x10000000 + zoneUsed s (fld w 0 16)) else wd (fld w 28 4 * 0x10000000 + fld w 0 16)

/-! ### Channel strips (R193, R195, R205, R206) -/

/-- A HIGH_PASS or LOW_PASS section at a frequency in 0.1 Hz with Q in 0.0001 (R186). -/
def passSection (ty freq q10 : Nat) : Coefs := sectionCoefs ty freq 0 q10

/-- The high-pass sections of R205. -/
def hpfSections (order freq : Nat) : List Coefs :=
  match order with
  | 0 => []
  | 1 => [passSection 5 freq 7071]
  | _ => [passSection 5 freq 5412, passSection 5 freq 13066]

/-- SECTION n at 0x0110 + n, RAW n at 0x0118 + n (R205, R209). -/
def stripSections (s : State) (n : Node) (count : Nat) : List Coefs :=
  (List.range count).map fun i => coefsOf (param s n (0x110 + i)) (param s n (0x118 + i))

/-- The section bank of a channel and of a bus, as committed (R204). -/
def chanBank (s : State) (c : Nat) : List Coefs :=
  hpfSections (pN s (.channel c) 0x107) (pN s (.channel c) 0x108) ++ stripSections s (.channel c) (pN s (.channel c) 0x109)
def busBank (s : State) (b : Nat) : List Coefs := stripSections s (.bus b) (pN s (.bus b) 0x108)

/-- The dynamics stage: gain G and the output with makeup, one reduction per sample (R206). -/
def dynRun (ps : List Int) : Int → List (Int × Int) → Int × Sig
  | g, [] => (g, [])
  | g, (x, m) :: xs =>
    let g' := Config.dynGain (ps ++ [g, x])
    let y := reduce (x * (Config.dynLinear g' : Nat) * m) 57
    let r := dynRun ps g' xs
    (r.1, y :: r.2)

/-- The tap points of a strip for one frame: PRE, PRE_FADER, POST (R193). -/
structure Taps where
  pre  : List Int
  mid  : List Int
  post : List Int

def Taps.at_ (t : Taps) (point : Nat) : List Int := if point = 0 then t.pre else if point = 1 then t.mid else t.post

/-- Multiply samples by a ramp, one reduction each, keeping the saturation marks. -/
def rampStage (r : Ramp) (x : Sig) : Sig := (x.zip r.frame).map fun p =>
  let y := reduce (p.1.1 * p.2) 27; (y.1, p.1.2 || y.2)

/-- A strip up to its insert point: source, trim, sections, dynamics (R193, R245). -/
def chanFront (s : State) (c : Channel) : Channel × Sig × List Int :=
  let n := Node.channel c.n
  let x0 := (List.range 16).map fun k => c.src.mix k (fun w => sourceAt s w k)
  let raw := pushAll x0 c.raw (pN s n 0x140 + 32)
  let t := rampStage c.trim (x0.map fun x => (x, false))
  let e := stageSections c.sec c.secOld c.secNew t
  let ps : List Int := [pN s n 0x130, pZ s n 0x131, pN s n 0x132, pN s n 0x133, pN s n 0x134, pZ s n 0x135, pN s n 0x136]
  let d := dynRun ps c.dyn ((e.2.2.map (·.1)).zip c.makeup.frame)
  let dyn : Sig := (d.2.zip e.2.2).map fun p => (p.1.1, p.1.2 || p.2.2)
  ({ c with raw := raw, secOld := e.1, secNew := e.2.1, dyn := d.1 }, dyn, x0)

/-- The strip from its delay on: the taps, and the strip moved on by one frame (R193, R195, R234). -/
def chanBack (c : Channel) (x : Sig) (keep : Nat) : Channel × Taps × Nat :=
  let line := pushAll (x.map (·.1)) c.line (keep + 32)
  let wet : Sig := x.zipIdx.map fun p => (c.delay.mix p.2 (delayed line p.2), p.1.2)
  let out : Sig := wet.zipIdx.map fun p =>
    (c.byp.mix p.2 (fun b => if b = 1 then c.delay.mix p.2 (delayed c.raw p.2) else p.1.1), p.1.2)
  let out := if c.shed.g0 = q27One ∧ c.shed.g1 = q27One then out else rampStage c.shed out
  let mid := rampStage c.mute out
  let post := rampStage c.fader mid
  let clipped := (post.filter (·.2)).length
  ({ c with
      line := line, clips := satAdd32 c.clips clipped, trim := c.trim.advance, makeup := c.makeup.advance,
      mute := c.mute.advance, fader := c.fader.advance, shed := c.shed.advance, byp := c.byp.advance, src := c.src.advance,
      sec := c.sec.advance, delay := c.delay.advance,
      sends := c.sends.map fun d => { route := d.route.advance, level := d.level.advance },
      direct := { route := c.direct.route.advance, level := c.direct.level.advance } },
   { pre := out.map (·.1), mid := mid.map (·.1), post := post.map (·.1) }, clipped)

/-- The contribution of a send or direct out whose route is accepted by a test, sample by sample (R203, R207). -/
def sendPart (t : Taps) (d : SendSt) (dst : Word → Bool) : Part :=
  (d.level.frame.zipIdx).map fun p =>
    fadeRat d.route p.2 fun w => if dst w then times27 ((t.at_ (fld w 16 2)).getD p.2 0) p.1 else 0

/-- A send route that is ON and names a bus; a direct route that names a destination. -/
def sendsTo (b : Nat) (w : Word) : Bool := w.getLsbD 31 && fld w 0 16 == b
def goesTo (dest w : Word) : Bool := fld w 28 4 == fld dest 28 4 && fld w 0 16 == fld dest 0 16

/-! ### Bus strips (R194, R208 to R214) -/

/-- N of a bus in the committed state (R213). -/
def busN (s : State) (b : Nat) : Nat :=
  sumNat (s.chans.map fun c =>
    let n := Node.channel c.n
    if (classOf s n == some 2) && decide (2 ≤ s.ladder.pos) then 0
    else ((List.range (pN s n 0x152)).filter fun i =>
      let w := pW s n (0x160 + i) 0
      w.getLsbD 31 && fld w 0 16 == b && (pW s n (0x160 + i) 1).toInt != -14400 &&
        (fld w 16 2 == 0 || pN s n 0x150 == 0)).length)

/-- FEEDS of a bus under a committed state (R211). -/
def busFeeds (s : State) (b : Nat) : Nat :=
  sumNat ((List.range (pN s (.bus b) 0x109)).map fun i =>
    let w := pW s (.bus b) (0x130 + i) 0
    if fld w 28 4 = 1 then (zoneFeeds s (zoneUsed s (fld w 0 16))).length else if fld w 28 4 = 2 then 1 else 0)

/-- The ambient gain of a zone at sample `k`, Q5.27 rational; an ALARM bus never falls below 0 dB (R219, R220). -/
def ambAt (s : State) (alarm : Bool) (z k : Nat) : Rat :=
  if z = 0xFFFF then 1
  else
    match s.zoneAt (zoneUsed s z) with
    | none => 1
    | some q =>
      let g : Rat := (((q.g0 * 16 + (q.g1 - q.g0) * ((k + 1 : Nat) : Int)) : Int) : Rat) / (16 * 134217728)
      if alarm && decide (g < 1) then 1 else g

/-- The ambient gain a destination applies, moving from an earlier zone's gain (R221). -/
def destAmb (s : State) (alarm : Bool) (d : DestSt) (k : Nat) : Rat :=
  let g := ambAt s alarm d.zone k
  if d.apos + k + 1 ≥ d.alen then g
  else
    let g0 : Rat := (d.ag0 : Rat) / 134217728
    g0 + (g - g0) * ((d.apos + k + 1 : Nat) : Rat) / ((d.alen : Nat) : Rat)

/-- A bus up to its insert point: the sum of its sends, reduced once, and its EQ with bypass (R194, R195, R245). -/
def busFront (b : Bus) (sum : Part) : Bus × Sig :=
  let x := reducePart sum
  let e := stageSections b.sec b.secOld b.secNew x
  ({ b with secOld := e.1, secNew := e.2.1 }, withBypass b.byp x e.2.2)

/-- The bus from its auto-scale on (R194, R234). -/
def busBack (b : Bus) (x : Sig) : Bus × List Int × Nat :=
  let y := rampStage b.mute (rampStage b.gain (rampStage b.scale x))
  let y := if b.shed.g0 = q27One ∧ b.shed.g1 = q27One then y else rampStage b.shed y
  let clipped := (y.filter (·.2)).length
  ({ b with
      clips := satAdd32 b.clips clipped, gain := b.gain.advance, mute := b.mute.advance, scale := b.scale.advance,
      shed := b.shed.advance, byp := b.byp.advance, sec := b.sec.advance,
      dests := b.dests.map fun d => { d with
        route := d.route.advance, level := d.level.advance, apos := min (d.apos + 16) d.alen } },
   y.map (·.1), clipped)

/-- A destination's contribution to the routes a test accepts: output × LEVEL × ambient gain (R210). -/
def destPart (s : State) (alarm : Bool) (out : List Int) (d : DestSt) (amb : Bool) (dst : Word → Bool) : Part :=
  (d.level.frame.zipIdx).map fun p =>
    let g : Rat := if amb then destAmb s alarm d p.2 else 1
    fadeRat d.route p.2 fun w => if dst w then times27 (out.getD p.2 0) p.1 * g else 0

/-! ### Committed writes (R201 to R204) -/

/-- GAIN_RAMP, ROUTE_RAMP, EQ_XFADE and DELAY_XFADE of a strip, or the length of a scene fade (R231). -/
def rampLen (s : State) (n : Node) (given : Option Nat) (tag : Nat) : Nat := given.getD (framesOfMs (pN s n tag))

/-- FADE_REPLACED and the strip's REPLACED (R204). -/
def fadeReplaced (mb : Nat) (n : Node) (unit : Nat) (s : State) : State :=
  let s := match n with
    | .channel c => s.updChan c fun x => { x with replaced := satAdd32 x.replaced 1 }
    | .bus b => s.updBus b fun x => { x with replaced := satAdd32 x.replaced 1 }
    | _ => s
  raiseNode 0x3005 .boundary (lastBoundary s) (some n) mb unit [] s

/-- Trim of a channel: linear gain with polarity (R205). -/
def chanTrim (s : State) (c : Nat) : Int :=
  let g := gainOfDb (pZ s (.channel c) 0x102)
  if pN s (.channel c) 0x103 = 1 then -g else g

/-- A changed route: the value last asked for differs (R203, R204). -/
def routeAsk {α : Type} [DecidableEq α] (f : Fade α) (a : α) (frames : Nat) : Fade α × Bool :=
  if f.pending.getD f.new = a then (f, false) else f.request a frames

/-- What a committed write of a channel parameter does at its boundary; `over` is the length of a scene fade (R205, R231). -/
def applyChannel (mb : Nat) (given : Option Nat) (c tag : Nat) (s : State) : State :=
  let n := Node.channel c
  let v := pN s n tag
  let gain := rampLen s n given 0x104
  let route := rampLen s n given 0x105
  match s.chanAt c with
  | none => s
  | some st =>
    if tag = 0x100 then s.updChan c fun x => { x with byp := bypassTo x.byp v route }
    else if tag = 0x101 then
      let r := routeAsk st.src (pW s n tag 0) route
      let s := s.updChan c fun x => { x with src := r.1 }
      if r.2 then fadeReplaced mb n 0x101 s else s
    else if tag = 0x102 || tag = 0x103 then s.updChan c fun x => { x with trim := x.trim.to (chanTrim s c) gain }
    else if tag = 0x137 then s.updChan c fun x => { x with makeup := x.makeup.to (gainOfDb (pZ s n tag)) gain }
    else if tag = 0x150 then s.updChan c fun x => { x with mute := x.mute.to (gainOfMute v) gain }
    else if tag = 0x151 then s.updChan c fun x => { x with fader := x.fader.to (gainOfDb (pZ s n tag)) gain }
    else if tag = 0x141 then
      let len := if st.delay.running then framesOfMs (pN s n 0x142) else rampLen s n given 0x142
      let r := routeAsk st.delay v len
      let s := s.updChan c fun x => { x with delay := r.1 }
      if r.2 then fadeReplaced mb n 0x141 s else s
    else if tag = 0x153 then
      let r := routeAsk st.direct.route (pW s n tag 0) route
      let s := s.updChan c fun x => { x with
        direct := { route := r.1, level := x.direct.level.to (gainOfDb (pW s n tag 1).toInt) gain } }
      if r.2 then fadeReplaced mb n 0x153 s else s
    else if 0x160 ≤ tag ∧ tag < 0x180 then
      match st.sends[tag - 0x160]? with
      | none => s
      | some d =>
        let r := routeAsk d.route (pW s n tag 0) route
        let s := s.updChan c fun x => { x with
          sends := x.sends.set (tag - 0x160) { route := r.1, level := d.level.to (gainOfDb (pW s n tag 1).toInt) gain } }
        if r.2 then fadeReplaced mb n tag s else s
    else s

/-- A committed write to the section bank of a strip (R204): once per commit, whatever sections it writes. -/
def applyStripBank (mb : Nat) (given : Option Nat) (n : Node) (s : State) : State :=
  match n with
  | .channel c =>
    match s.chanAt c with
    | none => s
    | some x =>
      let r := x.sec.request (chanBank s c) (if x.sec.running then framesOfMs (pN s n 0x106) else rampLen s n given 0x106)
      let started := !x.sec.running && x.sec.pending.isNone
      let s := s.updChan c fun x => { x with
        sec := r.1, secOld := if started then x.secNew else x.secOld,
        secNew := if started then incomingStates x.secNew else x.secNew }
      if r.2 then fadeReplaced mb n 0x108 s else s
  | .bus b =>
    match s.busAt b with
    | none => s
    | some x =>
      let r := x.sec.request (busBank s b) (if x.sec.running then framesOfMs (pN s n 0x105) else rampLen s n given 0x105)
      let started := !x.sec.running && x.sec.pending.isNone
      let s := s.updBus b fun x => { x with
        sec := r.1, secOld := if started then x.secNew else x.secOld,
        secNew := if started then incomingStates x.secNew else x.secNew }
      if r.2 then fadeReplaced mb n 0x108 s else s
  | _ => s

/-- The present linear gain of a destination's ambient factor, Q5.27 (R221). -/
def destAmbNow (s : State) (b : Nat) (d : DestSt) : Int :=
  (destAmb s (classOf s (.bus b) == some 0) { d with apos := d.apos - 1 } 0 * 134217728).floor

/-- What a committed write of a bus parameter does at its boundary (R209). -/
def applyBus (mb : Nat) (given : Option Nat) (b tag : Nat) (s : State) : State :=
  let n := Node.bus b
  let v := pN s n tag
  let gain := rampLen s n given 0x103
  let route := rampLen s n given 0x104
  match s.busAt b with
  | none => s
  | some st =>
    if tag = 0x100 then s.updBus b fun x => { x with byp := bypassTo x.byp v route }
    else if tag = 0x101 then s.updBus b fun x => { x with gain := x.gain.to (gainOfDb (pZ s n tag)) gain }
    else if tag = 0x102 then s.updBus b fun x => { x with mute := x.mute.to (gainOfMute v) gain }
    else if 0x130 ≤ tag ∧ tag < 0x138 then
      match st.dests[tag - 0x130]? with
      | none => s
      | some d =>
        let r := routeAsk d.route (destUsed s (pW s n tag 0)) route
        let z := (pW s n tag 2).toNat
        let d' : DestSt :=
          { d with route := r.1, level := d.level.to (gainOfDb (pW s n tag 1).toInt) gain,
                   zone := z, ag0 := if z = d.zone then d.ag0 else destAmbNow s b d,
                   alen := if z = d.zone then d.alen else 16 * framesOfMs (pN s n 0x103),
                   apos := if z = d.zone then d.apos else 0 }
        let s := s.updBus b fun x => { x with dests := x.dests.set (tag - 0x130) d' }
        if r.2 then fadeReplaced mb n tag s else s
    else s

/-- A cab swap changes the zones of destinations by route fades (R212). -/
def swapDests (mb : Nat) (s : State) : State :=
  s.buses.foldl (fun s b => (List.range b.dests.length).foldl (fun s i =>
    match (s.busAt b.n).bind fun x => x.dests[i]? with
    | none => s
    | some d =>
      let r := routeAsk d.route (destUsed s (pW s (.bus b.n) (0x130 + i) 0)) (framesOfMs (pN s (.bus b.n) 0x104))
      let s := s.updBus b.n fun x => { x with dests := x.dests.set i { d with route := r.1 } }
      if r.2 then fadeReplaced mb (.bus b.n) (0x130 + i) s else s) s) s

/-- N and AUTO at a boundary: a change ramps the factor over the scene's fade or over AUTO_RAMP (R213, R214). -/
def settleScale (sceneFrames : Option Nat) (s : State) : State :=
  s.buses.foldl (fun s b =>
    let n := busN s b.n
    let auto := pN s (.bus b.n) 0x106
    if n = b.lastN && auto = b.lastAuto then s
    else s.updBus b.n fun x => { x with
      scale := x.scale.to (autoScale auto n) (sceneFrames.getD (framesOfMs (pN s (.bus b.n) 0x107))),
      lastN := n, lastAuto := auto }) s

/-- R181 steps 1 and 2 for one fade: end it when due, then start the pending change. -/
def settleFade {α : Type} [DecidableEq α] (f : Fade α) (frames : Nat) : Fade α :=
  let f := if f.due then f.finish else f
  match f.pending with
  | none => f
  | some a => if f.running then f else if a = f.new then { f with pending := none } else f.test frames

/-- The section bank of a strip: a pending change starts a fade to the latest committed values (R188, R204). -/
def settleBank (f : Fade (List Coefs)) (old new : List Biquad) (now : List Coefs) (frames : Nat) :
    Fade (List Coefs) × List Biquad × List Biquad :=
  let f := if f.due then f.finish else f
  if f.pending.isNone || f.running then (f, old, new)
  else (({ f with pending := some now }).test frames, new, incomingStates new)

/-- The steps of R181 for every strip at a boundary. -/
def settleStrips (s : State) : State :=
  let chan (c : Channel) : Channel :=
    let n := Node.channel c.n
    let r := framesOfMs (pN s n 0x105)
    let b := settleBank c.sec c.secOld c.secNew (chanBank s c.n) (framesOfMs (pN s n 0x106))
    { c with byp := settleFade c.byp r, src := settleFade c.src r, sec := b.1, secOld := b.2.1, secNew := b.2.2,
             delay := settleFade c.delay (framesOfMs (pN s n 0x142)),
             sends := c.sends.map fun d => { d with route := settleFade d.route r },
             direct := { c.direct with route := settleFade c.direct.route r } }
  let bus (b : Bus) : Bus :=
    let n := Node.bus b.n
    let r := framesOfMs (pN s n 0x104)
    let k := settleBank b.sec b.secOld b.secNew (busBank s b.n) (framesOfMs (pN s n 0x105))
    { b with byp := settleFade b.byp r, sec := k.1, secOld := k.2.1, secNew := k.2.2,
             dests := b.dests.map fun d => { d with route := settleFade d.route r } }
  { s with chans := s.chans.map chan, buses := s.buses.map bus }

/-! ### Admission and shedding (R201, R205, R234) -/

def unity : Ramp := Ramp.const q27One

/-- A channel as the admission starts it. -/
def newChannel (s : State) (c : Nat) : Channel :=
  let n := Node.channel c
  let send (tag : Nat) : SendSt :=
    { route := Fade.const (pW s n tag 0), level := Ramp.const (gainOfDb (pW s n tag 1).toInt) }
  { n := c, trim := Ramp.const (chanTrim s c), makeup := Ramp.const (gainOfDb (pZ s n 0x137)),
    mute := Ramp.const (gainOfMute (pN s n 0x150)), fader := Ramp.const (gainOfDb (pZ s n 0x151)), shed := unity,
    byp := Fade.const (pN s n 0x100), src := Fade.const (pW s n 0x101 0), sec := Fade.const (chanBank s c), secOld := [],
    secNew := List.replicate 10 Biquad.zero, dyn := 0, delay := Fade.const (pN s n 0x141),
    sends := (List.range (pN s n 0x152)).map fun i => send (0x160 + i), direct := send 0x153, clips := 0, replaced := 0,
    line := [], raw := [] }

/-- A bus as the admission starts it. -/
def newBus (s : State) (b : Nat) : Bus :=
  let n := Node.bus b
  let dest (tag : Nat) : DestSt :=
    { route := Fade.const (destUsed s (pW s n tag 0)), level := Ramp.const (gainOfDb (pW s n tag 1).toInt),
      zone := (pW s n tag 2).toNat, ag0 := q27One, alen := 0, apos := 0 }
  { n := b, gain := Ramp.const (gainOfDb (pZ s n 0x101)), mute := Ramp.const (gainOfMute (pN s n 0x102)), shed := unity,
    scale := Ramp.const (autoScale (pN s n 0x106) (busN s b)), lastN := busN s b, lastAuto := pN s n 0x106,
    byp := Fade.const (pN s n 0x100), sec := Fade.const (busBank s b), secOld := [],
    secNew := List.replicate 8 Biquad.zero, dests := (List.range (pN s n 0x109)).map fun i => dest (0x130 + i), clips := 0,
    replaced := 0 }

/-- A zone as the admission starts it: A is 0 dB and E the energy at REF (R219). -/
def newZone (s : State) (z : Nat) : Zone :=
  { n := z, e := Config.energyOfDb (pZ s (.zone z) 0x105), a := 0, g0 := q27One, g1 := q27One, held := 0, holdTo := none,
    hp := List.replicate 4 Biquad.zero, lp := List.replicate 4 Biquad.zero }

/-- Step 2 of the ladder on the console: MEDIA strips fade to zero over 2 frames (R234). -/
def shedStrips (s : State) : State :=
  let media (n : Node) : Bool := classOf s n == some 2
  { s with
    chans := s.chans.map fun c => if media (.channel c.n) then { c with shed := c.shed.to 0 2 } else c,
    buses := s.buses.map fun b => if media (.bus b.n) then { b with shed := b.shed.to 0 2 } else b }

/-- The step undone: the strips restart with cleared delay lines and section states and fade in over 2 frames (R234). -/
def restoreStrips (s : State) : State :=
  let media (n : Node) : Bool := classOf s n == some 2
  { s with
    chans := s.chans.map fun c =>
      if media (.channel c.n) then
        { c with shed := { g0 := 0, g1 := q27One, len := 32, pos := 0 }, line := [], raw := [], secOld := [],
                 secNew := List.replicate 10 Biquad.zero }
      else c,
    buses := s.buses.map fun b =>
      if media (.bus b.n) then
        { b with shed := { g0 := 0, g1 := q27One, len := 32, pos := 0 }, secOld := [],
                 secNew := List.replicate 8 Biquad.zero }
      else b }

/-! ### Ambient tracking (R216 to R219) -/

/-- Samples through one section. -/
def oneSection (c : Coefs) : Biquad → List Int → Biquad × List Int
  | b, [] => (b, [])
  | b, x :: xs => let r := b.step c x; let q := oneSection c r.1 xs; (q.1, r.2.1 :: q.2)

/-- A sensor is usable (R217): it is named, and `dead` does not hold of it. -/
def usableSensor (dead : Word → Bool) (w : Word) : Bool := fld w 28 4 != 0 && !dead w

/-- Mean square of samples, full scale 1. -/
def meanSquare (xs : List Int) : Rat :=
  ((sumInt (xs.map fun x => x * x) : Int) : Rat) / (4611686018427387904 * ((max xs.length 1 : Nat) : Rat))

/-- One frame of a zone's ambient tracking from the signal delivered to it (R217 to R219). -/
def ambFrame (s : State) (dead : Word → Bool) (delivered : List Int) (z : Zone) : Zone × Nat :=
  let n := Node.zone z.n
  let ws := param s n 0x103
  let run : List (Biquad × Biquad × List Int × Bool) := ws.zipIdx.map fun p =>
    let x := (List.range 16).map fun k => sourceAt s p.1 k
    let h := oneSection (passSection 5 2000 7071) (z.hp.getD p.2 Biquad.zero) x
    let l := oneSection (passSection 4 50000 7071) (z.lp.getD p.2 Biquad.zero) h.2
    (h.1, l.1, l.2, usableSensor dead p.1)
  let used := (run.filter fun r => r.2.2.2).flatMap fun r => r.2.2.1
  let z : Zone := { z with hp := run.map (fun r => r.1), lp := run.map (fun r => r.2.1) }
  let loud := decide (Config.energyOfDb (pZ s n 0x10B) < meanSquare delivered)
  let holdTo := if loud then some (s.clk.tally + 24576 * pN s n 0x10C) else z.holdTo
  let frozen := loud || (match holdTo with | none => false | some t => decide (s.clk.tally < t))
  let held : Nat := if used.isEmpty then 2 else if frozen then 1 else 0
  let e := if held = 0 then z.e + (meanSquare used - z.e) / 1500 else z.e
  let lvl := Config.dbOfEnergy e
  let g := if pN s n 0x102 = 0 then 0
    else max (3000 * pZ s n 0x107) (min (3000 * pZ s n 0x108) (3 * (pN s n 0x106 : Int) * (lvl - pZ s n 0x105)))
  let a := if held ≠ 0 then z.a
    else if g > z.a then min g (z.a + pN s n 0x109) else max g (z.a - pN s n 0x10A)
  ({ z with e := e, a := a, held := held, holdTo := holdTo, g0 := z.g1, g1 := if a = 0 then q27One else Config.linOfAmb a },
   held)

/-- AMB_HOLD_END (R218): the freeze of a zone's measurement runs out. -/
def execAmbHoldEnd (z : Nat) (s : State) : Host.Outcome State Fault Refusal :=
  match s.zoneAt z with
  | none => .next s
  | some q =>
    match q.holdTo with
    | none => .next s
    | some t =>
      if t ≤ s.clk.tally then
        .next (s.updZone z fun q => { q with holdTo := none, held := if q.held = 1 then 0 else q.held })
      else .next s

/-! ### Read-only values -/

def roConsole (s : State) (n : Node) (tag : Nat) : List Word :=
  let scene : Nat := if s.sceneRun.running.any fun r => r.1.writes.any fun w => w.node == n then 8 else 0
  match n with
  | .channel c =>
    match s.chanAt c with
    | none => w1 0
    | some x =>
      if tag = 0x180 then w1 x.clips
      else if tag = 0x181 then w1 (Config.grOfDyn x.dyn)
      else if tag = 0x182 then
        w1 (b2n (x.src.running || x.direct.route.running || x.sends.any fun d => d.route.running) + 2 * b2n x.sec.running +
          4 * b2n x.delay.running + scene)
      else w1 x.replaced
  | .bus b =>
    match s.busAt b with
    | none => w1 0
    | some x =>
      if tag = 0x180 then w1 x.lastN
      else if tag = 0x181 then w1 (min 0x7FFFFFFF (16 * x.scale.value).toNat)
      else if tag = 0x182 then w1 x.clips
      else if tag = 0x183 then w1 (b2n (x.dests.any fun d => d.route.running) + 2 * b2n x.sec.running + scene)
      else if tag = 0x184 then w1 x.replaced else w1 (busFeeds s b)
  | .zone z =>
    if tag = 0x180 then w1 (zoneFeeds s z).length
    else
      match s.zoneAt z with
      | none => w1 0
      | some q =>
        if tag = 0x181 then [wi (Config.dbOfEnergy q.e)] else if tag = 0x182 then [wi (q.a / 3000)] else w1 q.held
  | _ => []

/-! ### ROUTE_FADE_END and RAMP_END -/

/-- The route fade that a tag of a node names, ended when due (R203, R204). -/
def endRoute (n : Node) (tag : Nat) (s : State) : State :=
  match n with
  | .channel c =>
    let r := framesOfMs (pN s n 0x105)
    s.updChan c fun x =>
      if tag = 0x100 then { x with byp := settleFade x.byp r }
      else if tag = 0x101 then { x with src := settleFade x.src r }
      else if tag = 0x153 then { x with direct := { x.direct with route := settleFade x.direct.route r } }
      else { x with sends := x.sends.modify (tag - 0x160) fun d => { d with route := settleFade d.route r } }
  | .bus b =>
    let r := framesOfMs (pN s n 0x104)
    s.updBus b fun x =>
      if tag = 0x100 then { x with byp := settleFade x.byp r }
      else { x with dests := x.dests.modify (tag - 0x130) fun d => { d with route := settleFade d.route r } }
  | _ => s

/-- A ramp whose last sample is done rests at its target (R201). -/
def restRamp (r : Ramp) : Ramp := if r.done then Ramp.const r.g1 else r

/-- The gain ramp that a tag of a node names comes to rest (R201). -/
def endRamp (n : Node) (tag : Nat) (s : State) : State :=
  match n with
  | .feed f => s.updFeed f fun x => { x with trim := restRamp x.trim }
  | .channel c =>
    s.updChan c fun x =>
      if tag = 0x102 || tag = 0x103 then { x with trim := restRamp x.trim }
      else if tag = 0x137 then { x with makeup := restRamp x.makeup }
      else if tag = 0x150 then { x with mute := restRamp x.mute }
      else if tag = 0x151 then { x with fader := restRamp x.fader }
      else if tag = 0x153 then { x with direct := { x.direct with level := restRamp x.direct.level } }
      else { x with sends := x.sends.modify (tag - 0x160) fun d => { d with level := restRamp d.level } }
  | .bus b =>
    s.updBus b fun x =>
      if tag = 0x101 then { x with gain := restRamp x.gain }
      else if tag = 0x102 then { x with mute := restRamp x.mute }
      else if tag = 0x106 then { x with scale := restRamp x.scale }
      else { x with dests := x.dests.modify (tag - 0x130) fun d => { d with level := restRamp d.level } }
  | .object o =>
    { s with render := { s.render with
        objs := s.render.objs.map fun x => if x.n == o then { x with gain := restRamp x.gain } else x } }
  | _ => s

/-- RAMP_END (R201). -/
def execRampEnd (n : Node) (tag : Nat) (s : State) : Host.Outcome State Fault Refusal := .next (endRamp n tag s)

end Sys2Proof.Machine
end

