-- ==== Sys2Proof/Machine/Ports.lean ====
section
/-! DEFINITION. The sample ports (09): acquisition and clock checks, slots, AES3 frames and channel status, microphones, and
the fades and ramps of port channels. -/

namespace Sys2Proof.Machine

/-! ### Access -/

def State.saiAt (s : State) (n : Nat) : Option SaiPort := s.sais.find? fun x => x.n == n
def State.updSai (s : State) (n : Nat) (f : SaiPort → SaiPort) : State :=
  { s with sais := s.sais.map fun x => if x.n == n then f x else x }
def State.aesiAt (s : State) (n : Nat) : Option AesIn := s.aesis.find? fun x => x.n == n
def State.updAesi (s : State) (n : Nat) (f : AesIn → AesIn) : State :=
  { s with aesis := s.aesis.map fun x => if x.n == n then f x else x }
def State.updAeso (s : State) (n : Nat) (f : AesOut → AesOut) : State :=
  { s with aesos := s.aesos.map fun x => if x.n == n then f x else x }
def State.pdmAt (s : State) (n : Nat) : Option Pdm := s.pdms.find? fun x => x.n == n
def State.updPdm (s : State) (n : Nat) (f : Pdm → Pdm) : State :=
  { s with pdms := s.pdms.map fun x => if x.n == n then f x else x }
def State.gearAt (s : State) (g : GearId) : Option Gear := s.gears.find? fun x => x.id == g
def State.updGear (s : State) (g : GearId) (f : Gear → Gear) : State :=
  { s with gears := s.gears.map fun x => if x.id == g then f x else x }

/-- The node and the gear channel of a port. -/
def portNode : PortId → Node
  | .sai n => .sai n
  | .aesi n => .aesi n
def portGear : PortId → GearId
  | .sai n => .sai n
  | .aesi n => .aesi n
def gearNode : GearId → Node
  | .sai n => .gearSai n
  | .aesi n => .gearAesi n
  | .pdm n => .gearPdm n

def State.portAt (s : State) : PortId → Option PortSt
  | .sai n => (s.saiAt n).map SaiPort.st
  | .aesi n => (s.aesiAt n).map AesIn.st
def State.updPort (s : State) (p : PortId) (f : PortSt → PortSt) : State :=
  match p with
  | .sai n => s.updSai n fun x => { x with st := f x.st }
  | .aesi n => s.updAesi n fun x => { x with st := f x.st }

/-- Sample rate of a RATE code in Hz (R315). -/
def rateHz (code : Nat) : Nat := [48000, 8000, 16000, 22050, 24000, 32000, 44100, 96000].getD code 48000
def portHz (s : State) (p : PortId) : Nat := rateHz (pN s (portNode p) 0x102)

/-- The R314 index of a port channel. -/
def chanIndex (p : PortId) (slot : Nat) : Nat :=
  match p with
  | .sai n => n * 256 + slot
  | .aesi n => 0x1000 + n * 256 + slot

/-! ### Periods (R317, R318, R323, R324) -/

/-- An edge lies within 8 ticks of `b + k * 24 576 000 / R`, exactly (R323, R324). -/
def nearEdge (hz b k start : Nat) : Bool :=
  decide ((((start : Int) - b) * hz - k * 24576000).natAbs ≤ 8 * hz)

/-- The predicted edge, in whole ticks. -/
def predicted (hz b k : Nat) : Nat := b + k * 24576000 / hz

/-- The reference instant of the period predicted `k` periods after the base (R318). -/
def refInstant (hz : Nat) (p : PortSt) (k : Nat) : Nat :=
  predicted hz p.base k + (if p.late then 512 else 0) - p.phase

/-- A port with a period received: `good` for the right BCLK count or a preamble, `code` the anomaly otherwise. -/
def periodStep (hz : Nat) (holdover good : Bool) (code start : Nat) (p : PortSt) : PortSt :=
  let p := { p with last := start }
  match p.state with
  | 1 =>
    if good && p.clean ≠ 0 && nearEdge hz p.first p.clean start then
      { p with clean := p.clean + 1, base := if p.clean + 1 = 480 then start else p.base,
               count := if p.clean + 1 ≤ 480 then 0 else p.count + 1 }
    else if good && decide (p.first ≤ start) then { p with clean := 1, first := start }
    else { p with clean := 0 }
  | 2 =>
    let k := p.count + 1
    let bad := if !good then some code else if nearEdge hz p.base k start then none else some 2
    { p with count := k, anomaly := match p.anomaly, bad with
      | some a, _ => some a
      | none, some c => some (c, refInstant hz p k)
      | none, none => none }
  | 3 => if good then { p with state := 1, clean := 1, first := start } else p
  | 4 => if holdover then p else { p with state := 1, clean := if good then 1 else 0, first := start }
  | _ => p

/-- A period's samples into the FIFO of 32 words: the port, and whether they found no room (R20, R324). -/
def fifoPush (hz : Nat) (start : Nat) (ws : List Int) (p : PortSt) : PortSt × Bool :=
  if 32 < (p.fifo.length + 1) * ws.length then
    ({ p with anomaly := if p.state = 2 && p.anomaly.isNone then some (4, refInstant hz p p.count) else p.anomaly }, true)
  else ({ p with fifo := p.fifo ++ [(start, ws)] }, false)

/-- The reference instant of a FIFO entry, from its edge within the tolerance. -/
def entryInstant (p : PortSt) (start : Nat) : Int :=
  let k : Int := (2 * ((start : Int) - p.base) + 512) / 1024
  (p.base : Int) + 512 * k + (if p.late then 512 else 0) - p.phase

/-- The hub takes the input word of tick `t` (R13, R318, R324): the port, the samples, and whether they were missing. -/
def fifoTake (t : Nat) (p : PortSt) : PortSt × List Int × Bool :=
  if p.state = 2 then
    match p.fifo.find? fun e => entryInstant p e.1 + 1024 == (t : Int) with
    | some e => ({ p with fifo := p.fifo.filter fun x => decide ((t : Int) < entryInstant p x.1 + 1024) }, e.2, false)
    | none => ({ p with anomaly := if p.anomaly.isNone then some (3, t - 1024) else p.anomaly }, [], true)
  else
    ({ p with fifo := p.fifo.filter fun e => decide (t < e.1 + 1024) }, [],
      p.muteAt.isSome && !p.fifo.any fun e => decide (t ≤ e.1 + 1536))

/-- The sample of a TDM slot word: its first BITS bits (R320). -/
def slotSample (bits : Nat) (w : Word) : Int := w.toInt / 2 ^ (32 - bits) * 2 ^ (32 - bits)

/-- An output sample rounded to BITS bits (R320). -/
def roundBits (bits : Nat) (z : Int) : Int :=
  if bits = 32 then z else min ((z + 2 ^ (31 - bits)) / 2 ^ (32 - bits)) (2 ^ (bits - 1) - 1) * 2 ^ (32 - bits)

/-- SLOTS, RX_MASK and TX_MASK take effect at the slot change point (R322). -/
def slotChangeAt (s : State) (start : Nat) (x : SaiPort) : SaiPort :=
  match x.change with
  | some b =>
    if b ≤ start then
      { x with slots := pN s (.sai x.n) 0x105, rxMask := pN s (.sai x.n) 0x106, txMask := pN s (.sai x.n) 0x107,
               change := none }
    else x
  | none => x

/-- A gear channel gets the words of a period (R346). -/
def gearFeed (g : GearId) (ws : List Int) (s : State) : State :=
  s.updGear g fun x =>
    let ws := if x.muteAt.isSome then ws.map fun _ => 0 else ws
    { x with words := ws.zipIdx.map (fun e => (e.1 :: x.words.getD e.2 []).take 256), count := x.count + 1 }

/-- The slots of a period as samples: those of RX_MASK (R320). -/
def maskedSlots (bits mask slots : Nat) (words : List Word) : List Int :=
  (List.range slots).map fun i => if bitOf mask i then slotSample bits (words.getD i 0#32) else 0

/-- TDM_PERIOD (R317 to R324): one complete FSYNC period of a port, with its BCLK edges and its slot words. -/
def execTdmPeriod (n start bclks : Nat) (words : List Word) (s : State) : Host.Outcome State Fault Refusal :=
  match s.saiAt n with
  | none => .next s
  | some x =>
    let x := slotChangeAt s start x
    let hz := portHz s (.sai n)
    let st := periodStep hz s.clk.holdover (bclks == 32 * x.slots) 1 start x.st
    let ws := maskedSlots (pN s (.sai n) 0x103) x.rxMask x.slots words
    if hz ≠ 48000 then
      .next (gearFeed (.sai n) ws (s.updSai n fun _ => { x with st := st, bcnt := min bclks 1023 }))
    else
      let q := fifoPush hz start ws st
      .next (s.updSai n fun _ =>
        { x with st := q.1, bcnt := min bclks 1023, slip := x.slip || q.2,
                 excess := if q.2 then satAdd32 x.excess x.slots else x.excess })

/-- SLOT_CHANGE (R322): the first period of a port whose start edge is at or after B. -/
def execSlotChange (n start : Nat) (s : State) : Host.Outcome State Fault Refusal :=
  .next (s.updSai n (slotChangeAt s start))

/-! ### AES3 frames (R331, R333, R334) -/

/-- One byte into the CRCC of AES3, least significant bit first. The rule names AES3; polynomial and start value are
PRESUMED from that standard, log 25. -/
def crccBits : Nat → Nat → Nat → Nat
  | 0, c, _ => c
  | k + 1, c, b =>
    let c' := if (c % 2 + b % 2) % 2 = 1 then Nat.xor (c / 2) 0xB8 else c / 2
    crccBits k c' (b / 2)

/-- The CRCC over bytes. -/
def crcc (bs : List Nat) : Nat := bs.foldl (fun c b => crccBits 8 c b) 0xFF

/-- The bytes of a channel status block of 6 words. -/
def csBytes (ws : List Word) : List Nat := textBytes ws

/-- A word of 32 C bits, first bit lowest. -/
def bitsWord (bs : List Bool) : Word := wd (bs.foldr (fun b acc => b2n b + 2 * acc) 0)

/-- 192 C bits, oldest first, as the 6 words of CS_A or CS_B (R334). -/
def blockWords (bs : List Bool) : List Word := (List.range 6).map fun i => bitsWord ((bs.drop (32 * i)).take 32)

/-- A complete block is accepted (R334). -/
def blockGood (before ws : List Word) : Bool :=
  let bs := csBytes ws
  if bs.getD 0 0 % 2 = 1 then bs.getD 23 0 == crcc (bs.take 23) else ws == before

/-- A complete block of channel `ch` (R334). -/
def completeBlock (n ch : Nat) (s : State) : State :=
  match (s.aesiAt n).bind fun x => x.chans[ch]? with
  | none => s
  | some c =>
    let ws := blockWords c.bits.reverse
    let good := blockGood c.before ws
    let s := s.updAesi n fun x => { x with chans := x.chans.set ch ({ c with before := ws, held := if good then ws else c.held }) }
    if good && ws != c.held then
      raiseNode 0x5004 .detect s.clk.tally (some (.aesi n)) 0xF ch [{ tag := 0x90, vals := ws }] s
    else s

/-- A sample of a subframe, or the previous one of its channel (R331, R333). -/
def subSample (f : Subframe) (prev : Int) : Int := if f.parity || f.biph then prev else (wd (256 * (f.sample % 2 ^ 24))).toInt

/-- One subframe of a channel; `p` is the reference instant of its frame (R333). -/
def subStep (p : Nat) (f : Subframe) (c : AesChan) : AesChan :=
  { c with prev := subSample f c.prev, v := f.v, vRun := if f.v then 0 else min (c.vRun + 1) 480,
           vSeen := if f.v && c.vSeen.isNone && c.vMute.isNone then some p else c.vSeen }

/-- The block position after a frame (R334): the new count, whether a block is complete, and whether sync is lost. -/
def blockStep (pre : Preamble) : Option Nat → Option Nat × Bool × Bool
  | none => (if pre = .z then some 1 else none, false, false)
  | some k =>
    match pre with
    | .z => (some 1, k == 192, k != 192)
    | .x => if k < 192 then (some (k + 1), false, false) else (none, false, true)
    | .lost => (none, false, false)

/-- The C bit of a frame joins the block being collected (R334). -/
def collectBit (sinceZ : Option Nat) (bit : Bool) (c : AesChan) : AesChan :=
  { c with bits := match sinceZ with
    | none => []
    | some k => if k = 1 then [bit] else bit :: c.bits }

/-- AES3_FRAME (R331 to R334): one received frame. -/
def execAes3Frame (n start : Nat) (pre : Preamble) (a b : Subframe) (s : State) : Host.Outcome State Fault Refusal :=
  match s.aesiAt n with
  | none => .next s
  | some x =>
    let hz := portHz s (.aesi n)
    let st := periodStep hz s.clk.holdover (pre != .lost) 4 start x.st
    let p := refInstant hz st st.count
    let subs := [a, b]
    let par := (subs.filter Subframe.parity).length
    let bip := (subs.filter Subframe.biph).length
    let k := blockStep pre x.sinceZ
    let chans := (x.chans.zip subs).map fun e => subStep p e.2 e.1
    let s := s.updAesi n fun _ =>
      { x with st := st, chans := chans, parity := satAdd32 x.parity par, biph := satAdd32 x.biph bip,
               block := satAdd32 x.block (b2n k.2.2), fresh := x.fresh + par + bip + b2n k.2.2,
               flags := x.flags ||| (b2n (par != 0) + 2 * b2n (bip != 0) + 4 * b2n k.2.2) }
    let s := if k.2.1 then completeBlock n 1 (completeBlock n 0 s) else s
    let s := s.updAesi n fun y =>
      { y with sinceZ := k.1, chans := (y.chans.zip subs).map fun e => collectBit k.1 e.2.c e.1 }
    let ws := chans.map AesChan.prev
    if pre = .lost then .next s
    else if hz ≠ 48000 then .next (gearFeed (.aesi n) ws s)
    else .next (s.updAesi n fun y => { y with st := (fifoPush hz start ws y.st).1 })

/-- Start the ramp back of a channel muted by V (R333) at the boundary, after 480 frames with V = 0. -/
def rearmChan (b : Nat) (c : AesChan) : AesChan :=
  if c.vMute.isSome && c.vRun ≥ 480 then { c with vMute := none, vBack := some b, vSeen := none } else c

/-- A channel's mute begins at the boundary after its first sample with V = 1 (R325, R333). -/
def muteChan (b : Nat) (validity : Bool) (c : AesChan) : AesChan :=
  match c.vSeen with
  | none => c
  | some p => if validity then { c with vSeen := none, vMute := some (b, (p + 1024) / 512 % 16), vBack := none }
    else { c with vSeen := none }

/-- AES3_VALIDITY_REARM (R333). -/
def execAes3ValidityRearm (n ch : Nat) (s : State) : Host.Outcome State Fault Refusal :=
  if atFrame s then .next (s.updAesi n fun x => { x with chans := x.chans.modify ch (rearmChan s.clk.tally) }) else .next s

/-! ### Lock, mismatch, stop (R323 to R328) -/

/-- What a port has to do at the coming boundary. -/
inductive PortDue where
  | lock | mismatch | dead | none
deriving DecidableEq, Repr

def portDue (p : PortSt) : PortDue :=
  if p.stop.isSome && (p.state == 1 || p.state == 2 || p.state == 3) then .dead
  else if p.anomaly.isSome && p.state == 2 then .mismatch
  else if p.state == 1 && decide (480 ≤ p.clean) then .lock
  else .none

/-- k0 of a reference instant (R325). -/
def k0Of (p : Nat) : Nat := (p + 1024) / 512 % 16

/-- The channel's fade is marked for the frame of this boundary when the port was LOCKED. -/
def muteNow (b k0 : Nat) (p : PortSt) : Option (Nat × Nat) := if p.state = 2 then some (b, k0) else p.muteAt

/-- A port's change of state at a boundary (R325, R326, R328), with its event and what the gear unit sees (R350, R353). -/
def settlePort (id : PortId) (s : State) : State :=
  match s.portAt id with
  | none => s
  | some p =>
    let b := lastBoundary s
    let node := some (portNode id)
    match portDue p with
    | .none => s
    | .lock =>
      let phase := p.base % 512
      let late := decide (448 ≤ phase)
      let s := s.updPort id fun p =>
        { p with state := 2, phase := phase, late := late, lockedAt := b, anomaly := none, stop := none, muteAt := none }
      let s := raiseOwn 0x5001 .boundary b node (phase + (if late then 0x8000 else 0)) s
      s.updGear (portGear id) fun g =>
        { g with want := some (match g.want with | some (r, m) => (min r 2, m) | none => (2, 0xF)), ta := p.first,
                 muteAt := none }
    | .mismatch =>
      let a := p.anomaly.getD (0, 0)
      let s := s.updPort id fun p =>
        { p with state := 3, muteAt := muteNow b (k0Of a.2) p, faults := satAdd32 p.faults 1, anomaly := none, clean := 0 }
      let s := raiseOwn 0x5002 .block (b - 8192) node (a.1 + 16 * k0Of a.2) s
      s.updGear (portGear id) fun g => { g with muteAt := if g.muteAt.isSome then g.muteAt else some b }
    | .dead =>
      let a := p.stop.getD (0, 0)
      let s := s.updPort id fun p =>
        { p with state := 4, muteAt := muteNow b (k0Of a.2) p, faults := satAdd32 p.faults 1, anomaly := none, stop := none,
                 clean := 0, fifo := [] }
      let s := raiseOwn 0x5003 .block (b - 8192) node (a.1 + 16 * k0Of a.2) s
      s.updGear (portGear id) fun g => { g with muteAt := if g.muteAt.isSome then g.muteAt else some b }

/-- PORT_LOCKED (R326), PORT_MISMATCH (R325), PORT_DEAD (R328) at a frame boundary. -/
def settleIf (due : PortDue) (id : PortId) (s : State) : Host.Outcome State Fault Refusal :=
  if atFrame s && ((s.portAt id).map portDue) == some due then .next (settlePort id s) else .next s
def execPortLocked (p : PortId) (s : State) : Host.Outcome State Fault Refusal := settleIf .lock p s
def execPortMismatch (p : PortId) (s : State) : Host.Outcome State Fault Refusal := settleIf .mismatch p s
def execPortDead (p : PortId) (s : State) : Host.Outcome State Fault Refusal := settleIf .dead p s

/-- Mark a port as stopped (R328). -/
def stopPort (hz reason : Nat) (p : PortSt) : PortSt :=
  if p.stop.isNone then { p with stop := some (reason, refInstant hz p (p.count + 1)) } else p

/-- PORT_STOP_DETECT (R328): reason 1 BCLK, 2 FSYNC, 3 AES3 preamble. -/
def execPortStopDetect (p : PortId) (reason : Nat) (s : State) : Host.Outcome State Fault Refusal :=
  match s.portAt p with
  | none => .next s
  | some st =>
    let right := match p with
      | .sai _ => reason == 1 || reason == 2
      | .aesi _ => reason == 3
    let quiet := reason == 1 || decide (st.last + 1024 ≤ s.clk.tally)
    if right && quiet && (st.state == 1 || st.state == 2 || st.state == 3) then
      .next (s.updPort p (stopPort (portHz s p) reason))
    else .next s

/-- At the boundary of holdover, ports without an edge since MCLK was lost stop (R25, R328). -/
def stopQuietPorts (s : State) : State :=
  let ids := (s.sais.map fun x => PortId.sai x.n) ++ s.aesis.map fun x => PortId.aesi x.n
  ids.foldl (fun s id =>
    match s.portAt id with
    | none => s
    | some p => if p.last ≤ s.clk.lostAt then settlePort id (s.updPort id (stopPort (portHz s id) 4)) else s) s

/-! ### Gains of port channels (R325, R326, R333) -/

/-- The gain of a mute that began at boundary `d` with `k0`, in the block dispatched at `b` (R325). -/
def fadeGain (d k0 b k : Nat) : Rat :=
  if b = d && decide (k < k0) then ((k0 - k : Nat) : Rat) / ((k0 + 1 : Nat) : Rat) else 0

/-- The gain of a ramp of 960 samples that began with the frame of boundary `l` (R326). -/
def rampGain (l b k : Nat) : Rat :=
  let i := (b - l) / 512 + k
  if i + 1 ≥ 960 then 1 else ((i + 1 : Nat) : Rat) / 960

/-- Gain of sample `k` of a port's input channels in the block dispatched at `b`. -/
def portGainIn (p : PortSt) (b k : Nat) : Rat :=
  if p.state = 2 then rampGain p.lockedAt b k
  else
    match p.muteAt with
    | some (d, k0) => if b = d then fadeGain d k0 b k * rampGain p.lockedAt b k else 0
    | none => 0

/-- Gain of sample `k` of a port's output slots in the frame computed from boundary `b`: zero before the first boundary LOCKED, then the
ramp; the frame computed from the boundary of a mismatch falls to zero (R325, R326). -/
def portGainOut (p : PortSt) (b k : Nat) : Rat :=
  if b < p.lockedAt then 0
  else if p.state = 2 then rampGain p.lockedAt b k
  else
    match p.muteAt with
    | some (d, _) =>
      if b < d then rampGain p.lockedAt b k
      else if b = d then (1 - ((k + 1 : Nat) : Rat) / 16) * rampGain p.lockedAt b k
      else 0
    | none => 0

/-- Gain of a channel under VALIDITY (R333). -/
def validGain (c : AesChan) (b k : Nat) : Rat :=
  match c.vMute, c.vBack with
  | some (d, k0), _ => if b = d then fadeGain d k0 b k else 0
  | none, some l => rampGain l b k
  | none, none => 1

/-- A sample times a gain, reduced once. -/
def scaleSample (x : Int) (g : Rat) : Int := if g = 1 then x else (reduceRat ((x : Rat) * g)).1

/-- The input block of port channels with their gains, as it is dispatched at `b`. -/
def portBlock (s : State) (b : Nat) (blk : List (Word × List Int)) : List (Word × List Int) :=
  blk.map fun e =>
    if fld e.1 28 4 ≠ 2 then e
    else
      let n := fld e.1 8 4
      let gain (k : Nat) : Rat :=
        if fld e.1 12 1 = 0 then
          match s.saiAt n with
          | some x => portGainIn x.st b k
          | none => 0
        else
          match s.aesiAt n with
          | some x =>
            portGainIn x.st b k *
              (match x.chans[fld e.1 0 5]? with | some c => validGain c b k | none => 0)
          | none => 0
      (e.1, e.2.zipIdx.map fun p => scaleSample p.1 (gain p.2))

/-! ### Microphones (R337 to R340) -/

/-- PDM_STUCK (R340): 1024 equal bits; DEAD from the next frame boundary. -/
def execPdmStuck (m : Nat) (bit : Bool) (s : State) : Host.Outcome State Fault Refusal :=
  match s.pdmAt m with
  | none => .next s
  | some x =>
    if (x.state == 1 || x.state == 2) && x.deadAt.isNone then
      .next (raiseOwn 0x5006 .detect s.clk.tally (some (.pdm m)) (b2n bit)
        (s.updPdm m fun x => { x with deadAt := some (boundaryFrom (s.clk.tally + 1)), backAt := none }))
    else .next s

/-- PDM_RECOVER (R340): 480 samples of bits without such a run; it leaves DEAD at the next frame boundary. -/
def execPdmRecover (m : Nat) (s : State) : Host.Outcome State Fault Refusal :=
  match s.pdmAt m with
  | none => .next s
  | some x =>
    if x.state = 4 && x.backAt.isNone then
      .next (s.updPdm m fun x => { x with backAt := some (boundaryFrom (s.clk.tally + 1)) })
    else .next s

/-- A gear channel's reset asked for at a boundary: the lowest reason prevails (R352). -/
def wantReset (g : GearId) (reason mb : Nat) (s : State) : State :=
  s.updGear g fun x => { x with want := some (match x.want with
    | some (r, m) => if r ≤ reason then (r, m) else (reason, mb)
    | none => (reason, mb)) }

/-- A microphone at a boundary: into DEAD, out of it, and RUNNING once its gear channel is warm (R339, R340). -/
def settlePdm (m : Nat) (s : State) : State :=
  let b := lastBoundary s
  match s.pdmAt m with
  | none => s
  | some x =>
    if x.deadAt.any fun t => decide (t ≤ b) then
      if x.state = 0 then s.updPdm m fun x => { x with deadAt := none }
      else
        (s.updPdm m fun x => { x with state := 4, stuck := satAdd32 x.stuck 1, flag := true, deadAt := none }).updGear (.pdm m)
          fun g => { g with muteAt := some b }
    else if x.state == 4 && x.backAt.any fun t => decide (t ≤ b) then
      wantReset (.pdm m) 4 0xF ((s.updPdm m fun x => { x with state := 1, backAt := none }).updGear (.pdm m)
        fun g => { g with muteAt := none })
    else s

/-! ### Committed writes (R97, R321, R322, R335, R339) -/

/-- A write of TX_FEED n: a route fade over ROUTE_RAMP (R321). -/
def txAsk (mb : Nat) (n : Node) (tag : Nat) (l : List (Fade Nat)) (s : State) : List (Fade Nat) × Bool :=
  match l[tag - 0x110]? with
  | none => (l, false)
  | some f => let r := routeAsk f (pN s n tag) (framesOfMs (pN s n 0x109)); (l.set (tag - 0x110) r.1, r.2 && mb ≤ 15)

/-- What a committed write of a port parameter does at its boundary. -/
def applyPort (mb : Nat) (n : Node) (tag : Nat) (s : State) : State :=
  match n with
  | .sai k =>
    if 0x105 ≤ tag ∧ tag ≤ 0x107 then s.updSai k fun x => { x with change := some (lastBoundary s) }
    else if 0x110 ≤ tag ∧ tag < 0x120 then
      match s.saiAt k with
      | none => s
      | some x =>
        let r := txAsk mb n tag x.tx s
        let s := s.updSai k fun x => { x with tx := r.1 }
        if r.2 then fadeReplaced mb n tag s else s
    else s
  | .aeso k =>
    if 0x101 ≤ tag ∧ tag ≤ 0x103 then s.updAeso k fun x => { x with change := some (lastBoundary s) }
    else if 0x110 ≤ tag ∧ tag < 0x112 then
      match s.aesos.find? fun x => x.n == k with
      | none => s
      | some x =>
        let r := txAsk mb n tag x.tx s
        let s := s.updAeso k fun x => { x with tx := r.1 }
        if r.2 then fadeReplaced mb n tag s else s
    else s
  | .pdm k =>
    if tag = 0x101 then
      match s.pdmAt k with
      | none => s
      | some x =>
        if pN s n tag = 0 then s.updPdm k fun x => { x with state := 0, deadAt := none, backAt := none }
        else if x.state = 4 then s
        else wantReset (.pdm k) 3 0xF (s.updPdm k fun x => { x with state := 1 })
    else s
  | _ => s

/-- R181 for the TX_FEED fades. -/
def settleTx (s : State) : State :=
  { s with
    sais := s.sais.map fun x => { x with tx := x.tx.map fun f => settleFade f (framesOfMs (pN s (.sai x.n) 0x109)) },
    aesos := s.aesos.map fun x => { x with tx := x.tx.map fun f => settleFade f (framesOfMs (pN s (.aeso x.n) 0x109)) } }

/-- One TX_FEED fade ended when due. -/
def endTx (n : Node) (tag : Nat) (s : State) : State :=
  let f (l : List (Fade Nat)) : List (Fade Nat) :=
    l.modify (tag - 0x110) fun x => settleFade x (framesOfMs (pN s n 0x109))
  match n with
  | .sai k => s.updSai k fun x => { x with tx := f x.tx }
  | .aeso k => s.updAeso k fun x => { x with tx := f x.tx }
  | _ => s

/-! ### AES3 outputs (R332, R335) -/

/-- A block start at the frame of tick `q`: CS_MODE, CS_A and CS_B committed for it or before are taken (R335). -/
def blockStart (s : State) (q : Nat) (x : AesOut) : AesOut :=
  match x.change with
  | some b =>
    if b ≤ q then
      { x with mode := pN s (.aeso x.n) 0x101, csA := param s (.aeso x.n) 0x102, csB := param s (.aeso x.n) 0x103,
               change := none }
    else x
  | none => x

/-- Bit `i` of the block sent, byte 23 computed under AUTO_CRC (R335). -/
def csBit (mode : Nat) (cs : List Word) (i : Nat) : Bool :=
  let bs := csBytes cs
  if mode % 2 = 1 && 184 ≤ i then bitOf (crcc (bs.take 23)) (i - 184) else bitOf (bs.getD (i / 8) 0) (i % 8)

/-- AES3_OUT_BLOCK_START (R335): at a sample boundary whose number is a multiple of 192. -/
def execAes3OutBlockStart (n : Nat) (s : State) : Host.Outcome State Fault Refusal :=
  if s.clk.tally % (192 * 512) = 0 then .next (s.updAeso n (blockStart s s.clk.tally)) else .next s

/-! ### Admission (R323, R330) -/

/-- A port at its admission boundary: it enters ACQUIRING, and the first period of the acquisition starts from there on. -/
def PortSt.new (now : Nat) (id : PortId) : PortSt :=
  { id := id, state := 1, clean := 0, first := now, base := 0, count := 0, phase := 0, late := false, last := 0,
    anomaly := none, stop := none, lockedAt := 0, muteAt := none, faults := 0, fifo := [] }

def newSai (s : State) (n : Nat) : SaiPort :=
  { n := n, st := PortSt.new s.clk.tally (.sai n), slots := pN s (.sai n) 0x105, rxMask := pN s (.sai n) 0x106,
    txMask := pN s (.sai n) 0x107, change := none,
    tx := (List.range 16).map fun i => Fade.const (pN s (.sai n) (0x110 + i)), missing := 0, excess := 0, slip := false,
    bcnt := 0, dout := [] }

def AesChan.new : AesChan :=
  { prev := 0, vSeen := none, vMute := none, vRun := 0, vBack := none, v := false, bits := [],
    before := List.replicate 6 0#32, held := List.replicate 6 0#32 }

def newAesi (s : State) (n : Nat) : AesIn :=
  { n := n, st := PortSt.new s.clk.tally (.aesi n), chans := [AesChan.new, AesChan.new], sinceZ := none, parity := 0, biph := 0,
    block := 0, fresh := 0, flags := 0 }

def newPdm (s : State) (n : Nat) : Pdm :=
  { n := n, state := if pN s (.pdm n) 0x101 = 1 then 1 else 0, stuck := 0, flag := false, deadAt := none, backAt := none }

/-! ### Read-only values (R315) -/

def roPort (s : State) (n : Node) (tag : Nat) : List Word :=
  let common (p : PortSt) : List Word :=
    if tag = 0x180 then w1 p.state else if tag = 0x181 then w1 (p.phase + 65536 * b2n p.late) else w1 p.faults
  match n with
  | .sai k =>
    match s.saiAt k with
    | none => w1 0
    | some x =>
      if tag = 0x183 then [wd x.missing, 0#32] else if tag = 0x184 then [wd x.excess, 0#32] else common x.st
  | .aesi k =>
    match s.aesiAt k with
    | none => w1 0
    | some x =>
      if tag = 0x186 then ((x.chans[0]?).map AesChan.held).getD []
      else if tag = 0x187 then ((x.chans[1]?).map AesChan.held).getD []
      else if tag = 0x188 then w1 (sumNat (x.chans.zipIdx.map fun e => b2n e.1.v * 2 ^ e.2))
      else if tag = 0x189 then [wd x.parity, wd x.biph, wd x.block] else common x.st
  | .aeso _ => w1 (if bitOf s.boot.domains 10 then 2 else 0)
  | .pdm k => w1 (((s.pdmAt k).map fun x => if tag = 0x180 then x.state else x.stuck).getD 0)
  | _ => []

end Sys2Proof.Machine
end

