-- ==== Sys2Proof/Machine/Gear.lean ====
section
/-! DEFINITION. The gear unit (10): delays and settle lengths, synchronising resets and WARMUP, filter fades, output blocks and
ALARM passes. The filters are fixed in a ROM whose contents the spec does not give: a converted sample is a value of
Config.gearSample, a microphone's sample a free value, since no command carries its bits (log 12). -/

namespace Sys2Proof.Machine

/-! ### The table of R347 -/

/-- Kind of a gear source: a RATE code of R315, or 8 for PDM. -/
def gearKind (s : State) : GearId → Nat
  | .sai n => pN s (.sai n) 0x102
  | .aesi n => pN s (.aesi n) 0x102
  | .pdm _ => 8

/-- G in samples, linear and minimum phase; settle length in blocks; engine cycles per channel and frame. -/
def gearG (kind filter : Nat) : Nat :=
  if filter = 0 then [0, 68, 53, 51, 48, 39, 32, 30, 33].getD kind 0 else [0, 20, 17, 16, 16, 15, 15, 14, 14].getD kind 0
def gearSettle (kind : Nat) : Nat := [0, 8, 6, 6, 6, 5, 4, 3, 4].getD kind 0
def gearCost (kind : Nat) : Nat := [0, 56, 72, 88, 88, 88, 88, 152, 200].getD kind 0

/-- SETTLE with WAKE in whole blocks (R351, R357). -/
def gearSettleAll (s : State) (g : GearId) : Nat :=
  gearSettle (gearKind s g) + (match g with | .pdm n => framesOfMs (pN s (.pdm n) 0x102) | _ => 0)

/-- The R343 indices of a gear channel's outputs. -/
def gearIndices (s : State) : GearId → List Nat
  | .sai n => (List.range (((s.saiAt n).map SaiPort.slots).getD 0)).map fun i => chanIndex (.sai n) i
  | .aesi n => [chanIndex (.aesi n) 0, chanIndex (.aesi n) 1]
  | .pdm n => [0x2000 + n]

/-- A gear channel's FILTER as committed, and the frames of its XFADE. -/
def gearFilter (s : State) (g : GearId) : Nat := pN s (gearNode g) 0x101
def gearXfade (s : State) (g : GearId) : Nat := framesOfMs (pN s (gearNode g) 0x102)

/-! ### Resets, WARMUP and filter changes (R349 to R352) -/

/-- The synchronising reset of boundary `b` (R350 to R352). -/
def gearReset (reason mb : Nat) (id : GearId) (s : State) : State :=
  let b := lastBoundary s
  let n := gearSettleAll s id
  let s := s.updGear id fun g =>
    { g with
      want := none, warmTo := some (b + frames n), warmAll := n, byLock := g.byLock || reason == 2, rampAt := none,
      filter := { Fade.const (gearFilter s id) with replaced := g.filter.replaced }, resets := satAdd32 g.resets 1,
      words := [], count := 0, frozen := [], fcount := 0 }
  raiseNode 0x6001 .boundary b (some (gearNode id)) (if reason = 5 then mb else 0xF) reason [] s

/-- GEAR_FADE_STARTED (R349). -/
def gearFadeStarted (id : GearId) (f : Nat) (s : State) : State :=
  raiseOwn 0x6003 .boundary (lastBoundary s) (some (gearNode id)) f s

/-- R181 steps 1 and 2 for a filter fade. -/
def settleFilter (id : GearId) (s : State) : State :=
  match s.gearAt id with
  | none => s
  | some g =>
    let s := if g.filter.due then
        raiseOwn 0x6004 .boundary (lastBoundary s) (some (gearNode id)) g.filter.new
          (s.updGear id fun g => { g with filter := g.filter.finish })
      else s
    match s.gearAt id with
    | none => s
    | some g =>
      match g.filter.pending with
      | none => s
      | some f =>
        if g.filter.running then s
        else gearFadeStarted id f (s.updGear id fun g => { g with filter := g.filter.test (gearXfade s id) })

/-- A commit of FILTER applied at the boundary, after any reset of the same boundary (R349, R352). -/
def applyFilter (id : GearId) (mb : Nat) (s : State) : State :=
  match s.gearAt id with
  | none => s
  | some g =>
    let f := gearFilter s id
    if g.warmTo.isSome then
      s.updGear id fun g => { g with ask := none, filter := { Fade.const f with replaced := g.filter.replaced } }
    else
      let started := !g.filter.running && g.filter.pending.isNone
      let h := g.filter.request f (gearXfade s id)
      let s := s.updGear id fun g => { g with ask := none, filter := h.1 }
      if h.2 then raiseNode 0x6005 .boundary (lastBoundary s) (some (gearNode id)) mb (low16 h.1.replaced) [] s
      else if started then gearFadeStarted id f s else s

/-- WARMUP ends at the first block without it: GEAR_WARM, the ramp of R326 after a lock, and a microphone RUNNING (R351). -/
def endWarm (id : GearId) (s : State) : State :=
  match s.gearAt id with
  | none => s
  | some g =>
    let b := lastBoundary s
    match g.warmTo with
    | none => s
    | some w =>
      if w ≤ b then
        let s := s.updGear id fun g => { g with warmTo := none, rampAt := if g.byLock then some w else none }
        let s := match id with
          | .pdm n => s.updPdm n fun x => if x.state = 1 then { x with state := 2 } else x
          | _ => s
        raiseOwn 0x6002 .block b (some (gearNode id)) g.warmAll s
      else s

/-- A gear channel at a frame boundary: its input words are frozen for the block about to be computed (R346), then resets,
WARMUP, fades and filter commits. -/
def settleGear (id : GearId) (s : State) : State :=
  let s := s.updGear id fun g => { g with frozen := g.words, fcount := g.count }
  let s := match (s.gearAt id).bind Gear.want with
    | some (r, mb) => gearReset r mb id s
    | none => settleFilter id (endWarm id s)
  match (s.gearAt id).bind Gear.ask with
  | some mb => applyFilter id mb s
  | none => s

/-- GEAR_WARM (R351). -/
def execGearWarm (g : GearId) (s : State) : Host.Outcome State Fault Refusal :=
  if atFrame s then .next (endWarm g s) else .next s

/-- GEAR_FADE_DONE (R349). -/
def execGearFadeDone (g : GearId) (s : State) : Host.Outcome State Fault Refusal :=
  if atFrame s then .next (settleFilter g s) else .next s

/-- What a committed write of a gear parameter does (R349, R350): both take effect at the boundary, resets first. -/
def applyGear (mb : Nat) (id : GearId) (tag : Nat) (s : State) : State :=
  if tag = 0x101 then s.updGear id fun g => { g with ask := some mb }
  else if tag = 0x103 then wantReset id 5 mb s
  else s

/-! ### Output blocks (R344 to R346, R353) -/

/-- One converted sample: the input at reference instant `p` less G samples, relative to the newest word held (R344, R345). -/
def gearAt (s : State) (g : Gear) (slot filter p : Nat) : Int :=
  let kind := gearKind s g.id
  let hz := rateHz kind
  let at_ : Rat := ((p : Int) - 512 * (gearG kind filter : Int) - (g.ta : Int) : Int)
  Config.gearSample kind filter (at_ * (hz : Rat) / 24576000 - ((g.fcount : Nat) : Rat)) (g.frozen.getD slot [])

/-- Gain of sample `k` of the block with timestamp `t` (R351, R353). -/
def gearGain (g : Gear) (t k : Nat) : Rat :=
  let ramp : Rat := match g.rampAt with
    | some w => if t < w then 1 else rampGain w t k
    | none => 1
  match g.muteAt with
  | some d => if t < d then ramp else if t = d then (1 - ((k + 1 : Nat) : Rat) / 16) * ramp else 0
  | none => ramp

/-- A gear channel gives exact zeros in the block with timestamp `t`: WARMUP, no lock yet, or a microphone not enabled. -/
def gearSilent (s : State) (g : Gear) (t : Nat) : Bool :=
  (g.warmTo.any fun w => decide (t < w)) ||
    (match g.id with
    | .pdm n => ((s.pdmAt n).map fun x => x.state == 0).getD true
    | _ => !g.byLock)

/-- The output block of a gear channel for frame `t / 8192`: samples by index, drawing free words for a microphone. -/
def gearBlockOf (s : State) (g : Gear) (t : Nat) : List (Word × List Int) × Nat :=
  let idx := gearIndices s g.id
  let key (i : Nat) : Word := wd (0x40000000 + i)
  if gearSilent s g t then (idx.map fun i => (key i, List.replicate 16 0), 0)
  else
    let raw (e : Nat × Nat) (k : Nat) (f : Nat) : Int :=
      match g.id with
      | .pdm _ => (Config.freeWord (s.free + 16 * f + k)).toInt
      | _ => gearAt s g e.2 f (t + 512 * k - 1024)
    let sample (e : Nat × Nat) (k : Nat) : Int := scaleSample (g.filter.mix k (raw e k)) (gearGain g t k)
    (idx.zipIdx.map fun e => (key e.1, (List.range 16).map (sample e)),
      match g.id with | .pdm _ => 32 | _ => 0)

/-- The gear blocks with timestamp `t` join the input block of their frame; filter fades move on (R346). -/
def gearBlocks (t : Nat) (s : State) : State :=
  s.gears.foldl (fun s g =>
    let r := gearBlockOf s g t
    let warm := g.warmTo.any fun w => decide (t < w)
    let s := { s with free := s.free + r.2 }
    let s := s.updGear g.id fun g => { g with filter := g.filter.advance }
    { s with snd := { s.snd with inBlk := s.snd.inBlk ++ r.1,
                                 warm := s.snd.warm ++ (if warm then r.1.map (·.1) else []) } }) s

/-! ### ALARM passes and load (R354, R355) -/

/-- What the engine finds when passes of an ALARM channel differ (R354). -/
def gearDisagree (o : GearObs) (s : State) : State :=
  let stamp := lastBoundary s - 8192
  let count (g : Gear) : Gear := if gearNode g.id == o.node then { g with mismatches := satAdd32 g.mismatches 1 } else g
  let s := { s with gears := s.gears.map count }
  let s := { s with gearTop := { s.gearTop with mismatch := true, unresolved := s.gearTop.unresolved || o.vote == .neither } }
  match o.vote with
  | .passA => raiseOwn 0x6006 .block stamp (some o.node) 0 s
  | .passB => raiseOwn 0x6006 .block stamp (some o.node) 1 s
  | .neither => raiseOwn 0x6007 .block stamp (some o.node) 0 s

/-- Engine cycles of a channel in a frame: both paths of a fade, both passes of ALARM, and the deciding pass (R354 to R356). -/
def gearCycles (s : State) (obs : List GearObs) (g : Gear) : Nat :=
  let alarm := classOf s (gearNode g.id) == some 0
  let passes := (if alarm then 2 else 1) + b2n (obs.any fun o => o.node == gearNode g.id)
  (gearIndices s g.id).length * gearCost (gearKind s g.id) * (if g.filter.running then 2 else 1) * passes

/-- LOAD and PEAK of the last frame. -/
def gearLoad (obs : List GearObs) (s : State) : State :=
  let l := sumNat (s.gears.map (gearCycles s obs))
  { s with gearTop := { s.gearTop with load := l, peak := max s.gearTop.peak l } }

/-- Spoke cycles per frame at the clock in force (R18). -/
def cyclesPerFrame (mhz : Nat) : Nat := mhz * 1000000 / 3000

/-! ### Admission and read-only values -/

/-- A gear channel as the admission that creates its source starts it; the reset of reason 1 follows (R350). -/
def newGear (s : State) (id : GearId) : Gear :=
  { id := id, want := some (1, 0xF), ask := none, warmTo := none, warmAll := 0, byLock := false, ta := 0,
    filter := Fade.const (gearFilter s id), muteAt := none, rampAt := none, resets := 0, mismatches := 0, words := [],
    count := 0, frozen := [], fcount := 0 }

/-- STATE of R357. -/
def gearState (s : State) (g : Gear) : Nat :=
  let off : Bool := match g.id with
    | .pdm n => ((s.pdmAt n).map fun x => x.state == 0).getD true
    | _ => false
  if off then 0
  else if g.warmTo.isSome then 1
  else if (g.muteAt.any fun d => decide (d < lastBoundary s)) then 4
  else if g.filter.running then 3 else 2

def roGear (s : State) (n : Node) (tag : Nat) : List Word :=
  let one (id : GearId) : List Word :=
    match s.gearAt id with
    | none => w1 0
    | some g =>
      if tag = 0x180 then w1 (gearG (gearKind s id) g.filter.new)
      else if tag = 0x181 then w1 (gearSettleAll s id)
      else if tag = 0x182 then w1 (gearState s g)
      else if tag = 0x183 then w1 g.resets
      else if tag = 0x184 then w1 g.filter.replaced
      else w1 g.mismatches
  match n with
  | .gear =>
    if tag = 0x180 then w1 s.gearTop.load
    else if tag = 0x181 then w1 s.gearTop.peak else w1 (cyclesPerFrame s.clk.mhz - 2000)
  | .gearSai k => one (.sai k)
  | .gearAesi k => one (.aesi k)
  | .gearPdm k => one (.pdm k)
  | _ => []

end Sys2Proof.Machine
end

