-- ==== Sys2Proof/Machine/Net.lean ====
section
/-! DEFINITION. The network block (11): frames, queues, gates, PAUSE, 802.1CB, media offset, and AES67 streams; and the
datagrams of the network mailboxes (02 R57, R58). -/

namespace Sys2Proof.Machine

/-! ### MACs and counters (R397, R398) -/

def State.macAt (s : State) (n : Nat) : Mac := s.net.macs.getD n Mac.reset
def State.updMac (s : State) (n : Nat) (f : Mac → Mac) : State := { s with net := { s.net with macs := s.net.macs.modify n f } }
def State.updTx (s : State) (k : Nat) (f : TxStream → TxStream) : State :=
  { s with net := { s.net with txs := s.net.txs.map fun x => if x.s == k then f x else x } }
def State.updRx (s : State) (k : Nat) (f : RxStream → RxStream) : State :=
  { s with net := { s.net with rxs := s.net.rxs.map fun x => if x.s == k then f x else x } }
def State.rxAt (s : State) (k : Nat) : Option RxStream := s.net.rxs.find? fun x => x.s == k

/-- Counter `k` of MAC `n` rises by `d`: it wraps, and a change of bit 31 sets its HALF_STAT bit and, when enabled, raises
vector 16 + n (R397, R398). -/
def macCount (n k d : Nat) (s : State) : State :=
  let m := s.macAt n
  let old := m.cnt.getD k 0#32
  let new := old + wd d
  let half := old.getLsbD 31 != new.getLsbD 31
  let s := s.updMac n fun m =>
    { m with cnt := m.cnt.set k new, halfStat := if half then m.halfStat ||| wd (2 ^ k) else m.halfStat }
  raiseVecIf (half && m.halfEn.getLsbD k) (16 + n) s

/-- PAUSE_HELD_TICKS of a MAC, 64 bits (R378). -/
def heldTicks (m : Mac) : Nat := (m.cnt.getD 16 0#32).toNat + 2 ^ 32 * (m.cnt.getD 17 0#32).toNat

/-- The transmitter is paused at tick `t`: the pause has begun to count (R376, R377). -/
def pausedNow (m : Mac) : Bool := m.pause.isSome && m.sending.isNone

/-- Count paused time up to now (R378). -/
def flushHeld (n : Nat) (s : State) : State :=
  let m := s.macAt n
  if pausedNow m then
    let h := heldTicks m + (s.clk.tally - m.heldAt)
    let s := macCount n 16 ((wd h).toNat + 2 ^ 32 - (m.cnt.getD 16 0#32).toNat) s
    let s := macCount n 17 ((wd (h / 2 ^ 32)).toNat + 2 ^ 32 - (m.cnt.getD 17 0#32).toNat) s
    s.updMac n fun m => { m with heldAt := s.clk.tally }
  else s

/-- The MAC is in an admitted configuration. -/
def macAdmitted (s : State) (n : Nat) : Bool := admitted s (.net n)

/-- A network mailbox names the MAC, which no admission includes, and it has a bootstrap address (R61). -/
def macBoot (s : State) (n : Nat) : Bool :=
  !macAdmitted s n && s.nmbs.any (fun b => b.port != 0 && bitOf b.macs n) &&
    (((s.boot.nets[n]?).map fun b => b.ipv4 != 0#32).getD false)

/-- The MAC is in service: in the NET domain, admitted or under R61. -/
def macUp (s : State) (n : Nat) : Bool := bitOf s.boot.domains 8 && (macAdmitted s n || macBoot s n)

/-- SPEED, IPV4, VLAN and MAX_FRAME of a MAC: admitted, or its bootstrap attachment (R61). -/
def bootNet (s : State) (n : Nat) : NetBoot := s.boot.nets.getD n NetBoot.zero
def macSpeed (s : State) (n : Nat) : Nat := if macAdmitted s n then pN s (.net n) 0x102 else (bootNet s n).speed
def macIp (s : State) (n : Nat) : Word := if macAdmitted s n then pW s (.net n) 0x105 0 else (bootNet s n).ipv4
def macVlan (s : State) (n : Nat) : Nat := if macAdmitted s n then pN s (.net n) 0x107 else (bootNet s n).vlan
def macMax (s : State) (n : Nat) : Nat := if macAdmitted s n then pN s (.net n) 0x108 else 1522
def macPauseRx (s : State) (n : Nat) : Bool := !macAdmitted s n || pN s (.net n) 0x109 == 1

/-- Bits per tick of a rate, as bits per 24 576 000 ticks (R359). -/
def rateBits (code : Nat) : Nat := [1000000000, 2500000000, 10000000000].getD code 1000000000

/-- The MACs on which a stream travels: its own, and the partner of a pair when replicated (R379, R380). -/
def cbPartner (s : State) (n : Nat) : Option Nat :=
  let p := pN s (.net n) 0x10A
  if p < 4 then some p else none
def streamMacs (s : State) (n : Nat) (both : Bool) : List Nat := if both then n :: (cbPartner s n).toList else [n]

/-! ### Transmit queues (R367 to R369) -/

/-- Transmit queue of a class of stream (R367). -/
def txQueue (cls : Option Nat) : Nat :=
  match cls with
  | some 0 => 6
  | some 1 => 5
  | some 2 => 3
  | _ => 1

/-- Bytes of a frame with an IPv4 UDP payload, FCS included (R364, R365, R380). -/
def frameBytes (s : State) (n payload : Nat) (rtag : Bool) : Nat :=
  max 64 (14 + (if macVlan s n = 0 then 0 else 4) + (if rtag then 6 else 0) + 28 + payload + 4)

/-- Hand a frame to a queue: a frame too long is rejected (R364), one of a stream replaces its older one there (R369), and a
port without link discards a stream's frame (R369). -/
def pushTx (n q : Nat) (f : TxFrame) (s : State) : State :=
  if macMax s n < f.bytes then macCount n 13 1 s
  else if (s.macAt n).link ≠ 1 then (if f.stream.isSome then macCount n 21 1 s else s)
  else
    let m := s.macAt n
    let old := m.queues.getD q []
    let stale (g : TxFrame) : Bool := f.stream.isSome && g.stream == f.stream
    let s := s.updMac n fun m =>
      { m with queues := m.queues.set q ((old.filter fun g => !stale g) ++ [{ f with waited := m.pause.isSome }]) }
    if old.any stale then macCount n 20 ((old.filter stale).length) s else s

/-- Total of a gate list's intervals (R371). -/
def cycleOf (l : List (Nat × Nat)) : Nat := sumNat (l.map (·.2))

/-- The entry in force at a position of the cycle, and the ticks left of it. -/
def entryAt : List (Nat × Nat) → Nat → Nat × Nat
  | [], _ => (255, 0)
  | (g, i) :: r, p => if p < i then (g, i - p) else entryAt r (p - i)

/-- Gates open at tick `t` (R371). -/
def gatesAt (m : Mac) (t : Nat) : Nat :=
  match m.gate with
  | none => 255
  | some (l, start) => if cycleOf l = 0 then 255 else (entryAt l ((t - start) % cycleOf l)).1

/-- Ticks until the gate of queue `q` closes, from a position of the cycle, counting open entries on through at most one whole
cycle; none while it stays open for a whole cycle. -/
def openTicks (q : Nat) : Nat → List (Nat × Nat) → Nat → Option Nat
  | 0, _, _ => none
  | k + 1, l, p =>
    let e := entryAt l p
    if bitOf e.1 q then
      match openTicks q k l ((p + e.2) % cycleOf l) with
      | none => none
      | some r => some (e.2 + r)
    else some 0

/-- A frame that needs `bits` bit times ends before its gate closes (R368). -/
def fitsIn (rate bits : Nat) : Option Nat → Bool
  | none => true
  | some t => decide (bits * 24576000 ≤ t * rate)

/-- Preamble, frame and interpacket gap in bits (R368). -/
def wireBits (bytes : Nat) : Nat := 8 * (bytes + 20)

/-- Longest window of a queue in a list: none when it never closes. -/
def longestWindow (q : Nat) (l : List (Nat × Nat)) : Option Nat :=
  let starts := (List.range l.length).map fun i => sumNat ((l.take i).map (·.2))
  let ws := starts.map fun p => openTicks q (l.length + 1) l p
  if ws.any Option.isNone then none else some (maxNat (ws.map fun w => w.getD 0))

/-- Drop from the head of a queue the frames that fit no window (R368). -/
def dropUnfit (rate q : Nat) (l : List (Nat × Nat)) : List TxFrame → List TxFrame × Nat
  | [] => ([], 0)
  | f :: fs =>
    if fitsIn rate (wireBits f.bytes) (longestWindow q l) then (f :: fs, 0)
    else let r := dropUnfit rate q l fs; (r.1, r.2 + 1)

/-- The queue and frame to start at tick `t`: the highest-numbered open queue whose oldest frame fits (R368). -/
def selectTx (rate t : Nat) (m : Mac) : Option (Nat × TxFrame) :=
  ((List.range 8).reverse.filterMap fun q =>
    match m.queues.getD q [] with
    | [] => none
    | f :: _ =>
      let ok := match m.gate with
        | none => true
        | some (l, start) =>
          bitOf (gatesAt m t) q && fitsIn rate (wireBits f.bytes) (openTicks q (l.length + 1) l ((t - start) % cycleOf l))
      if ok then some (q, f) else none).head?

/-- FRAME_TRANSMIT_START (R368): the transmitter is free, not paused, and the link is up. -/
def execFrameTransmitStart (n : Nat) (s : State) : Host.Outcome State Fault Refusal :=
  let m := s.macAt n
  if 4 ≤ n || m.link ≠ 1 || m.sending.isSome || m.pause.isSome then .next s
  else
    let rate := rateBits m.rate
    let drops : List (List TxFrame × Nat) := match m.gate with
      | none => m.queues.map fun q => (q, 0)
      | some (l, _) => m.queues.zipIdx.map fun q => dropUnfit rate q.2 l q.1
    let s := macCount n 14 (sumNat (drops.map (·.2))) (s.updMac n fun m => { m with queues := drops.map (·.1) })
    match selectTx rate s.clk.tally (s.macAt n) with
    | none => .next s
    | some (q, f) =>
      let s := s.updMac n fun m => { m with queues := m.queues.modify q List.tail, sending := some (f, s.clk.tally) }
      .next (if f.waited then macCount n 28 1 s else s)

/-- FRAME_TRANSMIT_END: the frame and its gap are done; a pause received meanwhile counts from here (R376). -/
def execFrameTransmitEnd (n : Nat) (s : State) : Host.Outcome State Fault Refusal :=
  match (s.macAt n).sending with
  | none => .next s
  | some (f, _) =>
    let s := s.updMac n fun m =>
      { m with sending := none, sent := some f, heldAt := if m.pause.isSome then s.clk.tally else m.heldAt,
               pause := m.pause.map fun p => if p.start.isNone then { p with start := some s.clk.tally } else p }
    .next (macCount n 12 f.bytes (macCount n 11 1 s))

/-! ### Gate lists (R370 to R374) -/

/-- The committed list (R370). -/
def committedList (s : State) (n : Nat) : GateList :=
  if pN s (.gate n) 0x101 = 0 then none
  else some ((List.range (pN s (.gate n) 0x103)).map fun i =>
    let w := pW s (.gate n) (0x110 + i) 0
    (fld w 24 8, fld w 0 24))

/-- The change instant of a request committed for `b` (R372). -/
def changeInstant (s : State) (n b : Nat) : Nat :=
  let base := (pW s (.gate n) 0x102 0).toNat + 2 ^ 32 * (pW s (.gate n) 0x102 1).toNat
  let t := max base b
  match (s.macAt n).gate with
  | none => t
  | some (l, start) => if cycleOf l = 0 then t else start + ceilDiv (t - start) (cycleOf l) * cycleOf l

/-- A commit that writes any gate parameter: a list change request (R372). -/
def requestGate (n mb : Nat) (s : State) : State :=
  let b := lastBoundary s
  let old := (s.macAt n).gateNext.isSome
  let s := s.updMac n fun m =>
    { m with gateNext := some (committedList s n, changeInstant s n b),
             gateReplaced := if old then satAdd32 m.gateReplaced 1 else m.gateReplaced }
  if old then raiseNode 0x7005 .boundary b (some (.gate n)) mb (low16 (s.macAt n).gateReplaced) [] s else s

/-- The pending list takes effect at its change instant (R372). -/
def applyGate (n : Nat) (s : State) : State :=
  match (s.macAt n).gateNext with
  | none => s
  | some (l, tc) =>
    if tc ≤ s.clk.tally then
      let s := s.updMac n fun m =>
        { m with gateNext := none, gate := l.map fun x => (x, tc), operStart := if l.isSome then tc else m.operStart,
                 gatesNow := gatesAt { m with gate := l.map fun x => (x, tc) } s.clk.tally }
      raiseOwn 0x7004 .detect tc (some (.gate n)) ((l.map List.length).getD 0) s
    else s

/-- GATE_LIST_APPLIED (R372). -/
def execGateListApplied (n : Nat) (s : State) : Host.Outcome State Fault Refusal := .next (applyGate n s)

/-- GATE_INTERVAL (R371): the gates take the state of the interval the tally stands in. -/
def execGateInterval (n : Nat) (s : State) : Host.Outcome State Fault Refusal :=
  .next (s.updMac n fun m => { m with gatesNow := gatesAt m s.clk.tally })

/-! ### PAUSE (R375 to R378) -/

/-- Every frame in a queue when a pause begins waits for it (R397 TX_PAUSED_FRAMES). -/
def markWaiting (m : Mac) : Mac :=
  { m with queues := m.queues.map fun q => q.map fun f => { f with waited := true } }

/-- An honoured PAUSE frame acts (R376). -/
def pauseAct (n quanta : Nat) (s : State) : State :=
  let s := flushHeld n s
  if quanta = 0 then s.updMac n fun m => { m with pause := none }
  else
    s.updMac n fun m =>
      let m := markWaiting m
      { m with heldAt := s.clk.tally,
               pause := some { quanta := quanta, start := if m.sending.isSome then none else some s.clk.tally, long := false } }

/-- A pause has run for its time: `quanta` of 512 bit times (R376). -/
def pauseOver (rate t : Nat) (p : Pause) : Bool :=
  match p.start with
  | none => false
  | some a => decide (p.quanta * 512 * 24576000 ≤ (t - a) * rate)

/-- PAUSE_EXPIRE (R376). -/
def execPauseExpire (n : Nat) (s : State) : Host.Outcome State Fault Refusal :=
  match (s.macAt n).pause with
  | none => .next s
  | some p =>
    if pauseOver (rateBits (s.macAt n).rate) s.clk.tally p then
      .next ((flushHeld n s).updMac n fun m => { m with pause := none })
    else .next s

/-- A MAC carries an ALARM transmit stream. -/
def carriesAlarm (s : State) (n : Nat) : Bool :=
  s.net.txs.any fun x => classOf s (.tx x.mac x.s) == some 0 &&
    (streamMacs s x.mac (pN s (.tx x.mac x.s) 0x10B == 1)).contains n

/-- PAUSE_LONG (R378): a pause of more than 8192 ticks on a MAC with an ALARM transmit stream, once for each pause. -/
def execPauseLong (n : Nat) (s : State) : Host.Outcome State Fault Refusal :=
  match (s.macAt n).pause with
  | some { quanta, start := some a, long := false } =>
    if a + 8192 < s.clk.tally && carriesAlarm s n then
      .next (raiseOwn 0x7006 .detect s.clk.tally (some (.net n)) quanta
        (s.updMac n fun m => { m with pause := some { quanta := quanta, start := some a, long := true } }))
    else .next s
  | _ => .next s

/-! ### Link (R360) -/

/-- LINK_CHANGE: the PHY of a MAC in service reports a link at a rate, or none. -/
def execLinkChange (n : Nat) (up : Bool) (rate : Nat) (s : State) : Host.Outcome State Fault Refusal :=
  if !macUp s n then .next s
  else
    let speed := macSpeed s n
    let step := macAdmitted s n && pN s (.net n) 0x103 == 1
    let new := if !up then 0 else if rate = speed || (step && decide (rate < speed)) then 1 else 2
    let m := s.macAt n
    if new = m.link && (new ≠ 1 || rate = m.rate) then .next s
    else
      let s := macCount n 29 1 (s.updMac n fun m => { m with link := new, rate := if new = 1 then rate else m.rate })
      .next (if new = 1 then raiseOwn 0x7001 .detect s.clk.tally (some (.net n)) rate s
        else if new = 2 then raiseOwn 0x7003 .detect s.clk.tally (some (.net n)) rate s
        else raiseOwn 0x7002 .detect s.clk.tally (some (.net n)) 0 s)

/-! ### Streams: shape (R387 to R391) -/

/-- Samples per packet of a PTIME code. -/
def ptimeS (code : Nat) : Nat := [6, 12, 16, 48].getD code 6

/-- Bytes per sample of an ENCODING. -/
def encBytes (code : Nat) : Nat := if code = 0 then 2 else 3

/-- The media count of a tick (R386). -/
def mediaCount (offset t : Nat) : Nat := (t / 512 + offset) % 2 ^ 64

/-- A sample in `k` bytes, big-endian (R389), and one received. -/
def sampleBytes (k : Nat) (z : Int) : List Byte :=
  ((bytesOf (wi z)).reverse).take k
def bytesSample (bs : List Byte) : Int := (wordOfBytes (bs.getD 3 0#8) (bs.getD 2 0#8) (bs.getD 1 0#8) (bs.getD 0 0#8)).toInt

/-! ### Transmit streams (R390, R391, R396) -/

/-- A sample with reference instant `q` reaches the packetiser of a stream (R391). -/
def txSample (s : State) (q : Nat) (out : List Int) (x : TxStream) : TxStream :=
  let n := Node.tx x.mac x.s
  let sz := ptimeS (pN s n 0x108)
  match s.net.offset with
  | none => { x with fill := [] }
  | some off =>
    let stop := x.stopAt.any fun t => decide (t + 1024 ≤ q)
    let x := if stop then { x with on := false, stopAt := none, fill := [] } else x
    if !x.on then x
    else
      let start := mediaCount off q % sz == 0
      let x := if start then { x with q0 := q, fill := [out] } else if x.fill.isEmpty then x else { x with fill := x.fill ++ [out] }
      if x.fill.length = sz then { x with ready := some (x.q0, x.fill), fill := [] } else x

/-- The frame of a full packet for one MAC (R380, R389, R390, R391). -/
def packetFrame (s : State) (x : TxStream) (mac q0 : Nat) (smp : List (List Int)) : TxFrame :=
  let n := Node.tx x.mac x.s
  let k := encBytes (pN s n 0x106)
  let rep := pN s n 0x10B == 1
  let pay := smp.flatMap fun l => l.flatMap (sampleBytes k)
  { stream := some x.s, bytes := frameBytes s mac (12 + pay.length) rep, rtag := if rep then some x.rseq else none,
    seq := x.seq, stamp := wd (mediaCount (s.net.offset.getD 0) q0 + ptimeS (pN s n 0x108)), payload := pay, waited := false }

/-- STREAM_PACKET_HANDOFF (R369, R380, R391): the full packet of a stream goes to its queue, on both MACs of a pair. -/
def execStreamPacketHandoff (n k : Nat) (s : State) : Host.Outcome State Fault Refusal :=
  match s.net.txs.find? fun x => x.mac == n && x.s == k with
  | none => .next s
  | some x =>
    match x.ready with
    | none => .next s
    | some (q0, smp) =>
      let rep := pN s (.tx n k) 0x10B == 1
      let q := txQueue (classOf s (.tx n k))
      let s1 := (streamMacs s n rep).foldl (fun t mac => pushTx mac q (packetFrame s x mac q0 smp) t) s
      .next (s1.updTx k fun x =>
        { x with ready := none, seq := (x.seq + 1) % 65536, rseq := (x.rseq + 1) % 65536, packets := (x.packets + 1) % 2 ^ 32 })

/-! ### 802.1CB recovery (R381, R382) -/

def CbState.new : CbState := { any := true, seq := 0, seen := [], passedAt := 0, heard := [], lost := none }

/-- What happens to a packet with number `seq` at tick `t`: the recovery state, and 0 passed, 1 duplicate, 2 rogue. The vector
recovery algorithm is that of 802.1CB (PRESUMED for its details, log 26). -/
def cbStep (t seq : Nat) (c : CbState) : CbState × Nat :=
  let c := if c.passedAt + frames 300 ≤ t then { c with any := true } else c
  if c.any then ({ c with any := false, seq := seq, seen := [true], passedAt := t }, 0)
  else
    let d : Int := ((seq : Int) - c.seq + 32768) % 65536 - 32768
    if d ≥ 32 ∨ d ≤ -32 then (c, 2)
    else if d ≤ 0 then
      let i := (-d).toNat
      if c.seen.getD i false then (c, 1)
      else
        let pad := c.seen ++ List.replicate (32 - c.seen.length) false
        ({ c with seen := pad.set i true, passedAt := t }, 0)
    else
      ({ c with seq := seq, seen := ((true :: List.replicate (d.toNat - 1) false) ++ c.seen).take 32, passedAt := t }, 0)

/-- A packet of an elimination stream from a MAC was heard (R382). -/
def cbHeard (mac t : Nat) (c : CbState) : CbState := { c with heard := (mac, t) :: dropKey mac c.heard }

/-- CB_PATH_LOST (R382): one MAC silent for 300 frames while the other has delivered. -/
def execCbPathLost (k mac : Nat) (s : State) : Host.Outcome State Fault Refusal :=
  match s.rxAt k with
  | none => .next s
  | some x =>
    let n := Node.rx x.mac k
    let silent := (findKey mac x.cb.heard).getD 0 + frames 300 ≤ s.clk.tally
    let other := x.cb.heard.any fun h => h.1 != mac && decide (s.clk.tally < h.2 + frames 300)
    if pN s n 0x112 = 1 && (streamMacs s x.mac true).contains mac && decide silent && other && x.cb.lost.isNone then
      .next (raiseOwn 0x700A .detect s.clk.tally (some n) mac (s.updRx k fun x => { x with cb := { x.cb with lost := some mac } }))
    else .next s

/-! ### Receive streams (R390 to R396) -/

/-- Sample number of the reference instant now entering the hub. -/
def nowSample (t : Nat) : Nat := t / 512 - 2

/-- The 64-bit media count nearest to that of the tally, with the low 32 bits of a timestamp (R392). -/
def extendStamp (now stamp : Nat) : Int :=
  let d : Int := ((stamp : Int) - (now : Int) + 2 ^ 31) % 2 ^ 32 - 2 ^ 31
  (now : Int) + d

/-- The samples of a packet, one list of channels each (R389). -/
def packetSamples (ch k : Nat) : Nat → List Byte → List (List Int)
  | 0, _ => []
  | n + 1, bs =>
    ((List.range ch).map fun c => bytesSample (((bs.drop (c * k)).take k) ++ List.replicate (4 - k) 0#8)) ::
      packetSamples ch k n (bs.drop (ch * k))

/-- Consecutive placed samples from `p` on. -/
def levelFrom (placed : List (Nat × List Int)) : Nat → Nat → Nat
  | 0, _ => 0
  | n + 1, p => if placed.any fun e => e.1 == p then levelFrom placed n (p + 1) + 1 else 0

/-- STREAM_OVERRUN (R394): the stream fades, and ADJUST puts the latest sample DEPTH / 2 after the sample entering at the end of
the fade. -/
def overrun (t : Nat) (last : Int) (x : RxStream) (s : State) : State :=
  let n := Node.rx x.mac x.s
  let depth := pN s n 0x10E
  let stop : Int := (nowSample t : Int) + (if x.run then 96 else 0)
  let adj := x.adjust + (last - (stop + (depth / 2 : Nat)))
  let s := s.updRx x.s fun x =>
    { x with adjust := adj, run := false, fade := if x.run then some 0 else x.fade,
             flush := x.run || x.fade.isSome, placed := if x.run || x.fade.isSome then x.placed else [] }
  raiseOwn 0x7009 .block (lastBoundary s) (some n) ((wi adj).toNat % 65536) s

/-- Place the samples of an accepted packet (R392, R394, R395). -/
def placePacket (mac : Nat) (p : RtpPacket) (x : RxStream) (s : State) : State :=
  let n := Node.rx x.mac x.s
  let sz := ptimeS (pN s n 0x108)
  let ch := pN s n 0x107
  let k := encBytes (pN s n 0x106)
  let t := s.clk.tally
  let off := s.net.rxOffset
  let m := extendStamp (mediaCount off t) p.stamp.toNat
  let base : Int := m - off + sz + pN s n 0x10D - x.adjust
  let smp := packetSamples ch k sz p.payload
  let at_ : List (Int × List Int) := smp.zipIdx.map fun e => (base + (e.2 : Int), e.1)
  let now : Int := nowSample t
  let late := at_.filter fun e => decide (512 * e.1 + 1024 < (t : Int) + 48)
  let far := at_.filter fun e => decide (now + (pN s n 0x10E : Int) < e.1)
  let good := at_.filter fun e => decide ((t : Int) + 48 ≤ 512 * e.1 + 1024) && decide (e.1 ≤ now + (pN s n 0x10E : Int)) &&
    !(x.quietTo.any fun q => decide (512 * e.1 < (q : Int)))
  let s := macCount mac 24 late.length (macCount mac 25 far.length s)
  let s := s.updRx x.s fun x =>
    { x with late := satAdd32 x.late late.length, excess := satAdd32 x.excess far.length, packets := (x.packets + 1) % 2 ^ 32 }
  match s.rxAt x.s with
  | none => s
  | some x =>
    if !far.isEmpty && pN s n 0x10F = 0 then overrun t (base + (sz : Int) - 1) x s
    else if x.flush then s
    else
      s.updRx x.s fun x =>
        { x with placed := good.foldl (fun l e => (e.1.toNat, e.2) :: dropKey e.1.toNat l) x.placed }

/-- A packet for a stream (R381, R382, R390). -/
def rtpStream (mac : Nat) (p : RtpPacket) (x : RxStream) (s : State) : State :=
  let n := Node.rx x.mac x.s
  let ssrc := pW s n 0x105 0
  let size := ptimeS (pN s n 0x108) * pN s n 0x107 * encBytes (pN s n 0x106)
  if p.version ≠ 2 || p.pt ≠ pN s n 0x104 || (ssrc ≠ 0#32 && p.ssrc ≠ ssrc) || p.payload.length ≠ size then
    macCount mac 26 1 (s.updRx x.s fun x => { x with bad := satAdd32 x.bad 1 })
  else if s.net.offset.isNone then s
  else if pN s n 0x112 = 1 then
    match p.rtag with
    | none => macCount mac 19 1 s
    | some q =>
      let r := cbStep s.clk.tally q x.cb
      let back := x.cb.lost == some mac
      let s := s.updRx x.s fun x =>
        { x with cb := { cbHeard mac s.clk.tally r.1 with lost := if back then none else r.1.lost } }
      let s := if back then raiseOwn 0x700B .detect s.clk.tally (some n) mac s else s
      if r.2 = 1 then macCount mac 18 1 s
      else if r.2 = 2 then macCount mac 19 1 s
      else
        match s.rxAt x.s with
        | some y => placePacket mac p y s
        | none => s
  else placePacket mac p x s

/-- The stream an RTP packet matches on a MAC by address and port (R381, R390). -/
def matchRx (s : State) (mac : Nat) (p : RtpPacket) : Option RxStream :=
  s.net.rxs.find? fun x =>
    let n := Node.rx x.mac x.s
    let src := pW s n 0x10C 0
    x.on && (streamMacs s x.mac (pN s n 0x112 == 1)).contains mac && pW s n 0x102 0 == p.dst &&
      pN s n 0x103 == p.udpPort && (src == 0#32 || src == p.srcIp)

/-- Gain of fade sample `i` and ramp sample `i` (R394). -/
def rxFadeGain (i : Nat) : Rat := ((95 - i : Nat) : Rat) / 96
def rxRampGain (i : Nat) : Rat := if 960 ≤ i then 1 else ((i + 1 : Nat) : Rat) / 960

/-- One sample instant of a stream in MODE STREAM (R394): the stream moved on, its samples, and the event: 1 underrun,
2 re-armed. -/
def streamSample (low rearm depth p : Nat) (x : RxStream) : RxStream × List Int × Nat :=
  let smp := (findKey p x.placed).getD []
  let level := levelFrom x.placed (depth + 1) p
  let clean (x : RxStream) : RxStream := { x with placed := x.placed.filter fun e => decide (p < e.1) }
  let fadeFrom (x : RxStream) (i : Nat) : RxStream × List Int :=
    let g := rxFadeGain i * rxRampGain x.ramp
    (if i ≥ 95 then
      { x with fade := none, run := false, ramp := 0, flush := false, placed := if x.flush then [] else x.placed }
    else { x with fade := some (i + 1) }, smp.map fun v => scaleSample v g)
  match x.fade with
  | some i => let r := fadeFrom x i; (clean r.1, r.2, 0)
  | none =>
    let quiet := x.quietTo.any fun q => decide (512 * p < q)
    if x.run then
      if level < low || quiet then
        let r := fadeFrom { x with run := false } 0
        (clean r.1, r.2, if quiet then 0 else 1)
      else (clean { x with ramp := min (x.ramp + 1) 960 }, smp.map fun v => scaleSample v (rxRampGain x.ramp), 0)
    else if x.on && !quiet && decide (rearm ≤ level) then
      (clean { x with run := true, ramp := 1, quietTo := none }, smp.map fun v => scaleSample v (rxRampGain 0), 2)
    else (clean x, [], 0)

/-- One sample instant of a stream in MODE BUNDLE (R395). -/
def bundleSample (p : Nat) (x : RxStream) : RxStream × List Int :=
  let quiet := x.quietTo.any fun q => decide (512 * p < q)
  ({ x with placed := x.placed.filter (fun e => decide (p < e.1)), run := x.on },
   if x.on && !quiet then (findKey p x.placed).getD [] else [])

/-- The samples that enter the hub at tick `t` from every stream (R392 to R396), by channel index; and the state moved on. -/
def rxSamples (t : Nat) (s : State) : State × List (Word × Int) :=
  s.net.rxs.foldl (fun acc x0 =>
    let s := acc.1
    let n := Node.rx x0.mac x0.s
    let p := nowSample t
    let chans (l : List Int) : List (Word × Int) :=
      (List.range (pN s n 0x107)).map fun c => (wd (0x30000000 + 64 * x0.s + c), l.getD c 0)
    if s.net.offset.isNone then (s, acc.2 ++ chans [])
    else if pN s n 0x10F = 1 then
      let r := bundleSample p x0
      (s.updRx x0.s (fun _ => r.1), acc.2 ++ chans r.2)
    else
      let r := streamSample (pN s n 0x110) (pN s n 0x111) (pN s n 0x10E) p x0
      let s := s.updRx x0.s fun _ => r.1
      let k := t / 512 % 16
      let blk := t / frameTicks * frameTicks
      let s := if r.2.2 = 1 then raiseOwn 0x7007 .block blk (some n) k s
        else if r.2.2 = 2 then raiseOwn 0x7008 .block blk (some n) k s else s
      (s, acc.2 ++ chans r.2.1)) (s, [])

/-- The input block of receive channels as dispatched at `b`: the fade of a commit of ENABLE 0 (R396). -/
def rxBlock (s : State) (b : Nat) (blk : List (Word × List Int)) : List (Word × List Int) :=
  blk.map fun e =>
    if fld e.1 28 4 ≠ 3 then e
    else
      match s.rxAt (fld e.1 6 7) with
      | none => (e.1, e.2.map fun _ => 0)
      | some x =>
        if x.offAt = some b then
          (e.1, e.2.zipIdx.map fun q => if pN s (.rx x.mac x.s) 0x10F = 1 then 0 else scaleSample q.1 (rxFadeGain q.2))
        else e

/-! ### Media offset (R386, R396) -/

/-- MEDIA_OFFSET_CHANGED at boundary `u` (R386). -/
def changeOffset (off : Nat) (s : State) : State :=
  let u := lastBoundary s
  let s := { s with net := { s.net with
    offset := some off, rxOffset := off, rxs := s.net.rxs.map fun x => { x with quietTo := some (u + frames 2) } } }
  raiseNode 0x700D .boundary u (some (.ptp 0)) 0xF 0 [{ tag := 0xB0, vals := words64 off }] s

/-- PTP_STATE of a port (R384, R400). -/
def ptpState (n st : Nat) (s : State) : State :=
  if (s.macAt n).ptp = st then s
  else raiseOwn 0x700C .teller s.clk.tally (some (.ptp n)) st (s.updMac n fun m => { m with ptp := st })

/-- The servo follows the enabled port with the lowest MAC index (R385). -/
def servoPort (s : State) : Option Nat :=
  (List.range 4).find? fun n => admitted s (.ptp n) && pN s (.ptp n) 0x101 == 1 && (s.macAt n).link == 1

/-- MEDIA_OFFSET_SET (R386): under PTP, the first boundary after the servo first reaches FOLLOWING. -/
def execMediaOffsetSet (offset : Nat) (s : State) : Host.Outcome State Fault Refusal :=
  match servoPort s with
  | none => .next s
  | some n =>
    if atFrame s && s.net.offset.isNone && pN s (.ptp 0) 0x110 == 0 then
      let s := ptpState n 3 s
      .next { s with net := { s.net with offset := some (offset % 2 ^ 64), rxOffset := offset % 2 ^ 64 } }
    else .next s

/-- MEDIA_OFFSET_CHANGED (R386): under PTP, at a frame boundary. -/
def execMediaOffsetChanged (offset : Nat) (s : State) : Host.Outcome State Fault Refusal :=
  if atFrame s && s.net.offset.isSome && pN s (.ptp 0) 0x110 == 0 then .next (changeOffset (offset % 2 ^ 64) s) else .next s

/-- FIXED_OFFSET of `/net/0/ptp`. -/
def fixedOffset (s : State) : Nat := (pW s (.ptp 0) 0x111 0).toNat + 2 ^ 32 * (pW s (.ptp 0) 0x111 1).toNat

/-! ### Committed writes and admission (R370, R384, R388, R396) -/

/-- A transmit or receive stream's ENABLE at boundary `b` (R390, R394, R396). -/
def applyEnable (n : Node) (s : State) : State :=
  let b := lastBoundary s
  let on := pN s n 0x101 == 1
  match n with
  | .tx _ k =>
    s.updTx k fun x =>
      if on then { x with on := true, stopAt := none, seq := 0, rseq := 0, fill := [], ready := none }
      else { x with stopAt := if x.on then some (b + 8192) else none }
  | .rx _ k =>
    s.updRx k fun x =>
      if on then { x with on := true, adjust := 0, offAt := none, cb := CbState.new }
      else
        { x with on := false, adjust := 0, offAt := if x.on then some b else none, fade := if x.run then some 16 else x.fade,
                 run := false }
  | _ => s

/-- What a committed write of a network parameter does; a gate list is requested once per commit (`requestGate`). -/
def applyNet (n : Node) (tag : Nat) (s : State) : State :=
  match n with
  | .tx _ _ => if tag = 0x101 then applyEnable n s else s
  | .rx _ _ => if tag = 0x101 then applyEnable n s else s
  | .ptp 0 => if tag = 0x111 && pN s n 0x110 == 1 then changeOffset (fixedOffset s) s else s
  | _ => s

def newTx (s : State) (mac k : Nat) : TxStream :=
  { mac := mac, s := k, on := pN s (.tx mac k) 0x101 == 1, stopAt := none, seq := 0, rseq := 0, q0 := 0, fill := [],
    ready := none, packets := 0 }

def newRx (s : State) (mac k : Nat) : RxStream :=
  { mac := mac, s := k, on := pN s (.rx mac k) 0x101 == 1, run := false, placed := [], fade := none, ramp := 0,
    flush := false, quietTo := none, offAt := none, adjust := 0, late := 0, excess := 0, bad := 0, packets := 0,
    cb := CbState.new }

/-! ### Network mailboxes (02 R57, R58) -/

/-- Hand the words of a response to the VOICE queue of the MAC its request came by (R57). -/
def sendDatagram (mb : Nat) (key : NetKey) (ws : List Word) (s : State) : State :=
  let s := { s with nmbs := s.nmbs.modify (mb - 8) fun b => { b with sent := ((key, ws) :: b.sent).take 16 } }
  pushTx key.mac 4
    { stream := none, bytes := frameBytes s key.mac (4 * ws.length) false, rtag := none, seq := 0, stamp := 0#32,
      payload := ws.flatMap bytesOf, waited := false } s

/-- The network mailbox a datagram is for. -/
def nmbFor (s : State) (d : Datagram) : Option Nat :=
  (List.range 2).find? fun i =>
    match s.nmbs[i]? with
    | some b => b.port != 0 && b.port == d.dstPort && bitOf b.macs d.mac
    | none => false

/-- Drop a datagram and count it (R57, R58, R397). -/
def nmbDrop (mac : Nat) (s : State) : State := macCount mac 27 1 s

/-- A datagram for a network mailbox (R57, R58): a repeat of an answered request gets the stored response, a repeat of one being
answered is dropped, any other joins the inbound ring. -/
def nmbReceive (d : Datagram) (i : Nat) (s : State) : State :=
  let key : NetKey := { addr := d.srcAddr, port := d.srcPort, seq := d.words.getD 1 0#32, mac := d.mac }
  let same (k : NetKey) : Bool := k.addr == key.addr && k.port == key.port && k.seq == key.seq
  match s.nmbs[i]? with
  | none => s
  | some b =>
    if d.fragmented || decide (d.length < 16) then nmbDrop d.mac s
    else if b.taken.any same then nmbDrop d.mac s
    else
      match b.stored.find? fun e => same e.1 with
      | some e => sendDatagram (8 + i) key e.2 s
      | none =>
        let m := s.mboxAt (8 + i)
        let words := (List.range (min 368 (d.length / 4))).map fun k => d.words.getD k 0#32
        if 1024 < posted 1024 m.inWr m.inRd + words.length then nmbDrop d.mac s
        else
          let first := posted 1024 m.inWr m.inRd == 0
          let s := s.updMbox (8 + i) fun m =>
            { m with inRing := ringPut 1024 m.inRing m.inWr words, inWr := (m.inWr + words.length) % 2048,
                     headAt := if first then s.clk.tally else m.headAt }
          { s with nmbs := s.nmbs.modify i fun b => { b with queued := b.queued ++ [(key, d.length)] } }

/-- NMB_DATAGRAM (R57, R58). -/
def execNmbDatagram (d : Datagram) (s : State) : Host.Outcome State Fault Refusal :=
  if !macUp s d.mac then .next s
  else
    match nmbFor s d with
    | none => .next s
    | some i => .next (nmbReceive d i s)

/-! ### Received frames (R363, R365 to R367, R375) -/

/-- A reply of the firmware in queue 4 (R366). -/
def replyFrame (n bytes : Nat) (s : State) : State :=
  if s.serving then
    pushTx n 4 { stream := none, bytes := bytes, rtag := none, seq := 0, stamp := 0#32, payload := [], waited := false } s
  else s

/-- What an accepted frame does (R366, R367, R375, R383, R390). -/
def acceptFrame (n : Nat) (f : EthFrame) (s : State) : State :=
  let noMatch := macCount n 9 1 s
  match f.body with
  | .pause q => let s := macCount n 6 1 s; if macPauseRx s n then pauseAct n q s else s
  | .macControl _ => macCount n 7 1 s
  | .ptp ev _ =>
    if admitted s (.ptp n) && pN s (.ptp n) 0x101 == 1 then (if ev then macCount n 22 1 s else s) else noMatch
  | .rtp p =>
    match matchRx s n p with
    | some x => rtpStream n p x s
    | none => noMatch
  | .datagram d =>
    match nmbFor s { d with mac := n } with
    | some i => nmbReceive { d with mac := n } i s
    | none => noMatch
  | .arp => if macIp s n ≠ 0#32 then replyFrame n 64 s else noMatch
  | .icmpEcho => if macIp s n ≠ 0#32 then replyFrame n f.length s else noMatch
  | .igmp => if macIp s n ≠ 0#32 then s else noMatch
  | .fragment => noMatch
  | .other => noMatch

/-- ETH_FRAME_RECEIVE (R363, R365). -/
def execEthFrameReceive (n : Nat) (f : EthFrame) (s : State) : Host.Outcome State Fault Refusal :=
  if !macUp s n || (s.macAt n).link ≠ 1 then .next s
  else if f.length ≤ 63 then .next (macCount n 3 1 s)
  else if macMax s n < f.length then .next (macCount n 4 1 s)
  else if f.codeErr then .next (macCount n 5 1 s)
  else if !f.fcsOk then .next (macCount n 2 1 s)
  else if f.vid.any fun v => v != 0 && v != macVlan s n then .next (macCount n 8 1 s)
  else .next (acceptFrame n f (macCount n 1 f.length (macCount n 0 1 s)))

/-! ### Gate time (R373, R374) -/

/-- Wire time of a transmit stream's frame in bits, and its packet time in samples. -/
def txWireBits (s : State) (x : TxStream) : Nat :=
  let n := Node.tx x.mac x.s
  wireBits (frameBytes s x.mac (12 + ptimeS (pN s n 0x108) * pN s n 0x107 * encBytes (pN s n 0x106)) (pN s n 0x10B == 1))

/-! ### Read-only values (R361, R370, R384, R388) -/

def roNet (s : State) (n : Node) (tag : Nat) : List Word :=
  let m (k : Nat) : Mac := s.macAt k
  match n with
  | .net k => w1 (if tag = 0x180 then (m k).link else if tag = 0x181 then (m k).rate else b2n (m k).pause.isSome)
  | .gate k =>
    if tag = 0x180 then words64 (m k).operStart
    else if tag = 0x181 then w1 (((m k).gate.map fun g => cycleOf g.1).getD 0)
    else if tag = 0x182 then w1 (b2n (m k).gateNext.isSome)
    else if tag = 0x183 then words64 (((m k).gateNext.map (·.2)).getD 0)
    else w1 (m k).gateReplaced
  | .ptp k =>
    if tag = 0x113 then words64 (s.net.offset.getD 0)
    else if tag = 0x180 then w1 (if pN s n 0x101 = 0 then 0 else max 1 (m k).ptp)
    else [Config.ptpOffset k s.clk.tally]
  | .tx _ k =>
    match s.net.txs.find? fun x => x.s == k with
    | none => w1 0
    | some x =>
      if tag = 0x180 then w1 (if !x.on then 0 else if s.net.offset.isNone then 1 else 2) else w1 x.packets
  | .rx _ k =>
    match s.rxAt k with
    | none => w1 0
    | some x =>
      if tag = 0x180 then w1 (if !x.on then 0 else if s.net.offset.isNone then 1 else if x.run then 2 else 3)
      else if tag = 0x181 then w1 x.packets
      else if tag = 0x182 then [wi x.adjust]
      else if tag = 0x183 then w1 x.late
      else if tag = 0x184 then w1 x.excess
      else w1 x.bad
  | _ => []

end Sys2Proof.Machine
end

