-- ==== Sys2Proof/Machine/Render.lean ====
section
/-! DEFINITION. The renderer (04): motion, the planning sequence, panning laws, steering, slots, and the contributions of a
frame. Positions are exact in 1/1024 mm; gains and delays are exact rationals where the spec's value is rational, and a
value of Config where it is not (log 9). -/

namespace Sys2Proof.Machine

/-! ### Real functions (log 9) -/

/-- A natural square root, when exact. -/
def exactRoot (n : Nat) : Option Nat := let r := isqrt n; if r * r = n then some r else none

/-- Square root of a non-negative rational: exact when it is rational, else Config. -/
def ratSqrt (r : Rat) : Rat :=
  match exactRoot r.num.toNat, exactRoot r.den with
  | some a, some b => (a : Rat) / (b : Rat)
  | _, _ => Config.sqrtRat r

/-- `10^(c/2000)` of a level in 0.01 dB; −144 dB is 0 (R123). -/
def ratOfDb (c : Int) : Rat :=
  if c ≤ -14400 then 0
  else if c % 2000 = 0 then (if c < 0 then 1 / ((10 ^ (c.natAbs / 2000) : Nat) : Rat) else ((10 ^ (c.natAbs / 2000) : Nat) : Rat))
  else Config.dbRat c

/-- A gain in Q3.29: exact when it is representable. -/
def toQ329 (r : Rat) : Int := if (r * 536870912).den = 1 then (r * 536870912).num else Config.gainQ329 r

/-- A weight with 30 fractional bits: exact when it is representable (R141). -/
def toW30 (r : Rat) : Int := if (r * 1073741824).den = 1 then (r * 1073741824).num else Config.weight30 r

/-- A delay in samples in units of 2^-16, nearest (R140). -/
def toQ1616 (r : Rat) : Int :=
  let x := r * 65536
  if x.den = 2 then x.floor + (if Config.delayUp r then 1 else 0) else (x + 1 / 2).floor

/-- The unit in which GAIN ramps (R139): 2^-60. -/
def gainUnit : Int := 2 ^ 60
def objGain (c : Int) : Int := (ratOfDb c * gainUnit).floor

/-! ### Access -/

def State.objAt (s : State) (n : Nat) : Option Obj := s.render.objs.find? fun x => x.n == n
def State.updObj (s : State) (n : Nat) (g : Obj → Obj) : State :=
  { s with render := { s.render with objs := s.render.objs.map fun x => if x.n == n then g x else x } }

/-- A point in 1/1024 mm. -/
structure Pt where
  x : Int
  y : Int
  z : Int
deriving DecidableEq, Repr

/-- A point from three words in mm. -/
def ptOf (ws : List Word) : Pt :=
  { x := 1024 * (ws.getD 0 0#32).toInt, y := 1024 * (ws.getD 1 0#32).toInt, z := 1024 * (ws.getD 2 0#32).toInt }

/-- Position of a feed, build coordinates (R118). -/
def feedPt (s : State) (f : Nat) : Pt := ptOf (param s (.feed f) 0x140)

/-- Running to build coordinates (R114). -/
def toBuild (s : State) (p : Pt) : Pt :=
  if cabSwapped s then { x := 1024 * (pN s .layout 0x102 : Int) - p.x, y := -p.y, z := p.z } else p

def sq (a : Int) : Nat := a.natAbs * a.natAbs
def dist2 (a b : Pt) : Nat := sq (a.x - b.x) + sq (a.y - b.y) + sq (a.z - b.z)
def distXY2 (a b : Pt) : Nat := sq (a.x - b.x) + sq (a.y - b.y)

/-- A distance in mm from its square in (1/1024 mm)^2. -/
def mmOf (d2 : Nat) : Rat := ratSqrt ((d2 : Rat) / 1048576)

/-! ### Motion (R127) -/

/-- One coordinate moved by `s / d` of its way, rounded towards where it was. -/
def moveCoord (p c : Int) (s d2 : Nat) : Int :=
  let m := isqrt (sq (c - p) * (s * s) / d2)
  if c < p then p - m else p + m

/-- The rendered position after one planning period of `u` frames. -/
def moveToward (p c : Pt) (vmax u : Nat) : Pt :=
  let s := vmax * u * 1024 / 3000
  let d2 := dist2 c p
  if vmax = 0 || decide (d2 ≤ s * s) then c
  else { x := moveCoord p.x c.x s d2, y := moveCoord p.y c.y s d2, z := moveCoord p.z c.z s d2 }

/-- RPOS: nearest millimetre, halves away from zero (R127). -/
def rposWord (a : Int) : Word := wi (divHalfAway a 1024)

/-! ### Panning laws (R131 to R136) -/

/-- Feeds with their gains. -/
abbrev Gains := List (Nat × Rat)

/-- Candidate feeds of an object (R131). -/
def candidates (s : State) (o : Nat) : List Nat :=
  let z := pN s (.object o) 0x113
  if z = 0xFFFF then s.feeds.map Feed.n else zoneFeeds s (zoneUsed s z)

/-- The nearest of some feeds by a squared distance, ties to the lower index; the list is in index order. -/
def nearest (d : Nat → Nat) : List Nat → Option Nat
  | [] => none
  | f :: fs =>
    match nearest d fs with
    | none => some f
    | some g => if d g < d f then some g else some f

/-- `√old − √new > 100 mm`, exactly, from squared distances in (1/1024 mm)^2. -/
def nearerBy100 (new old : Nat) : Bool :=
  let h : Nat := 102400
  let a : Int := (old : Int) - new - h * h
  decide (0 < a) && decide ((4 * h * h * new : Nat) < sq a)

/-- Point law (R132): the feed, given the feed chosen last when it is to be kept. -/
def pointFeed (s : State) (p : Pt) (cs : List Nat) (last : Option Nat) : Option Nat :=
  let d (f : Nat) : Nat := dist2 (feedPt s f) p
  match nearest d cs, last with
  | none, _ => none
  | some f, none => some f
  | some f, some l => if cs.contains l && !nearerBy100 (d f) (d l) then some l else some f

/-- Insert by ascending x, ties by index. -/
def insertX (e : Nat × Int) : List (Nat × Int) → List (Nat × Int)
  | [] => [e]
  | a :: as => if e.2 < a.2 || (e.2 == a.2 && decide (e.1 < a.1)) then e :: a :: as else a :: insertX e as

/-- Leave out every feed whose x equals that of the one before it. -/
def dedupX : List (Nat × Int) → List (Nat × Int)
  | [] => []
  | a :: as => a :: (dedupX as).filter fun b => b.2 != a.2

/-- Pan between adjacent feeds of one side (R133). -/
def panSide (curve : Nat) (px : Int) : List (Nat × Int) → Gains
  | [] => []
  | [a] => [(a.1, 1)]
  | a :: b :: r =>
    if px < a.2 then [(a.1, 1)]
    else if px < b.2 then
      let t : Rat := ((px - a.2 : Int) : Rat) / ((b.2 - a.2 : Int) : Rat)
      if t = 0 then [(a.1, 1)]
      else if curve = 0 then [(a.1, Config.cosHalfPi t), (b.1, Config.sinHalfPi t)]
      else
        let n := ratSqrt ((1 - t) * (1 - t) + t * t)
        [(a.1, (1 - t) / n), (b.1, t / n)]
    else panSide curve px (b :: r)

/-- The sides of SIDE in build terms: 0 left, 1 right, 2 centre (R114, R133). -/
def sidesOf (swap : Bool) (side : Nat) : List Nat :=
  match side with
  | 0 => [if swap then 1 else 0]
  | 1 => [if swap then 0 else 1]
  | 2 => [0, 1]
  | _ => [2]

/-- The side of a feed: left at y ≤ −50 mm, right at y ≥ 50 mm. -/
def feedSide (s : State) (f : Nat) : Nat :=
  let y := (feedPt s f).y
  if y ≤ -51200 then 0 else if y ≥ 51200 then 1 else 2

/-- Segment law (R133). -/
def lawSegment (s : State) (o : Nat) (p : Pt) (cs : List Nat) : Gains :=
  let sides := sidesOf (cabSwapped s) (pN s (.object o) 0x114)
  let pans := (sides.map fun sd =>
    let fs := (cs.filter fun f => feedSide s f == sd).foldl (fun l f => insertX (f, (feedPt s f).x) l) []
    panSide (pN s (.object o) 0x115) p.x (dedupX fs)).filter fun g => !g.isEmpty
  if pans.length = 2 then pans.flatten.map fun g => (g.1, g.2 * ratSqrt (1 / 2)) else pans.flatten

/-- The car of a build position (R120): inside its span, else the nearer end, ties to the lower number. -/
def carOf (s : State) (x : Int) : Nat :=
  let n := pN s .layout 0x103
  let front (c : Nat) : Int := 1024 * (pN s (.car c) 0x101 : Int)
  let rear (c : Nat) : Int := 1024 * (pN s (.car c) 0x102 : Int)
  let cars := (List.range n).map (· + 1)
  match cars.find? fun c => decide (front c ≤ x) && decide (x < rear c) with
  | some c => c
  | none => (nearest (fun c => min (x - front c).natAbs (x - rear c).natAbs) cars).getD 1

/-- Twice the signed area of a triangle in the x–y plane. -/
def cross (a b c : Pt) : Int := (b.x - a.x) * (c.y - a.y) - (b.y - a.y) * (c.x - a.x)

/-- Positive when `d` lies inside the circle of the anticlockwise triangle `a b c`, 0 on it. -/
def inCircle (a b c d : Pt) : Int :=
  let ax := a.x - d.x
  let ay := a.y - d.y
  let bx := b.x - d.x
  let by' := b.y - d.y
  let cx := c.x - d.x
  let cy := c.y - d.y
  let az := ax * ax + ay * ay
  let bz := bx * bx + by' * by'
  let cz := cx * cx + cy * cy
  ax * (by' * cz - bz * cy) - ay * (bx * cz - bz * cx) + az * (bx * cy - by' * cx)

/-- A triple is a triangle of the Delaunay triangulation, with the diagonals of R134: no feed inside its circle, and of the
feeds on the circle the lowest is a corner and the other two corners are neighbours as it sees them. -/
def delaunay (pt : Nat → Pt) (cs : List Nat) (a b c : Nat) : Bool :=
  let w := cross (pt a) (pt b) (pt c)
  let side (f : Nat) : Int := if w > 0 then inCircle (pt a) (pt b) (pt c) (pt f) else -(inCircle (pt a) (pt b) (pt c) (pt f))
  let on := cs.filter fun f => side f == 0
  let low := on.foldl min a
  let ok (m u v : Nat) : Bool := m == low && on.all fun f =>
    f == m || f == u || f == v || decide (0 ≤ cross (pt u) (pt v) (pt f) * cross (pt u) (pt v) (pt m))
  w != 0 && cs.all (fun f => decide (side f ≤ 0)) && (ok a b c || ok b a c || ok c a b)

/-- Barycentric weights of `p`, when it lies in the triangle. -/
def baryIn (pt : Nat → Pt) (p : Pt) (a b c : Nat) : Option (List Rat) :=
  let w := cross (pt a) (pt b) (pt c)
  let la := cross p (pt b) (pt c)
  let lb := cross (pt a) p (pt c)
  let lc := cross (pt a) (pt b) p
  if w != 0 && decide (0 ≤ la * w) && decide (0 ≤ lb * w) && decide (0 ≤ lc * w) then
    some ([la, lb, lc].map fun (l : Int) => (l : Rat) / (w : Rat))
  else none

/-- Weights scaled to unit power. -/
def unitPower (g : Gains) : Gains :=
  let n := ratSqrt (g.foldl (fun acc x => acc + x.2 * x.2) 0)
  g.map fun x => (x.1, x.2 / n)

/-- The edges of the hull: neighbours with every feed on one side; of collinear feeds, neighbours along the line (R134). -/
def hullEdges (pt : Nat → Pt) (cs : List Nat) : List (Nat × Nat) :=
  (cs.flatMap fun a => cs.map fun b => (a, b)).filter fun e =>
    decide (distXY2 (pt e.1) (pt e.2) ≠ 0) && cs.all fun f =>
      let w := cross (pt e.1) (pt e.2) (pt f)
      decide (0 ≤ w) &&
        (w != 0 ||
          decide (distXY2 (pt e.1) (pt e.2) ≤ distXY2 (pt e.1) (pt f) + distXY2 (pt f) (pt e.2)))

/-- Parameter of the point of an edge nearest to `p`, and its squared distance. -/
def onEdge (pt : Nat → Pt) (p : Pt) (e : Nat × Nat) : Rat × Rat :=
  let a := pt e.1
  let b := pt e.2
  let t0 : Rat := (((p.x - a.x) * (b.x - a.x) + (p.y - a.y) * (b.y - a.y) : Int) : Rat) / ((distXY2 a b : Nat) : Rat)
  let t := max 0 (min 1 t0)
  let dx : Rat := (a.x : Rat) + t * ((b.x - a.x : Int) : Rat) - (p.x : Rat)
  let dy : Rat := (a.y : Rat) + t * ((b.y - a.y : Int) : Rat) - (p.y : Rat)
  (t, dx * dx + dy * dy)

/-- Triplet law (R134). -/
def lawTriplet (s : State) (p : Pt) (cs0 : List Nat) : Gains :=
  let car := carOf s p.x
  let cs := cs0.filter fun f => pN s (.feed f) 0x142 == car
  let pt (f : Nat) : Pt := feedPt s f
  let tris := cs.flatMap fun a => (cs.filter (a < ·)).flatMap fun b => (cs.filter (b < ·)).filterMap fun c =>
    match baryIn pt p a b c with
    | none => none
    | some l => if delaunay pt cs a b c then some (a + b + c, [a, b, c].zip l) else none
  match tris with
  | t :: ts => unitPower (ts.foldl (fun best x => if x.1 < best.1 then x else best) t).2
  | [] =>
    match hullEdges pt cs with
    | [] => (cs.take 1).map fun f => (f, 1)
    | e :: es =>
      let best := es.foldl (fun b x => if (onEdge pt p x).2 < (onEdge pt p b).2 then x else b) e
      let t := (onEdge pt p best).1
      unitPower [(best.1, 1 - t), (best.2, t)]

/-- The pan gains of a law at one position; feeds with gain 0 are left out. -/
def lawAt (s : State) (o : Nat) (p : Pt) (cs : List Nat) (last : Option Nat) : Gains :=
  (match pN s (.object o) 0x112 with
  | 0 => ((pointFeed s p cs last).map fun f => (f, (1 : Rat))).toList
  | 1 => lawSegment s o p cs
  | 2 => lawTriplet s p cs
  | _ => cs.map fun f => (f, 1 / ratSqrt ((cs.length : Nat) : Rat))).filter fun g => g.2 != 0

/-- Insert by feed index. -/
def insertFeed (e : Nat × Rat) : Gains → Gains
  | [] => [e]
  | a :: as => if e.1 < a.1 then e :: a :: as else a :: insertFeed e as

/-- Sum of squares by feed. -/
def addSquares (g : Gains) (acc : Gains) : Gains :=
  g.foldl (fun acc x =>
    match findKey x.1 acc with
    | none => (x.1, x.2 * x.2) :: acc
    | some v => (x.1, v + x.2 * x.2) :: dropKey x.1 acc) acc

/-- Pan gains with SPREAD (R136), in feed order. -/
def spreadPan (s : State) (o : Nat) (p : Pt) (cs : List Nat) (last : Option Nat) : Gains :=
  let sp := pN s (.object o) 0x116
  let g :=
    if sp = 0 || pN s (.object o) 0x112 == 3 then lawAt s o p cs (if sp = 0 then last else none)
    else
      let parts := (List.range 5).map fun (i : Nat) =>
        lawAt s o { p with x := p.x + 256 * (sp : Int) * ((i : Int) - 2) } cs none
      (parts.foldl (fun acc g => addSquares g acc) []).map fun x => (x.1, ratSqrt (x.2 / 5))
  g.foldl (fun acc e => insertFeed e acc) []

/-- Insert by descending gain, ties to the lower feed. -/
def insertGain (e : Nat × Rat) : Gains → Gains
  | [] => [e]
  | a :: as => if a.2 < e.2 || (a.2 == e.2 && decide (e.1 < a.1)) then e :: a :: as else a :: insertGain e as

/-- The feeds by descending gain. -/
def byGain (g : Gains) : Gains := g.foldl (fun acc e => insertGain e acc) []

/-- R137: the CMAX largest gains, back at unit power, in feed order. -/
def truncateSet (g : Gains) (cmax : Nat) : Gains :=
  if g.length ≤ cmax then g else (unitPower ((byGain g).take cmax)).foldl (fun acc e => insertFeed e acc) []

/-! ### Distance, delay and steering (R138 to R145) -/

/-- r_f in mm (R138). -/
def rOf (s : State) (o : Nat) (p : Pt) (f : Nat) : Rat :=
  max (mmOf (dist2 p (feedPt s f))) ((pN s (.object o) 0x118 : Nat) : Rat)

/-- The distance factor (R138). -/
def distGain (s : State) (o : Nat) (p : Pt) (f : Nat) : Rat :=
  let ref : Rat := ((pN s (.object o) 0x118 : Nat) : Rat)
  let r := rOf s o p f
  match pN s (.object o) 0x117 with
  | 1 => ref / r
  | 2 => ratSqrt (ref / r)
  | 3 => max 0 (1 - (r - ref) / ((pN s (.object o) 0x119 : Nat) : Rat))
  | _ => 1

/-- One entry of the target set: feed, gain, delay in samples. -/
structure Tgt where
  feed  : Nat
  gain  : Rat
  delay : Rat
deriving DecidableEq, Repr

/-- Base and distance delays (R140). -/
def baseDelays (s : State) (o : Nat) (p : Pt) (g : Gains) : List Tgt :=
  let base : Rat := ((pN s (.object o) 0x11B : Nat) : Rat) / 65536
  let rs := g.map fun x => rOf s o p x.1
  let rmin := rs.foldl min (rs.headD 0)
  let ss : Rat := ((pN s .layout 0x104 : Nat) : Rat)
  g.map fun x =>
    { feed := x.1, gain := x.2,
      delay := base + (if pN s (.object o) 0x11A = 1 then (rOf s o p x.1 - rmin) * 48000 / ss else 0) }

/-- The lead feeds (R143). -/
def leadFeeds (s : State) (o : Nat) (ts : List Tgt) : List Nat :=
  let t := toBuild s (ptOf (param s (.object o) 0x131))
  let d (f : Nat) : Nat := distXY2 (feedPt s f) t
  let rad := 1024 * pN s (.object o) 0x133
  let near := (ts.map Tgt.feed).filter fun f => decide (d f ≤ rad * rad)
  if near.isEmpty then (nearest d (ts.map Tgt.feed)).toList else near

/-- Steering (R144, R145). -/
def steerSet (s : State) (o : Nat) (ts : List Tgt) : List Tgt :=
  if pN s (.object o) 0x130 = 0 then ts
  else
    let leads := leadFeeds s o ts
    let t := toBuild s (ptOf (param s (.object o) 0x131))
    let comp := pN s (.object o) 0x134
    let lead : Rat := ((pN s (.object o) 0x132 : Nat) : Rat) / 65536
    let ss : Rat := ((pN s .layout 0x104 : Nat) : Rat)
    ts.map fun x =>
      if leads.contains x.feed then
        { x with gain := if comp = 1 then x.gain * ratOfDb (-(pN s (.object o) 0x135 : Int)) else x.gain }
      else
        let h := mmOf (distXY2 (feedPt s x.feed) t)
        let more : Rat := if comp = 2 then
            min (((pN s (.object o) 0x136 : Nat) : Rat) / 65536) ((h - ((pN s (.object o) 0x133 : Nat) : Rat)) * 48000 / ss)
          else 0
        { x with delay := x.delay + lead + more }

/-- What planning finds: the target set in Q3.29 and Q16.16, the pan set's size, and the first feed that was clamped. -/
structure Target where
  set     : List (Nat × Int × Int)
  pan     : Nat
  clamped : Option Nat
deriving DecidableEq, Repr

/-- The target set of an object at the build position of its rendered position (R130). -/
def targetSet (s : State) (ob : Obj) (period : Nat) : Target :=
  let o := ob.n
  let p := toBuild s { x := ob.pos.getD 0 0, y := ob.pos.getD 1 0, z := ob.pos.getD 2 0 }
  let pan := spreadPan s o p (candidates s o) ob.near
  let g0 : Rat := ((ob.gain.at (ob.gain.pos + 16 * period - 1) : Int) : Rat) / ((gainUnit : Int) : Rat)
  let g := (truncateSet pan (pN s (.object o) 0x11C)).map fun x => (x.1, x.2 * distGain s o p x.1 * g0)
  let g := g.filter fun x => !decide (x.2 < ratOfDb (pZ s (.object o) 0x11D))
  let ts := steerSet s o (baseDelays s o p g)
  { set := ts.map fun x => (x.feed, toQ329 x.gain, toQ1616 (min x.delay 1920)), pan := pan.length,
    clamped := (ts.find? fun x => decide (1920 < x.delay)).map Tgt.feed }

/-! ### Slots (R147 to R150) -/

/-- Gain of sample `k` of the running frame (R148); `len` is 16 or 32. -/
def slotGain (sl : Slot) (len k : Nat) : Int :=
  let i := 16 * sl.part + k
  if i + 1 ≥ len then sl.g1
  else toQ329 (((sl.g0 * len + (sl.g1 - sl.g0) * ((i + 1 : Nat) : Int) : Int) : Rat) / (536870912 * ((len : Nat) : Rat)))

/-- The goal of the next period, and the slot that has begun it (R148). -/
def Slot.nextPeriod (sl : Slot) (start : Int) : Slot :=
  let j := sl.j + 1
  let part (g : Int) (n : Nat) : Int := toQ329 ((g : Rat) * (n : Rat) / (536870912 * ((sl.hand : Nat) : Rat)))
  let goal := if sl.st = 0 then sl.goal else if sl.st = 1 then part sl.goal j else part sl.gL (sl.hand - j)
  { sl with g0 := start, g1 := goal, part := 0, j := j }

/-- The plan of one slot (R147 steps 1 and 2): its new form, and whether it is a re-entry. -/
def planSlot (ts : List (Nat × Int × Int)) (reenter : Int) (hand len idx cmax : Nat) (sl : Slot) : Option Slot × Bool :=
  let now := slotGain sl len 15
  if sl.st = 2 then
    if sl.j ≥ sl.hand then (none, false) else (some (sl.nextPeriod now), false)
  else
    let sl := if sl.st = 1 && decide (sl.hand ≤ sl.j) then { sl with st := 0 } else sl
    match ts.find? fun t => t.1 == sl.feed with
    | some t =>
      if decide ((sl.delay - t.2.2).natAbs < reenter.natAbs) && decide (idx < cmax) then
        (some ({ sl with goal := t.2.1, target := t.2.2 }.nextPeriod now), false)
      else (some ({ sl with st := 2, j := 0, hand := hand, gL := now }.nextPeriod now), true)
    | none => (some ({ sl with st := 2, j := 0, hand := hand, gL := now }.nextPeriod now), false)

/-- A new contribution (R147 step 3). -/
def newSlot (hand : Nat) (t : Nat × Int × Int) : Slot :=
  ({ feed := t.1, st := 1, j := 0, hand := hand, g0 := 0, g1 := 0, part := 0, goal := t.2.1, gL := 0, delay := t.2.2,
     target := t.2.2 } : Slot).nextPeriod 0

/-- Give new contributions the free slots in order; what is left over is deferred. -/
def fillSlots (hand : Nat) : List (Option Slot) → List (Nat × Int × Int) → List (Option Slot) × Nat
  | [], ts => ([], ts.length)
  | some sl :: r, ts => let q := fillSlots hand r ts; (some sl :: q.1, q.2)
  | none :: r, [] => let q := fillSlots hand r []; (none :: q.1, q.2)
  | none :: r, t :: ts => let q := fillSlots hand r ts; (some (newSlot hand t) :: q.1, q.2)

/-- Order of new contributions: descending gain, ties to the lower feed. -/
def insertTgt (e : Nat × Int × Int) : List (Nat × Int × Int) → List (Nat × Int × Int)
  | [] => [e]
  | a :: as => if a.2.1 < e.2.1 || (a.2.1 == e.2.1 && decide (e.1 < a.1)) then e :: a :: as else a :: insertTgt e as

/-- Slots resized to CMAX: free slots above it go; occupied ones leave (log 21). -/
def resizeSlots (cmax : Nat) (l : List (Option Slot)) : List (Option Slot) :=
  if l.length ≤ cmax then l ++ List.replicate (cmax - l.length) none
  else l.take cmax ++ ((l.drop cmax).reverse.dropWhile Option.isNone).reverse

/-- One object's plan at the planning boundary (R130, R147). -/
def planObj (s : State) (ob : Obj) (len : Nat) : Obj × Target × Nat :=
  let o := ob.n
  let u := s.render.period
  let p0 : Pt := { x := ob.pos.getD 0 0, y := ob.pos.getD 1 0, z := ob.pos.getD 2 0 }
  let p := moveToward p0 (ptOf (param s (.object o) 0x110)) (pN s (.object o) 0x111) u
  let ob := { ob with pos := [p.x, p.y, p.z] }
  let t := targetSet s ob u
  let near := pointFeed s (toBuild s p) (candidates s o) (if pN s (.object o) 0x116 = 0 then ob.near else none)
  let cmax := pN s (.object o) 0x11C
  let hand := pN s (.object o) 0x11E
  let plans := ((resizeSlots cmax ob.slots).zipIdx).map fun e =>
    match e.1 with
    | none => (none, false)
    | some sl => planSlot t.set (pN s (.object o) 0x11F) hand len e.2 cmax sl
  let kept := plans.filterMap fun x => x.1.bind fun sl => if sl.st = 2 then none else some sl.feed
  let fresh := (t.set.filter fun x => !kept.contains x.1).foldl (fun acc e => insertTgt e acc) []
  let q := fillSlots hand (resizeSlots cmax (plans.map (·.1))) fresh
  ({ ob with near := near, slots := q.1,
             reentries := satAdd32 ob.reentries (plans.filter (·.2)).length, deferrals := satAdd32 ob.deferrals q.2 }, t, q.2)

/-- The events of an object's plan (R131, R137, R140, R147). -/
def planEvents (old : Obj) (t : Target) (deferred : Nat) (s : State) : State :=
  let n := some (Node.object old.n)
  let b := lastBoundary s
  let trunc := decide (pN s (.object old.n) 0x11C < t.pan)
  let s := if t.pan = 0 && !old.noFeeds then raiseOwn 0x1005 .boundary b n 0 s else s
  let s := if trunc && !old.truncated then raiseOwn 0x1003 .boundary b n t.pan s else s
  let s := match t.clamped with
    | some f => if old.clampArmed then raiseOwn 0x1004 .boundary b n f s else s
    | none => s
  let s := if deferred ≠ 0 && !old.deferring then raiseOwn 0x1002 .boundary b n deferred s else s
  s.updObj old.n fun o => { o with
    noFeeds := t.pan == 0, truncated := trunc, deferring := deferred != 0,
    clampArmed := o.clampArmed && t.clamped.isNone }

/-- The planning of a dispatch boundary (R127, R155): the period changes first, then every object is planned. -/
def planAll (s : State) : State :=
  let b := lastBoundary s
  let odd := b / frameTicks % 2 == 1
  let len := 16 * s.render.period
  let change := (s.render.wanted == 2 && s.render.period == 1 && !odd) || (s.render.wanted == 1 && s.render.period == 2)
  let s := if change then
      raiseOwn 0x1007 .boundary b none (b2n (s.render.wanted == 2)) { s with render := { s.render with period := s.render.wanted } }
    else s
  if s.render.period = 2 && odd then
    { s with render := { s.render with
        objs := s.render.objs.map fun o => { o with slots := o.slots.map fun x => x.map fun sl => { sl with part := 1 } } } }
  else
    s.render.objs.foldl (fun s o =>
      let q := planObj s o len
      planEvents o q.2.1 q.2.2 (s.updObj o.n fun _ => q.1)) s

/-! ### Samples (R141, R142, R148, R151, R152) -/

/-- One read of a delay line, newest first from the sample's own input, at a delay in Q16.16 (R141). -/
def lagrange (h : List Int) (d : Int) : Int :=
  let n := (d / 65536).toNat
  let m : Rat := ((d % 65536 : Int) : Rat) / 65536
  let x (i : Nat) : Int := h.getD i 0
  let ws : List (Rat × Int) :=
    if n ≥ 1 then
      [(-(m * (m - 1) * (m - 2)) / 6, x (n - 1)), ((m + 1) * (m - 1) * (m - 2) / 2, x n),
       (-((m + 1) * m * (m - 2)) / 2, x (n + 1)), ((m + 1) * m * (m - 1) / 6, x (n + 2))]
    else
      [(-((m - 1) * (m - 2) * (m - 3)) / 6, x 0), (m * (m - 2) * (m - 3) / 2, x 1),
       (-(m * (m - 1) * (m - 3)) / 2, x 2), (m * (m - 1) * (m - 2) / 6, x 3)]
  (reduce (sumInt (ws.map fun w => toW30 w.1 * w.2)) 30).1

/-- The delay after one sample (R142). -/
def glide (sl : Slot) : Int :=
  if sl.st = 2 then sl.delay
  else if sl.delay < sl.target then min sl.target (sl.delay + 655) else max sl.target (sl.delay - 655)

/-- Samples `k` to 15 of a slot: its contributions, and the slot moved on. -/
def slotRun (line : List Int) (len : Nat) : Nat → Slot → Part × Slot
  | 0, sl => ([], sl)
  | m + 1, sl =>
    let k := 15 - m
    let y := lagrange (line.drop (15 - k)) sl.delay
    let v : Rat := ((y * slotGain sl len k : Int) : Rat) / 536870912
    let r := slotRun line len m { sl with delay := glide sl }
    (v :: r.1, r.2)

/-- One frame of an object from its source: the object moved on, and its contributions by feed (R125, R151). -/
def objFrame (s : State) (src : Word → Nat → Int) (o : Obj) : Obj × List (Nat × Part) :=
  let x := (List.range 16).map fun k => o.src.mix k fun w => src w k
  let line := pushAll x o.line 2048
  let len := 16 * s.render.period
  let runs := o.slots.map fun e => e.map fun sl => (sl.feed, slotRun line len 16 sl)
  let wet := runs.filterMap fun e => e.map fun q => (q.1, q.2.1)
  let part (b : Nat) (p : Part) : Part := p.zipIdx.map fun e => fadeRat o.byp e.2 fun w => if w = b then e.1 else 0
  let dry := match o.near with
    | none => []
    | some f => [(f, part 1 (x.map fun (v : Int) => (v : Rat)))]
  ({ o with line := line, src := o.src.advance, byp := o.byp.advance, gain := o.gain.advance,
            slots := runs.map fun e => e.map fun q => q.2.2 },
   (wet.map fun e => (e.1, part 0 e.2)) ++ dry)

/-! ### Commits and admission (R123, R129) -/

/-- What a committed write of an object parameter does at its boundary; `over` is the length of a scene fade (R123, R231). -/
def applyObject (given : Option Nat) (o tag : Nat) (s : State) : State :=
  let n := Node.object o
  s.updObj o fun x =>
    let x := { x with clampArmed := true }
    if tag = 0x100 then { x with byp := bypassTo x.byp (pN s n tag) (given.getD (framesOfMs (pN s n 0x102))) }
    else if tag = 0x101 then { x with src := (routeAsk x.src (pW s n tag 0) (given.getD (framesOfMs (pN s n 0x102)))).1 }
    else if tag = 0x103 then { x with gain := x.gain.to (objGain (pZ s n tag)) (given.getD (framesOfMs (pN s n 0x104))) }
    else x

/-- CAB_SWAP_APPLIED (R116). -/
def cabSwapApplied (mb : Nat) (s : State) : State :=
  raiseEvent
    { code := 0x1001, kind := .boundary, stamp := lastBoundary s, node := some { node := .layout, tag := some 0x101 },
      source := mb, cls := eventClass s none mb, detail := pN s .layout 0x101, items := [] }
    { s with render := { s.render with objs := s.render.objs.map fun o => { o with clampArmed := true } } }

/-- R181 steps 1 and 2 for objects. -/
def settleObjs (s : State) : State :=
  { s with render := { s.render with objs := s.render.objs.map fun x =>
      { x with src := settleFade x.src (framesOfMs (pN s (.object x.n) 0x102)),
               byp := settleFade x.byp (framesOfMs (pN s (.object x.n) 0x102)) } } }

/-- An object as the admission that creates it starts it. -/
def newObj (s : State) (o : Nat) : Obj :=
  let n := Node.object o
  let p := ptOf (param s n 0x110)
  { n := o, pos := [p.x, p.y, p.z], slots := List.replicate (pN s n 0x11C) none, reentries := 0, deferrals := 0,
    truncated := false, deferring := false, noFeeds := false, clampArmed := true, near := none,
    gain := Ramp.const (objGain (pZ s n 0x103)), src := Fade.const (pW s n 0x101 0), byp := Fade.const (pN s n 0x100),
    line := [] }

/-! ### Cost and read-only values (R123, R154) -/

/-- CYCLES of an object, single computation, with planning every `u` frames. -/
def objCycles (cmax u : Nat) : Nat := 20 * cmax + ceilDiv (8 * cmax + 120) u
def objHub (cmax : Nat) : Nat := 8192 + 16 * cmax + 128

def roObject (s : State) (o tag : Nat) : List Word :=
  match s.objAt o with
  | none => w1 0
  | some x =>
    let occ := x.slots.filterMap id
    if tag = 0x180 then x.pos.map rposWord
    else if tag = 0x181 then w1 occ.length
    else if tag = 0x182 then w1 x.reentries
    else if tag = 0x183 then w1 x.deferrals
    else if tag = 0x184 then w1 (b2n x.truncated)
    else occ.flatMap fun sl => [wd (sl.st * 65536 + sl.feed), wi (slotGain sl (16 * s.render.period) 15), wi sl.delay]

end Sys2Proof.Machine
end

