-- ==== Sys2Proof/Machine/Flags.lean ====
section
/-! DEFINITION. The arithmetic of the spokes with its saturation bit and flags (08, R274 to R278). A raw accumulator is an
integer of the 72-bit range; a result comes with the overflow it causes. -/

namespace Sys2Proof.Machine

/-- Two's complement of `n` bits: the low `n` bits as a signed number. -/
def wrapBits (n : Nat) (z : Int) : Int := (z + 2 ^ (n - 1)) % 2 ^ n - 2 ^ (n - 1)

/-- Outside the signed range of `n` bits. -/
def outBits (n : Nat) (z : Int) : Bool := decide (z < -(2 ^ (n - 1))) || decide (2 ^ (n - 1) ≤ z)

/-- Clamp to the signed range of `n` bits. -/
def clampBits (n : Nat) (z : Int) : Int := max (-(2 ^ (n - 1))) (min (2 ^ (n - 1) - 1) z)

/-- An exact result in `n` bits: clamped with s = 1, wrapped with s = 0; and whether it overflowed (R275). -/
def narrow (n : Nat) (s : Bool) (z : Int) : Int × Bool := (if outBits n z then (if s then clampBits n z else wrapBits n z) else z, outBits n z)

/-- A new accumulator value (R275). -/
def accNarrow (s : Bool) (z : Int) : Int × Bool := narrow 72 s z

/-- A 32-bit result (R275, R278). -/
def wordNarrow (s : Bool) (z : Int) : Word × Bool := let r := narrow 32 s z; (wi r.1, r.2)

/-- The reduction of R277: `floor ((a + 2^(30-SH)) / 2^(31-SH))`, SH from −16 to 15. -/
def redExact (a sh : Int) : Int := (a + 2 ^ (30 - sh).toNat) / 2 ^ (31 - sh).toNat

/-- RED of an accumulator (R277), MULR of a product with SH = 0 (R278). -/
def redWord (s : Bool) (a sh : Int) : Word × Bool := wordNarrow s (redExact a sh)

/-- One exact product of two data registers (R274), negated when `neg` (R289). -/
def prod (neg : Bool) (x y : Word) : Int := if neg then -(x.toInt * y.toInt) else x.toInt * y.toInt

/-- One accumulation (R275, R289): from 0 with Z. -/
def accumulate (s z : Bool) (acc term : Int) : Int × Bool := accNarrow s ((if z then 0 else acc) + term)

/-- The complex product (R279): real and imaginary part, with the second factor conjugated when asked. -/
def cprod (conj : Bool) (a b c d : Word) : Int × Int :=
  let dd : Int := if conj then -d.toInt else d.toInt
  (a.toInt * c.toInt - b.toInt * dd, a.toInt * dd + b.toInt * c.toInt)

/-- FLAGS as read (R272): bit 0 OVA, bit 1 OVR. -/
def flagsWord (ova ovr : Bool) : Word := wd (b2n ova + 2 * b2n ovr)

end Sys2Proof.Machine
end

