-- ==== Sys2Proof/Machine/Operands.lean ====
section
/-! DEFINITION. The operands of the spokes: registers, address generation with rims and bit reversal (08, R282 to R286), SRAM
banks and areas (R280, R281). -/

namespace Sys2Proof.Machine

/-! ### Registers -/

def Regs.rd (r : Regs) (i : Nat) : Word := r.d.getD i 0#32
def Regs.ra (r : Regs) (i : Nat) : Int := r.acc.getD i 0
def Regs.wrD (r : Regs) (i : Nat) (v : Word) : Regs := { r with d := r.d.set i v }
def Regs.wrA (r : Regs) (i : Nat) (v : Int) : Regs := { r with acc := r.acc.set i v }
def Regs.wrP (r : Regs) (i : Nat) (v : Word) : Regs := { r with p := r.p.set i v }

/-- Read an address register of kind 0 p, 1 n, 2 rb, 3 rl (R290). -/
def Regs.addrReg (r : Regs) (kind i : Nat) : Word :=
  (match kind with
  | 0 => r.p
  | 1 => r.n
  | 2 => r.rb
  | _ => r.rl).getD i 0#32

/-- Write an address register of a kind. -/
def Regs.setAddrReg (r : Regs) (kind i : Nat) (v : Word) : Regs :=
  match kind with
  | 0 => { r with p := r.p.set i v }
  | 1 => { r with n := r.n.set i v }
  | 2 => { r with rb := r.rb.set i v }
  | _ => { r with rl := r.rl.set i v }

/-- The name of an address register. -/
def addrName (kind i : Nat) : CReg :=
  match kind with
  | 0 => .p i
  | 1 => .n i
  | 2 => .rb i
  | _ => .rl i

/-- The value of a register as an integer. -/
def Regs.value (r : Regs) : CReg → Int
  | .d i => (r.rd i).toInt
  | .acc i => r.ra i
  | .p i => (r.addrReg 0 i).toInt
  | .n i => (r.addrReg 1 i).toInt
  | .rb i => (r.addrReg 2 i).toInt
  | .rl i => (r.addrReg 3 i).toInt

/-! ### Addresses -/

/-- The low 2 bits of rb and rl are ignored (R283). -/
def aligned4 (w : Word) : Nat := w.toNat / 4 * 4

/-- An offset from a rim's base, folded into the rim (R283). -/
def rimFold (rb rl : Nat) (a : Int) : Word := wi ((rb : Int) + (a - (rb : Int)) % (rl : Int))

/-- The address of word `i` of an access through pointer `k` (R283). -/
def wordAddr (r : Regs) (k i : Nat) : Nat :=
  let p : Int := ((r.addrReg 0 k).toNat : Nat)
  let rl := aligned4 (r.addrReg 3 k)
  let rb := aligned4 (r.addrReg 2 k)
  (if rl = 0 then wi (p + 4 * (i : Int)) else rimFold rb rl (p + 4 * (i : Int))).toNat

/-- A bit field reversed. -/
def revBits : Nat → Nat → Nat
  | 0, _ => 0
  | n + 1, v => v % 2 * 2 ^ n + revBits n (v / 2)

/-- The power of two that a length is, from 2^3 to 2^19. -/
def rimLog (rl : Nat) : Option Nat := ((List.range 17).map (· + 3)).find? fun k => rl == 2 ^ k

/-- The pointer after mode 1 with offset register `j` (R282, R283). -/
def postAdd (r : Regs) (k j : Nat) : Word :=
  let p : Int := ((r.addrReg 0 k).toNat : Nat)
  let n := (r.addrReg 1 j).toInt
  let rl := aligned4 (r.addrReg 3 k)
  if rl = 0 then wi (p + n) else rimFold (aligned4 (r.addrReg 2 k)) rl (p + n)

/-- The pointer after mode 2 (R285). -/
def postRev (r : Regs) (k j : Nat) : Word :=
  let p : Int := ((r.addrReg 0 k).toNat : Nat)
  let rl := aligned4 (r.addrReg 3 k)
  let rb := aligned4 (r.addrReg 2 k)
  let m := (r.addrReg 1 j).toInt / 4
  let step (bits : Nat) (w : Nat) : Nat :=
    revBits bits ((revBits bits w + revBits bits (m % 2 ^ bits).toNat) % 2 ^ bits)
  match (if rl = 0 then none else rimLog rl) with
  | some kk =>
    let w := ((p - (rb : Int)) % (rl : Int)).toNat / 4
    wd (rb + 4 * step (kk - 2) w)
  | none => wd (4 * step 17 (p.toNat / 4 % 2 ^ 17))

/-- The pointer after an access in a mode: none where it stays (R282). -/
def postModify (r : Regs) (mode k j : Nat) : Option Word :=
  match mode with
  | 1 => some (postAdd r k j)
  | 2 => some (postRev r k j)
  | _ => none

/-- R286: the pointer is a multiple of 4. -/
def ptrAligned (r : Regs) (k : Nat) : Bool := (r.addrReg 0 k).toNat % 4 == 0

/-! ### SRAM -/

/-- Bytes of spoke SRAM (R280). -/
def sramSize : Nat := 524288

/-- Extra cycles of an access to words at these addresses (R280). -/
def bankExtra (addrs : List Nat) : Nat :=
  maxNat ((List.range 16).map fun b => (addrs.filter fun a => a / 4 % 16 == b).length) - 1

/-- A range lies within one area, writable when asked (R281). -/
def inAreas (areas : List Area) (a len : Nat) (write : Bool) : Bool :=
  areas.any fun x => decide (x.base ≤ a) && decide (a + len ≤ x.base + x.size) && (!write || x.rw)

/-- An access is allowed: within the instance's areas; for firmware code, within spoke SRAM (log 22). -/
def mayAccess (c : Core) (a len : Nat) (write : Bool) : Bool :=
  if c.inst.isNone then decide (a + len ≤ sramSize) else inAreas c.areas a len write

/-- The 72-bit accumulator of three words (R288, ld.a), and the three words of one (st.a). -/
def accOfWords (w0 w1 w2 : Word) : Int :=
  (w0.toNat : Int) + 2 ^ 32 * (w1.toNat : Int) + 2 ^ 64 * (w2.extractLsb' 0 8).toInt
def wordsOfAcc (a : Int) : List Word := [wi a, wi (a / 2 ^ 32), wi (a / 2 ^ 64)]

end Sys2Proof.Machine
end

