-- ==== Sys2Proof/Machine/Spoke.lean ====
section
/-! DEFINITION. The spoke datapath (08): bundles slot by slot, their timing and faults, DMA, and one meaning per opcode of the
three slots and of format B. A slot command runs its slot of the bundle that the sequencer of the spoke has fetched: a
load/store slot, then a MAC slot, then a control slot, which ends the bundle; a slot that does not follow the last one in
this order begins the next bundle, and absent slots are no-operations (DESIGN CHOICE, log 22). -/

namespace Sys2Proof.Machine

def State.spokeAt (s : State) (sp : Nat) : Option SpokeSt := s.spokes[sp]?
def State.coreAt (s : State) (sp : Nat) : Option Core := (s.spokeAt sp).map SpokeSt.core
def State.updSpoke (s : State) (sp : Nat) (f : SpokeSt → SpokeSt) : State := { s with spokes := s.spokes.modify sp f }
def State.setCore (s : State) (sp : Nat) (c : Core) : State := s.updSpoke sp fun x => { x with core := c }
def State.instAt (s : State) (p : List Name) : Option Inst := s.insts.find? fun i => i.path == p
def State.updInst (s : State) (p : List Name) (f : Inst → Inst) : State :=
  { s with insts := s.insts.map fun i => if i.path == p then f i else i }

/-- CORE cycles in tally ticks at the spoke clock (R18, R19). -/
def coreCycles (s : State) (ticks : Nat) : Nat := ticks * s.clk.mhz * 1000 / 24576

/-! ### Bundles (R287, R290 to R294) -/

/-- The next bundle in sequence, and the loops still active (R290, R294). -/
def seqNext (pc : Nat) : List HwLoop → List HwLoop × Nat
  | [] => ([], (pc + 8) % 2 ^ 32)
  | l :: ls =>
    if pc = l.last then (if 1 < l.left then ({ l with left := l.left - 1 } :: ls, l.first) else seqNext pc ls)
    else let r := seqNext pc ls; (l :: r.1, r.2)

/-- The open bundle ends, with `more` stall cycles, in sequence. -/
def endBundle (more : Nat) (c : Core) : Core :=
  let r := seqNext c.pc c.loops
  { c with rank := 0, next := c.issue + 1 + c.extra + more, loops := r.1, pc := r.2 }

/-- The open bundle ends by a taken branch (R294). -/
def branchTo (off : Int) (c : Core) : Core :=
  let t := ((c.pc : Int) + 8 * off) % 2 ^ 32
  { c with rank := 0, next := c.issue + 1 + c.extra + 2, pc := t.toNat,
           loops := c.loops.filter fun l => decide ((l.first : Int) ≤ t) && decide (t ≤ (l.last : Int)) }

/-- What a slot reads and writes. Reads carry true where the consumer is a further accumulation; writes carry the latencies
of R292 to a further accumulation and to any other consumer. -/
structure SlotSpec where
  rank   : Nat
  fresh  : Bool
  legal  : Bool
  reads  : List (CReg × Bool)
  writes : List (CReg × Nat × Nat)

/-- The first cycle at which a slot may issue: its operands are visible (R292), and its writes land after pending ones (R293). -/
def issueAt (c : Core) (k : SlotSpec) (from_ : Nat) : Nat :=
  let t := k.reads.foldl (fun t r =>
    c.flights.foldl (fun t f => if f.reg == r.1 then max t (if r.2 then f.at1 else f.at2) else t) t) from_
  k.writes.foldl (fun t w =>
    c.flights.foldl (fun u f => if f.reg == w.1 && decide (t + w.2.1 ≤ f.at1) then max u f.at1 else u) t) t

/-- Open a bundle where the slot needs one, and stall it (R287, R292). -/
def openSlot (k : SlotSpec) (c : Core) : Core :=
  let c := if c.rank ≠ 0 && (k.fresh || decide (k.rank ≤ c.rank)) then endBundle 0 c else c
  let c := if c.rank = 0 then
      { c with
        snap := c.regs, written := [], undo := [], cmac := false, setA := false, setR := false, issue := c.next, extra := 0,
        flights := c.flights.filter fun f => decide (c.next < f.at2) }
    else c
  { c with rank := k.rank, issue := issueAt c k c.issue }

/-- Record the writes of a slot: the registers, and the results not yet visible. -/
def noteWrites (k : SlotSpec) (c : Core) : Core :=
  { c with
    written := c.written ++ k.writes.map (·.1),
    flights := c.flights ++ (k.writes.filter fun w => decide (1 < w.2.2)).map fun w =>
      { reg := w.1, old := c.snap.value w.1, at1 := c.issue + w.2.1, at2 := c.issue + w.2.2 } }

/-- Undo what the open bundle has done (R302: the faulting bundle has no effect). -/
def dropBundle (c : Core) : Core :=
  { c with regs := c.snap, sram := c.undo.foldl (fun m u => m.put u.1 u.2) c.sram, rank := 0, written := [], undo := [] }

/-- A fault of a copy of an instance in the running frame (R302 to R304). -/
def instFault (copy code frame : Nat) (i : Inst) : Inst :=
  { i with
    faults := if i.now.isEmpty then satAdd32 i.faults 1 else i.faults,
    code := if copy = 0 || i.now.isEmpty then code else i.code,
    now := i.now ++ [(copy, code)],
    faultFrames := if copy = 0 then frame :: i.faultFrames.filter fun f => decide (frame < f + 3000) else i.faultFrames }

/-- A fault with a code of R302: the bundle has no effect; an instance stops. Firmware code drops the bundle and goes on. -/
def stageFault (sp code : Nat) (s : State) : State :=
  match s.coreAt sp with
  | none => s
  | some c =>
    match c.inst with
    | none => s.setCore sp (dropBundle c)
    | some p =>
      (s.setCore sp { dropBundle c with mode := .stopped, stall := none }).updInst p
        (instFault c.copy code (s.snd.running.getD 0 / 8192))

/-- The spoke runs bundles: it is neither stalled nor between `exit` or a fault and the next entry. -/
def Core.runs (c : Core) : Bool := (c.mode == .firmware || c.mode == .body) && c.stall.isNone

/-- Two of a bundle's slots write one register, or a slot's operands break their rule (R291). -/
def slotIllegal (k : SlotSpec) (c : Core) : Bool := !k.legal || k.writes.any fun w => c.written.contains w.1

/-- The fence has run out before the bundle issues (R301, R302). -/
def pastFence (c : Core) : Bool := c.inst.isSome && decide (c.fence < c.issue)

/-- Run a slot: its bundle stalls as long as it must, then the slot has its effect or its fault. -/
def runSlot (sp : Nat) (k : SlotSpec) (body : Core → Core × Option Nat) (s : State) : Host.Outcome State Fault Refusal :=
  match s.coreAt sp with
  | none => .next s
  | some c =>
    if !c.runs then .next s
    else
      let o := openSlot k c
      if pastFence o then .next (stageFault sp 4 (s.setCore sp o))
      else if slotIllegal k o then .next (stageFault sp 1 (s.setCore sp o))
      else
        match body o with
        | (r, none) => .next (s.setCore sp (noteWrites k r))
        | (_, some f) => .next (stageFault sp f (s.setCore sp o))

/-! ### Load/store slot (R280 to R288) -/

/-- Registers of an access through a pointer. -/
def addrReads (p : Nat) (mode n : Nat) : List (CReg × Bool) :=
  [(.p p, false), (.rb p, false), (.rl p, false)] ++ (if mode = 0 then [] else [(.n n, false)])
def addrWrites (p mode : Nat) : List (CReg × Nat × Nat) := if mode = 0 then [] else [(.p p, 1, 1)]

/-- Post-modify the pointer (R282). -/
def postMod (mode p n : Nat) (c : Core) : Core :=
  match postModify c.snap mode p n with
  | none => c
  | some v => { c with regs := c.regs.wrP p v }

/-- The words at the addresses of an access, or none on an access fault (R281, R286). -/
def loadWords (c : Core) (p n : Nat) : Option (List Word) :=
  let as := (List.range n).map fun i => wordAddr c.snap p i
  if ptrAligned c.snap p && as.all (fun a => mayAccess c a 4 false) then some (as.map fun a => c.sram.word a) else none

/-- Store words at the addresses of an access, or none on an access fault. -/
def storeWords (c : Core) (p : Nat) (ws : List Word) : Option Core :=
  let as := (List.range ws.length).map fun i => wordAddr c.snap p i
  if ptrAligned c.snap p && as.all (fun a => mayAccess c a 4 true) then
    some { c with
      sram := (as.zip ws).foldl (fun m e => m.putWord e.1 e.2) c.sram,
      undo := (as.flatMap fun a => (List.range 4).map fun j => (a + j, c.sram.get (a + j))) ++ c.undo }
  else none

/-- The extra cycles of an access (R280). -/
def addExtra (c : Core) (as : List Nat) : Core := { c with extra := c.extra + bankExtra as }

/-- Write words to consecutive data registers. -/
def putRegs (d : Nat) (ws : List Word) (r : Regs) : Regs :=
  ws.zipIdx.foldl (fun r e => r.wrD (d + e.2) e.1) r

def lsSpec (legal : Bool) (reads : List (CReg × Bool)) (writes : List (CReg × Nat × Nat)) : SlotSpec :=
  { rank := 1, fresh := false, legal := legal, reads := reads, writes := writes }

/-- ld.w, ld.d, ld.q: `n` words to d[D] and up. -/
def loadSlot (sp d p mode n cnt : Nat) (s : State) : Host.Outcome State Fault Refusal :=
  runSlot sp
    (lsSpec (decide (d + cnt ≤ 32) && d % cnt == 0 && decide (p < 8) && decide (mode < 3) && decide (n < 8))
      (addrReads p mode n) (addrWrites p mode ++ (List.range cnt).map fun i => (CReg.d (d + i), 3, 3)))
    (fun c =>
      match loadWords c p cnt with
      | none => (c, some 2)
      | some ws =>
        let c := addExtra c ((List.range cnt).map fun i => wordAddr c.snap p i)
        (postMod mode p n { c with regs := putRegs d ws c.regs }, none)) s

/-- st.w, st.d, st.q: `cnt` words from d[D] and up. -/
def storeSlot (sp d p mode n cnt : Nat) (s : State) : Host.Outcome State Fault Refusal :=
  runSlot sp
    (lsSpec (decide (d + cnt ≤ 32) && d % cnt == 0 && decide (p < 8) && decide (mode < 3) && decide (n < 8))
      (addrReads p mode n ++ (List.range cnt).map fun i => (CReg.d (d + i), false)) (addrWrites p mode))
    (fun c =>
      match storeWords c p ((List.range cnt).map fun i => c.snap.rd (d + i)) with
      | none => (c, some 2)
      | some c' => (postMod mode p n (addExtra c' ((List.range cnt).map fun i => wordAddr c.snap p i)), none)) s

/-- `lnop`: no effect. -/
def execLnop (sp : Nat) (s : State) : Host.Outcome State Fault Refusal :=
  runSlot sp (lsSpec true [] []) (fun c => (c, none)) s
/-- `ld.w`. -/
def execLdW (sp d p mode n : Nat) (s : State) : Host.Outcome State Fault Refusal := loadSlot sp d p mode n 1 s
/-- `ld.d`: D even. -/
def execLdD (sp d p mode n : Nat) (s : State) : Host.Outcome State Fault Refusal := loadSlot sp d p mode n 2 s
/-- `ld.q`: D a multiple of 4. -/
def execLdQ (sp d p mode n : Nat) (s : State) : Host.Outcome State Fault Refusal := loadSlot sp d p mode n 4 s
/-- `st.w`. -/
def execStW (sp d p mode n : Nat) (s : State) : Host.Outcome State Fault Refusal := storeSlot sp d p mode n 1 s
/-- `st.d`: D even. -/
def execStD (sp d p mode n : Nat) (s : State) : Host.Outcome State Fault Refusal := storeSlot sp d p mode n 2 s
/-- `st.q`: D a multiple of 4. -/
def execStQ (sp d p mode n : Nat) (s : State) : Host.Outcome State Fault Refusal := storeSlot sp d p mode n 4 s

/-- `ld.ww`: two words through two pointers, each post-modified by its own offset register; DA ≠ DB, PA ≠ PB. -/
def execLdWW (sp da pa db pb : Nat) (s : State) : Host.Outcome State Fault Refusal :=
  runSlot sp
    (lsSpec (decide (da < 32) && decide (db < 32) && decide (pa < 8) && decide (pb < 8) && da != db && pa != pb)
      (addrReads pa 1 pa ++ addrReads pb 1 pb)
      [(.p pa, 1, 1), (.p pb, 1, 1), (.d da, 3, 3), (.d db, 3, 3)])
    (fun c =>
      match loadWords c pa 1, loadWords c pb 1 with
      | some [a], some [b] =>
        let c := addExtra c [wordAddr c.snap pa 0, wordAddr c.snap pb 0]
        (postMod 1 pb pb (postMod 1 pa pa { c with regs := (c.regs.wrD da a).wrD db b }), none)
      | _, _ => (c, some 2)) s

/-- `ld.a`: an accumulator from three words. -/
def execLdA (sp a p mode n : Nat) (s : State) : Host.Outcome State Fault Refusal :=
  runSlot sp
    (lsSpec (decide (a < 8) && decide (p < 8) && decide (mode < 3) && decide (n < 8)) (addrReads p mode n)
      (addrWrites p mode ++ [(.acc a, 3, 3)]))
    (fun c =>
      match loadWords c p 3 with
      | some [w0, w1, w2] =>
        let c := addExtra c ((List.range 3).map fun i => wordAddr c.snap p i)
        (postMod mode p n { c with regs := c.regs.wrA a (accOfWords w0 w1 w2) }, none)
      | _ => (c, some 2)) s

/-- `st.a`: an accumulator to three words, the last sign-extended. -/
def execStA (sp a p mode n : Nat) (s : State) : Host.Outcome State Fault Refusal :=
  runSlot sp
    (lsSpec (decide (a < 8) && decide (p < 8) && decide (mode < 3) && decide (n < 8))
      (addrReads p mode n ++ [(.acc a, false)]) (addrWrites p mode))
    (fun c =>
      match storeWords c p (wordsOfAcc (c.snap.ra a)) with
      | none => (c, some 2)
      | some c' => (postMod mode p n (addExtra c' ((List.range 3).map fun i => wordAddr c.snap p i)), none)) s

/-! ### MAC slot (R289) -/

def macSpec (legal : Bool) (reads : List (CReg × Bool)) (writes : List (CReg × Nat × Nat)) : SlotSpec :=
  { rank := 2, fresh := false, legal := legal, reads := reads, writes := writes }

/-- OVA and OVR are sticky (R275). -/
def setOva (o : Bool) (c : Core) : Core :=
  { c with regs := { c.regs with ova := c.regs.ova || o }, setA := c.setA || o }
def setOvr (o : Bool) (c : Core) : Core :=
  { c with regs := { c.regs with ovr := c.regs.ovr || o }, setR := c.setR || o }

/-- One accumulation into acc[A] (R275). -/
def accOp (s z : Bool) (a : Nat) (term : Int) (c : Core) : Core :=
  let r := accumulate s z (c.snap.ra a) term
  setOva r.2 { c with regs := c.regs.wrA a r.1 }

/-- A result in a data register, with its overflow into OVR. -/
def regOp (x : Nat) (v : Word × Bool) (c : Core) : Core := setOvr v.2 { c with regs := c.regs.wrD x v.1 }

def accRead (z : Bool) (a : Nat) : List (CReg × Bool) := if z then [] else [(.acc a, true)]
def dReads (l : List Nat) : List (CReg × Bool) := l.map fun i => (CReg.d i, false)

/-- `mnop`: no effect. -/
def execMnop (sp : Nat) (s : State) : Host.Outcome State Fault Refusal :=
  runSlot sp (macSpec true [] []) (fun c => (c, none)) s

/-- `mac1`. -/
def execMac1 (sp : Nat) (s : Bool) (a x y : Nat) (z neg : Bool) (st : State) : Host.Outcome State Fault Refusal :=
  runSlot sp (macSpec (decide (a < 8) && decide (x < 32) && decide (y < 32)) (dReads [x, y] ++ accRead z a) [(.acc a, 1, 2)])
    (fun c => (accOp s z a (prod neg (c.snap.rd x) (c.snap.rd y)) c, none)) st

/-- The value of a data register that is visible at the issue of the bundle (R292). -/
def visibleD (c : Core) (i : Nat) : Word :=
  match c.flights.find? fun f => f.reg == .d i && decide (c.issue < f.at2) with
  | some f => wi f.old
  | none => c.snap.rd i

/-- Four accumulations, with the operands given by lane. -/
def mac4 (s z neg : Bool) (a : Nat) (xs ys : Nat → Word) (c : Core) : Core :=
  (List.range 4).foldl (fun c j => accOp s z (a + j) (prod neg (xs j) (ys j)) c) c

def mac4Legal (a x y : Nat) : Bool := (a == 0 || a == 4) && decide (x + 4 ≤ 32) && x % 4 == 0 && decide (y < 32)
def acc4Reads (z : Bool) (a : Nat) : List (CReg × Bool) := (List.range 4).flatMap fun j => accRead z (a + j)
def acc4Writes (a : Nat) : List (CReg × Nat × Nat) := (List.range 4).map fun j => (CReg.acc (a + j), 1, 2)

/-- `mac4.v`: lane by lane. -/
def execMac4V (sp : Nat) (s : Bool) (a x y : Nat) (z neg : Bool) (st : State) : Host.Outcome State Fault Refusal :=
  runSlot sp
    (macSpec (mac4Legal a x y && y % 4 == 0)
      (dReads ((List.range 4).map (x + ·) ++ (List.range 4).map (y + ·)) ++ acc4Reads z a) (acc4Writes a))
    (fun c => (mac4 s z neg a (fun j => c.snap.rd (x + j)) (fun j => c.snap.rd (y + j)) c, none)) st

/-- `mac4.b`: d[Y] in every lane. -/
def execMac4B (sp : Nat) (s : Bool) (a x y : Nat) (z neg : Bool) (st : State) : Host.Outcome State Fault Refusal :=
  runSlot sp
    (macSpec (mac4Legal a x y) (dReads ((List.range 4).map (x + ·) ++ [y]) ++ acc4Reads z a) (acc4Writes a))
    (fun c => (mac4 s z neg a (fun j => c.snap.rd (x + j)) (fun _ => c.snap.rd y) c, none)) st

/-- `mac4.w`: as `mac4.b`, then the window shift (R295). Its data operands are the values visible at issue: loads under way to
d[X] and d[Y] do not stall it (DEDUCED from R295 and the worked example, log 23). -/
def execMac4W (sp : Nat) (s : Bool) (a x y : Nat) (z neg : Bool) (st : State) : Host.Outcome State Fault Refusal :=
  runSlot sp
    (macSpec (mac4Legal a x y) (acc4Reads z a)
      (acc4Writes a ++ [(.d (x + 1), 1, 1), (.d (x + 2), 1, 1), (.d (x + 3), 1, 1)]))
    (fun c =>
      let v (j : Nat) : Word := visibleD c (x + j)
      let c' := mac4 s z neg a v (fun _ => visibleD c y) c
      ({ c' with regs := ((c'.regs.wrD (x + 1) (v 0)).wrD (x + 2) (v 1)).wrD (x + 3) (v 2) }, none)) st

/-- The complex multiply-accumulate (R279). -/
def cmacOp (s z neg conj : Bool) (a x y : Nat) (c : Core) : Core :=
  let q := cprod conj (c.snap.rd x) (c.snap.rd (x + 1)) (c.snap.rd y) (c.snap.rd (y + 1))
  let t (v : Int) : Int := if neg then -v else v
  { accOp s z (a + 1) (t q.2) (accOp s z a (t q.1) c) with cmac := true }

def cmacReads (z : Bool) (a x y : Nat) : List (CReg × Bool) :=
  dReads [x, x + 1, y, y + 1] ++ accRead z a ++ accRead z (a + 1)
def cmacWrites (a : Nat) : List (CReg × Nat × Nat) := [(.acc a, 1, 2), (.acc (a + 1), 1, 2)]
def cmacLegal (a x y : Nat) : Bool :=
  decide (a < 8) && decide (x < 32) && decide (y < 32) && a % 2 == 0 && x % 2 == 0 && y % 2 == 0

/-- `cmac` of the MAC slot. -/
def execCmac (sp : Nat) (s : Bool) (a x y : Nat) (z neg conj : Bool) (st : State) : Host.Outcome State Fault Refusal :=
  runSlot sp (macSpec (cmacLegal a x y) (cmacReads z a x y) (cmacWrites a))
    (fun c => (cmacOp s z neg conj a x y c, none)) st

/-- `red` (R277). -/
def execRed (sp : Nat) (s : Bool) (a x : Nat) (sh : BitVec 5) (st : State) : Host.Outcome State Fault Refusal :=
  runSlot sp (macSpec (decide (a < 8) && decide (x < 32)) [(.acc a, false)] [(.d x, 2, 2)])
    (fun c => (regOp x (redWord s (c.snap.ra a) sh.toInt) c, none)) st

/-- `red4`. -/
def execRed4 (sp : Nat) (s : Bool) (a x : Nat) (sh : BitVec 5) (st : State) : Host.Outcome State Fault Refusal :=
  runSlot sp
    (macSpec ((a == 0 || a == 4) && decide (x + 4 ≤ 32) && x % 4 == 0)
      ((List.range 4).map fun j => (CReg.acc (a + j), false)) ((List.range 4).map fun j => (CReg.d (x + j), 2, 2)))
    (fun c => ((List.range 4).foldl (fun c j => regOp (x + j) (redWord s (c.snap.ra (a + j)) sh.toInt) c) c, none)) st

/-- `aclr`: acc[A], or with Q acc[A] to acc[A+3]. -/
def execAclr (sp a : Nat) (q : Bool) (st : State) : Host.Outcome State Fault Refusal :=
  let n := if q then 4 else 1
  runSlot sp (macSpec (decide (a < 8) && (!q || a == 0 || a == 4)) [] ((List.range n).map fun j => (CReg.acc (a + j), 1, 2)))
    (fun c => ({ c with regs := (List.range n).foldl (fun r j => r.wrA (a + j) 0) c.regs }, none)) st

/-- A MAC-slot operation on data registers with latency `lat`. -/
def aluSlot (sp : Nat) (reads : List Nat) (x lat : Nat) (f : Core → Word × Bool) (st : State) :
    Host.Outcome State Fault Refusal :=
  runSlot sp (macSpec ((x :: reads).all fun i => decide (i < 32)) (dReads reads) [(.d x, lat, lat)])
    (fun c => (regOp x (f c) c, none)) st

/-- `mulr` (R278). -/
def execMulr (sp : Nat) (s : Bool) (x y t : Nat) (st : State) : Host.Outcome State Fault Refusal :=
  aluSlot sp [y, t] x 2 (fun c => redWord s ((c.snap.rd y).toInt * (c.snap.rd t).toInt) 0) st
/-- `add`. -/
def execAdd (sp : Nat) (s : Bool) (x y t : Nat) (st : State) : Host.Outcome State Fault Refusal :=
  aluSlot sp [y, t] x 1 (fun c => wordNarrow s ((c.snap.rd y).toInt + (c.snap.rd t).toInt)) st
/-- `sub`. -/
def execSub (sp : Nat) (s : Bool) (x y t : Nat) (st : State) : Host.Outcome State Fault Refusal :=
  aluSlot sp [y, t] x 1 (fun c => wordNarrow s ((c.snap.rd y).toInt - (c.snap.rd t).toInt)) st

/-- The count of a shift: AUX 4:0, or bits 4:0 of d[T]. -/
def shiftCount (c : Core) (imm : Bool) (t : Nat) : Nat := if imm then t % 32 else fld (c.snap.rd t) 0 5

/-- `shl`. -/
def execShl (sp : Nat) (s : Bool) (x y : Nat) (imm : Bool) (t : Nat) (st : State) : Host.Outcome State Fault Refusal :=
  aluSlot sp (if imm then [y] else [y, t]) x 1
    (fun c => wordNarrow s ((c.snap.rd y).toInt * 2 ^ shiftCount c imm t)) st
/-- `shr`: arithmetic, floor. -/
def execShr (sp x y : Nat) (imm : Bool) (t : Nat) (st : State) : Host.Outcome State Fault Refusal :=
  aluSlot sp (if imm then [y] else [y, t]) x 1
    (fun c => (wi ((c.snap.rd y).toInt / 2 ^ shiftCount c imm t), false)) st
/-- `and`. -/
def execAnd (sp x y t : Nat) (st : State) : Host.Outcome State Fault Refusal :=
  aluSlot sp [y, t] x 1 (fun c => (c.snap.rd y &&& c.snap.rd t, false)) st
/-- `or`. -/
def execOr (sp x y t : Nat) (st : State) : Host.Outcome State Fault Refusal :=
  aluSlot sp [y, t] x 1 (fun c => (c.snap.rd y ||| c.snap.rd t, false)) st
/-- `xor`. -/
def execXor (sp x y t : Nat) (st : State) : Host.Outcome State Fault Refusal :=
  aluSlot sp [y, t] x 1 (fun c => (c.snap.rd y ^^^ c.snap.rd t, false)) st
/-- `min`, signed. -/
def execMin (sp x y t : Nat) (st : State) : Host.Outcome State Fault Refusal :=
  aluSlot sp [y, t] x 1 (fun c => (wi (min (c.snap.rd y).toInt (c.snap.rd t).toInt), false)) st
/-- `max`, signed. -/
def execMax (sp x y t : Nat) (st : State) : Host.Outcome State Fault Refusal :=
  aluSlot sp [y, t] x 1 (fun c => (wi (max (c.snap.rd y).toInt (c.snap.rd t).toInt), false)) st
/-- `abs`. -/
def execAbs (sp : Nat) (s : Bool) (x y : Nat) (st : State) : Host.Outcome State Fault Refusal :=
  aluSlot sp [y] x 1 (fun c => wordNarrow s ((c.snap.rd y).toInt.natAbs : Int)) st
/-- `neg`. -/
def execNeg (sp : Nat) (s : Bool) (x y : Nat) (st : State) : Host.Outcome State Fault Refusal :=
  aluSlot sp [y] x 1 (fun c => wordNarrow s (-(c.snap.rd y).toInt)) st
/-- `mov`. -/
def execMov (sp x y : Nat) (st : State) : Host.Outcome State Fault Refusal :=
  aluSlot sp [y] x 1 (fun c => (c.snap.rd y, false)) st

/-! ### Control slot (R290, R294) -/

def ctlSpec (legal : Bool) (reads : List (CReg × Bool)) (writes : List (CReg × Nat × Nat)) : SlotSpec :=
  { rank := 3, fresh := false, legal := legal, reads := reads, writes := writes }

/-- A control slot that ends its bundle in sequence after its own effect; its writes are recorded by `runSlot`. -/
def ctlSlot (sp : Nat) (k : SlotSpec) (body : Core → Core × Option Nat) (s : State) : Host.Outcome State Fault Refusal :=
  runSlot sp k (fun c => let r := body c; (endBundle 0 r.1, r.2)) s

/-- The bundle is the last of an active loop's body (R291). -/
def atLoopEnd (c : Core) : Bool := c.loops.any fun l => l.last == c.pc

/-- `cnop`. -/
def execCnop (sp : Nat) (s : State) : Host.Outcome State Fault Refusal :=
  ctlSlot sp (ctlSpec true [] []) (fun c => (c, none)) s

/-- The short form of `cmac`: acc[2k], acc[2k+1], X = 2x, Y = 2y. A bundle holds at most one CMAC (R279). -/
def execCmacShort (sp : Nat) (s : Bool) (k x y : Nat) (z : Bool) (st : State) : Host.Outcome State Fault Refusal :=
  ctlSlot sp (ctlSpec (cmacLegal (2 * k) (2 * x) (2 * y)) (cmacReads z (2 * k) (2 * x) (2 * y)) (cmacWrites (2 * k)))
    (fun c => if c.cmac then (c, some 1) else (cmacOp s z false false (2 * k) (2 * x) (2 * y) c, none)) st

/-- Start a loop over the next `body` bundles (R290, R294): it replaces an active loop of its level. -/
def startLoop (level : Bool) (body count : Nat) (c : Core) : Core :=
  let c := endBundle 0 { c with loops := c.loops.filter fun l => l.level != level }
  { c with loops := { level := level, first := c.pc, last := c.pc + 8 * (body - 1), left := count } :: c.loops }

/-- `loop`: body 1 to 32, count 1 to 64. -/
def execLoop (sp : Nat) (level : Bool) (body count : Nat) (s : State) : Host.Outcome State Fault Refusal :=
  runSlot sp
    (ctlSpec (decide (1 ≤ body) && decide (body ≤ 32) && decide (1 ≤ count) && decide (count ≤ 64)) [] [])
    (fun c => if atLoopEnd c then (c, some 1) else (startLoop level body count c, none)) s

/-- `loopr`: the count is d[reg] bits 15:0; 0 skips the body and costs 2 cycles. -/
def execLoopr (sp : Nat) (level : Bool) (body reg : Nat) (s : State) : Host.Outcome State Fault Refusal :=
  runSlot sp (ctlSpec (decide (1 ≤ body) && decide (body ≤ 32) && decide (reg < 32)) (dReads [reg]) [])
    (fun c =>
      let count := fld (c.snap.rd reg) 0 16
      if atLoopEnd c then (c, some 1)
      else if count = 0 then
        let c := endBundle 2 { c with loops := c.loops.filter fun l => l.level != level }
        ({ c with pc := (c.pc + 8 * body) % 2 ^ 32 }, none)
      else (startLoop level body count c, none)) s

/-- A branch with an offset of `bits` bits. -/
def branchSlot (sp bits : Nat) (off : Int) (reads : List Nat) (taken : Core → Bool) (s : State) :
    Host.Outcome State Fault Refusal :=
  runSlot sp (ctlSpec (!outBits bits off && reads.all fun i => decide (i < 32)) (dReads reads) [])
    (fun c =>
      if atLoopEnd c then (c, some 1)
      else if taken c then (branchTo off c, none) else (endBundle 0 c, none)) s

/-- `br`. -/
def execBr (sp : Nat) (off : Int) (s : State) : Host.Outcome State Fault Refusal :=
  branchSlot sp 12 off [] (fun _ => true) s
/-- `bz`. -/
def execBz (sp reg : Nat) (off : Int) (s : State) : Host.Outcome State Fault Refusal :=
  branchSlot sp 7 off [reg] (fun c => c.snap.rd reg == 0#32) s
/-- `bnz`. -/
def execBnz (sp reg : Nat) (off : Int) (s : State) : Host.Outcome State Fault Refusal :=
  branchSlot sp 7 off [reg] (fun c => c.snap.rd reg != 0#32) s

/-- `movp`: DIR 0 writes the address register from d, DIR 1 reads it into d. -/
def execMovp (sp kind idx : Nat) (dir : Bool) (d : Nat) (s : State) : Host.Outcome State Fault Refusal :=
  ctlSlot sp
    (ctlSpec (decide (kind < 4) && decide (idx < 8) && decide (d < 32))
      [if dir then (addrName kind idx, false) else (.d d, false)]
      [if dir then (.d d, 1, 1) else (addrName kind idx, 1, 1)])
    (fun c =>
      ({ c with regs := if dir then c.regs.wrD d (c.snap.addrReg kind idx) else c.regs.setAddrReg kind idx (c.snap.rd d) },
        none)) s

/-- A sticky flag after a clear in a bundle whose own operation sets it: the spec does not order the two. Log 24. -/
def flagAfter (clr was set : Bool) : Bool := if clr then set && Config.flagSetWins else was

/-- `flag`: with RD, d ← FLAGS; the read comes before the clear. -/
def execFlag (sp : Nat) (rd : Bool) (d : Nat) (clrOvr clrOva : Bool) (s : State) : Host.Outcome State Fault Refusal :=
  ctlSlot sp (ctlSpec (decide (d < 32)) [] (if rd then [(.d d, 1, 1)] else []))
    (fun c =>
      let r := if rd then c.regs.wrD d (flagsWord c.snap.ova c.snap.ovr) else c.regs
      ({ c with regs := { r with ova := flagAfter clrOva r.ova c.setA, ovr := flagAfter clrOvr r.ovr c.setR } }, none)) s

/-! ### DMA (R296 to R299) -/

/-- Sizes of the hub and DRAM regions of the instance a core runs. -/
def regionSize (s : State) (c : Core) (dram : Bool) : Nat :=
  match c.inst with
  | none => 0
  | some p => let h := imageHdr (instImage s p); if dram then h.dram else h.hub

/-- The descriptor in four words, unless the spoke rejects it (R296, R297). -/
def dmaCheck (s : State) (c : Core) (w0 w1 w2 w3 : Word) : Option DmaDesc :=
  let region := fld w1 28 4
  let off := fld w1 0 28
  let len := w2.toNat
  let wr := w3.getLsbD 0
  if fld w3 1 31 == 0 && decide (region < 2) && w0.toNat % 4 == 0 && off % 4 == 0 && len % 4 == 0 && decide (4 ≤ len) &&
      decide (len ≤ 65536) && decide (off + len ≤ regionSize s c (region == 1)) &&
      inAreas c.areas w0.toNat len (!wr) then
    some { loc := w0.toNat, dram := region == 1, offset := off, len := len, write := wr, moved := false }
  else none

/-- `dma`: issues the descriptor in d[D] to d[D+3]; with 8 outstanding it stalls (R298). -/
def execDma (sp d : Nat) (s : State) : Host.Outcome State Fault Refusal :=
  runSlot sp (ctlSpec (decide (d < 32) && d % 4 == 0) (dReads ((List.range 4).map (d + ·))) [])
    (fun c =>
      match dmaCheck s c (c.snap.rd d) (c.snap.rd (d + 1)) (c.snap.rd (d + 2)) (c.snap.rd (d + 3)) with
      | none => (c, some 3)
      | some q =>
        if c.dmaq.length < 8 then (endBundle 0 { c with dmaq := c.dmaq ++ [q] }, none)
        else ({ c with stall := some { k := 7, issue := some q, since := s.clk.tally } }, none)) s

/-- `dwait`: stalls until at most K descriptors are outstanding. -/
def execDwait (sp k : Nat) (s : State) : Host.Outcome State Fault Refusal :=
  runSlot sp (ctlSpec (decide (k < 8)) [] [])
    (fun c =>
      if c.dmaq.length ≤ k then (endBundle 0 c, none)
      else ({ c with stall := some { k := k, issue := none, since := s.clk.tally } }, none)) s

/-- A stalled bundle goes on when few enough descriptors are outstanding; its stall counts as cycles of the stage (R298). -/
def releaseStall (s : State) (c : Core) : Core :=
  match c.stall with
  | none => c
  | some w =>
    if c.dmaq.length ≤ w.k then
      endBundle 0 { c with stall := none, issue := c.issue + coreCycles s (s.clk.tally - w.since),
                           dmaq := c.dmaq ++ w.issue.toList }
    else c

/-- The transfer of a descriptor: spoke SRAM and the region of the instance's copy (R296). -/
def dmaMove (q : DmaDesc) (sram region : Mem) : Mem × Mem :=
  if q.write then (sram, region.putBytes q.offset (sram.bytes q.loc q.len))
  else (sram.putBytes q.loc (region.bytes q.offset q.len), region)

/-- DMA_COMPLETE (R298): the transfer of outstanding descriptor `i` is done. -/
def execDmaComplete (sp i : Nat) (s : State) : Host.Outcome State Fault Refusal :=
  match s.coreAt sp with
  | none => .next s
  | some c =>
    match c.dmaq[i]?, c.inst with
    | some q, some p =>
      if q.moved then .next s
      else
        let k := ((s.instAt p).bind fun x => x.copies[c.copy]?).getD { state := [], hub := [], dram := [] }
        let r := dmaMove q c.sram (if q.dram then k.dram else k.hub)
        let k := if q.dram then { k with dram := r.2 } else { k with hub := r.2 }
        let c := { c with sram := r.1, dmaq := (c.dmaq.set i { q with moved := true }).dropWhile DmaDesc.moved }
        .next ((s.setCore sp (releaseStall s c)).updInst p fun x => { x with copies := x.copies.set c.copy k })
    | _, _ => .next s

/-! ### Format B (R287) -/

/-- MOVI to a data register. -/
def execMoviD (sp r : Nat) (imm : Word) (s : State) : Host.Outcome State Fault Refusal :=
  runSlot sp { rank := 2, fresh := true, legal := decide (r < 32), reads := [], writes := [(.d r, 1, 1)] }
    (fun c => ({ c with regs := c.regs.wrD r imm }, none)) s

/-- MOVI to an address register of a kind. -/
def moviAddr (sp kind r : Nat) (imm : Word) (s : State) : Host.Outcome State Fault Refusal :=
  runSlot sp { rank := 2, fresh := true, legal := decide (r < 8), reads := [], writes := [(addrName kind r, 1, 1)] }
    (fun c => ({ c with regs := c.regs.setAddrReg kind r imm }, none)) s

/-- MOVI p. -/
def execMoviP (sp r : Nat) (imm : Word) (s : State) : Host.Outcome State Fault Refusal := moviAddr sp 0 r imm s
/-- MOVI n. -/
def execMoviN (sp r : Nat) (imm : Word) (s : State) : Host.Outcome State Fault Refusal := moviAddr sp 1 r imm s
/-- MOVI rb. -/
def execMoviRb (sp r : Nat) (imm : Word) (s : State) : Host.Outcome State Fault Refusal := moviAddr sp 2 r imm s
/-- MOVI rl. -/
def execMoviRl (sp r : Nat) (imm : Word) (s : State) : Host.Outcome State Fault Refusal := moviAddr sp 3 r imm s

/-! ### Illegal bundles (R287 to R291) -/

/-- Registers a load/store slot writes, or none where it is illegal. -/
def lsDecode (w : Nat) : Option (List CReg) :=
  let op := w / 2 ^ 16 % 32
  let d := w / 2 ^ 11 % 32
  let p := w / 2 ^ 8 % 8
  let mode := w / 2 ^ 6 % 4
  let post := if mode = 0 then [] else [CReg.p p]
  let plain := mode < 3 && w % 8 == 0
  if op = 0 then (if w % 8 == 0 then some [] else none)
  else if op = 1 then (if plain then some (.d d :: post) else none)
  else if op = 2 then (if plain && d % 2 == 0 then some (.d d :: .d (d + 1) :: post) else none)
  else if op = 3 then (if plain && d % 4 == 0 then some (.d d :: .d (d + 1) :: .d (d + 2) :: .d (d + 3) :: post) else none)
  else if op = 4 then
    let db := w / 8 % 32
    let pb := w % 8
    if d ≠ db ∧ p ≠ pb then some [.d d, .d db, .p p, .p pb] else none
  else if op = 5 then (if plain then some post else none)
  else if op = 6 then (if plain && d % 2 == 0 then some post else none)
  else if op = 7 then (if plain && d % 4 == 0 then some post else none)
  else if op = 8 then (if plain && decide (d < 8) then some (.acc d :: post) else none)
  else if op = 9 then (if plain && decide (d < 8) then some post else none)
  else none

/-- Registers a MAC slot writes, and whether it is a CMAC; none where it is illegal. -/
def macDecode (w : Nat) : Option (List CReg × Bool) :=
  let op := w / 2 ^ 21 % 32
  let sBit := w / 2 ^ 20 % 2
  let a := w / 2 ^ 17 % 8
  let x := w / 2 ^ 12 % 32
  let y := w / 2 ^ 7 % 32
  let aux := w % 128
  let quad := a % 4 == 0
  let x4 := x % 4 == 0
  let accs := [CReg.acc a, .acc (a + 1), .acc (a + 2), .acc (a + 3)]
  let give (ok : Bool) (l : List CReg) : Option (List CReg × Bool) := if ok then some (l, false) else none
  if op = 0 then give (sBit == 0 && aux == 0) []
  else if op = 1 then give (decide (aux < 4)) [.acc a]
  else if op = 2 then give (decide (aux < 4) && quad && x4 && y % 4 == 0) accs
  else if op = 3 then give (decide (aux < 4) && quad && x4) accs
  else if op = 4 then give (decide (aux < 4) && quad && x4) (accs ++ [.d (x + 1), .d (x + 2), .d (x + 3)])
  else if op = 5 then
    if aux < 8 ∧ a % 2 = 0 ∧ x % 2 = 0 ∧ y % 2 = 0 then some ([.acc a, .acc (a + 1)], true) else none
  else if op = 6 then give (decide (aux < 32)) [.d x]
  else if op = 7 then give (decide (aux < 32) && quad && x4) [.d x, .d (x + 1), .d (x + 2), .d (x + 3)]
  else if op = 8 then
    give (sBit == 0 && (aux == 0 || (aux == 8 && quad))) (if aux = 8 then accs else [.acc a])
  else if op = 9 ∨ op = 10 ∨ op = 11 then give (decide (aux < 32)) [.d x]
  else if op = 12 then give (aux / 32 % 2 == 0) [.d x]
  else if op = 13 then give (sBit == 0 && aux / 32 % 2 == 0) [.d x]
  else if 14 ≤ op ∧ op ≤ 18 then give (sBit == 0 && decide (aux < 32)) [.d x]
  else if op = 19 ∨ op = 20 then give (aux == 0) [.d x]
  else if op = 21 then give (sBit == 0 && aux == 0) [.d x]
  else none

/-- Registers a control slot writes, and whether it is a CMAC; none where it is illegal. -/
def ctlDecode (loopEnd : Bool) (w : Nat) : Option (List CReg × Bool) :=
  let op := w / 4096 % 16
  let f := w % 4096
  if op = 0 then (if f = 0 then some ([], false) else none)
  else if op = 1 then let k := f / 512 % 4; some ([.acc (2 * k), .acc (2 * k + 1)], true)
  else if op = 2 then (if loopEnd then none else some ([], false))
  else if op = 3 then (if loopEnd || f / 32 % 2 == 1 then none else some ([], false))
  else if op = 4 ∨ op = 5 ∨ op = 6 then (if loopEnd then none else some ([], false))
  else if op = 7 then
    if f / 32 % 2 = 1 then none
    else if f / 64 % 2 = 1 then some ([.d (f % 32)], false)
    else some ([addrName (f / 1024 % 4) (f / 128 % 8)], false)
  else if op = 8 then
    if f / 4 % 16 ≠ 0 then none else some (if f / 2048 % 2 = 1 then [.d (f / 64 % 32)] else [], false)
  else if op = 9 then (if f % 128 = 0 ∧ f / 128 % 4 = 0 then some ([], false) else none)
  else if op = 10 then (if f < 8 then some ([], false) else none)
  else if op = 11 then (if f = 0 && !loopEnd then some ([], false) else none)
  else none

/-- No register twice. -/
def noRepeat : List CReg → Bool
  | [] => true
  | r :: rs => !rs.contains r && noRepeat rs

/-- A 64-bit bundle is illegal (R287, R291). -/
def bundleIllegal (loopEnd : Bool) (b : Nat) : Bool :=
  match ctlDecode loopEnd (b % 65536) with
  | none => true
  | some c =>
    if b / 2 ^ 63 % 2 = 0 then
      match lsDecode (b / 2 ^ 42 % 2 ^ 21), macDecode (b / 2 ^ 16 % 2 ^ 26) with
      | some l, some m => !noRepeat (l ++ m.1 ++ c.1) || (m.2 && c.2)
      | _, _ => true
    else
      let opb := b / 2 ^ 58 % 32
      let r := b / 2 ^ 53 % 32
      let w := if opb = 0 then CReg.d r else addrName (opb - 1) r
      decide (4 < opb) || b / 2 ^ 48 % 32 != 0 || (opb != 0 && decide (8 ≤ r)) || !noRepeat (w :: c.1)

/-- ILLEGAL_BUNDLE (R291, R302): the sequencer reads a bundle that is illegal. A legal one leaves the state as it is. -/
def execIllegalBundle (sp : Nat) (bundle : BitVec 64) (s : State) : Host.Outcome State Fault Refusal :=
  match s.coreAt sp with
  | none => .next s
  | some c =>
    if !c.runs then .next s
    else
      let c := if c.rank = 0 then c else endBundle 0 c
      if bundleIllegal (atLoopEnd c) bundle.toNat then
        .next (stageFault sp 1 (s.setCore sp { c with snap := c.regs, undo := [], issue := c.next }))
      else .next s

/-- FENCE_REACHED (R302): the fence of the running instance has come to CYCLES + 1 before `exit`. -/
def execFenceReached (sp : Nat) (s : State) : Host.Outcome State Fault Refusal :=
  match s.coreAt sp with
  | none => .next s
  | some c =>
    let now := match c.stall with
      | none => if c.rank = 0 then c.next else c.issue + 1 + c.extra
      | some w => c.issue + coreCycles s (s.clk.tally - w.since)
    if c.inst.isSome && c.mode == .body && decide (c.fence < now) then
      let c := if c.rank = 0 then { c with snap := c.regs, undo := [] } else c
      .next (stageFault sp 4 (s.setCore sp c))
    else .next s

end Sys2Proof.Machine
end

