-- ==== Sys2Proof/Machine/Cost.lean ====
section
/-! DEFINITION. Purse charges (R154, R171, R172, R183, R215, R309, R373, R388, R527), what the steps of the ladder release
(R523), and the purse and spoke checks of R247. Every function reads the configuration and the committed values of the state it
is given, so a check of something not yet in force is made on a candidate state. -/

namespace Sys2Proof.Machine

/-! ### Nodes that are charged -/

/-- The paths of the stage instances of a configuration, in record order. -/
def instPaths (c : Cfg) : List (List Name) :=
  c.tandems.flatMap fun t => (t.members.filter fun m => m.stage.isSome).map fun m => t.path ++ [m.name]

/-- The host of the outermost tandem of a path (R244, R245). -/
def hostOf (s : State) (p : List Name) : Option Node :=
  (s.adm.cfg.tandems.find? fun t => t.path == p.take 1).bind Tandem.insert

/-- Sensors of a zone (R216). -/
def sensorCount (s : State) (z : Nat) : Nat := ((param s (.zone z) 0x103).filter fun w => fld w 28 4 != 0).length

/-- The class whose purse pays for a node: its class, or AMB_CLASS of a zone (R215, R236). -/
def purseOf (s : State) : Node → Option Nat
  | .zone z => some (pN s (.zone z) 0x104)
  | n => classOf s n

/-- The nodes placed on spokes, in record order (R249). -/
def placedNodes (s : State) : List Node :=
  (s.adm.cfg.nodes.map NodeRec.node).filter (fun n => match n with
    | .object _ => true
    | .feed _ => true
    | .channel _ => true
    | .bus _ => true
    | .zone z => decide (0 < sensorCount s z)
    | _ => false) ++ (instPaths s.adm.cfg).map Node.inst

/-- The nodes whose cycles, DRAM and hub SRAM a purse pays for. -/
def chargedNodes (s : State) : List Node :=
  placedNodes s ++ (s.adm.cfg.nodes.map NodeRec.node).filter fun n => match n with
    | .tx _ _ => true
    | .rx _ _ => true
    | _ => false

/-! ### Relief by the ladder (R523, R525) -/

/-- A MEDIA source of step 2. -/
def isSource : Node → Bool
  | .channel _ => true
  | .bus _ => true
  | .object _ => true
  | .rx _ _ => true
  | .gearSai _ => true
  | .gearAesi _ => true
  | .gearPdm _ => true
  | _ => false

/-- A node that the steps up to `n` shed whole, from its class; at step 7 only ALARM is left. DEDUCED, log 40. -/
def shedOwn (s : State) (n : Nat) (x : Node) : Bool :=
  match classOf s x with
  | some 0 => false
  | some 3 => decide (1 ≤ n)
  | some 2 => (decide (2 ≤ n) && isSource x) || decide (7 ≤ n)
  | some _ => decide (7 ≤ n)
  | none => false

/-- A node shed whole: an instance goes with the strip that hosts it. -/
def shedWhole (s : State) (n : Nat) (x : Node) : Bool :=
  match x with
  | .inst p => ((hostOf s p).map (shedOwn s n)).getD false
  | .tandem p => ((hostOf s p).map (shedOwn s n)).getD false
  | .zone z => pN s (.zone z) 0x104 != 0 && decide (7 ≤ n)
  | k => shedOwn s n k

/-- The tail of a feed of a class is shed by the steps up to `n`. -/
def shedTail (n : Nat) (cls : Option Nat) : Bool :=
  decide (4 ≤ n) || (decide (3 ≤ n) && (cls == some 2 || cls == some 3))

/-! ### Charges of one computation -/

/-- Entry and copy cycles E of an instance (R300, R309). -/
def entryCycles (h : ImageHdr) : Nat := 12 + ceilDiv h.state 32 + 2 * h.outputs

/-- Cycles of one computation at phase `p`, with the steps up to `n` taken. -/
def cycAt (s : State) (n p : Nat) (x : Node) : Nat :=
  if shedWhole s n x then 0
  else match x with
  | .object o =>
    if 6 ≤ n && classOf s x == some 1 then 0 else objCycles (pN s (.object o) 0x11C) (if 5 ≤ n then 2 else 1)
  | .feed f => feedCycles (pN s (.feed f) 0x104) (shedTail n (classOf s x)) f p
  | .channel _ => 72 + 40 * (pN s x 0x107 + pN s x 0x109) + 8 * pN s x 0x152
  | .bus _ => 24 + 40 * pN s x 0x108 + 8 * pN s x 0x109 + 8 * pN s x 0x10A
  | .zone z => if sensorCount s z = 0 then 0 else 16 + 48 * sensorCount s z
  | .inst q => let h := imageHdr (instImage s q); h.cycles + entryCycles h + 8
  | _ => 0

/-- Hub SRAM of one computation. The ladder releases none. -/
def hubOf (s : State) (x : Node) : Nat :=
  match x with
  | .object _ => objHub (pN s x 0x11C)
  | .feed _ => feedHub (pN s x 0x104)
  | .channel _ => 512 + 160 * (pN s x 0x107 + pN s x 0x109) + 24 * pN s x 0x152
  | .bus _ => 384 + 160 * pN s x 0x108 + 24 * pN s x 0x109 + 8 * pN s x 0x10A
  | .zone z => if sensorCount s z = 0 then 0 else 64 + 32 * sensorCount s z
  | .inst q => let h := imageHdr (instImage s q); h.hub + 8 * h.params + 64
  | .tx _ _ => 8 * pN s x 0x107 * ptimeS (pN s x 0x108) + 256
  | .rx _ _ => 4 * pN s x 0x107 * pN s x 0x10E + 256
  | _ => 0

/-- DRAM rate of one computation. -/
def dramOf (s : State) (n : Nat) (x : Node) : Nat :=
  if shedWhole s n x then 0
  else match x with
  | .feed _ => feedDram (pN s x 0x104) (pN s x 0x105) (shedTail n (classOf s x))
  | .channel _ => if 0 < pN s x 0x140 then 576 else 0
  | .inst q => (imageHdr (instImage s q)).rate
  | _ => 0

/-- ALARM work is charged twice: it is computed on two wheels (R154, R172, R215, R309). Streams are not. -/
def copiesOf (s : State) (x : Node) : Nat :=
  match x with
  | .tx _ _ => 1
  | .rx _ _ => 1
  | k => if purseOf s k == some 0 then 2 else 1

/-! ### Till lanes, taps, zone sums, moves -/

/-- TAPS_MAX of the feeds a pool serves. -/
def poolTaps (s : State) (alarm : Bool) : List Nat :=
  s.adm.cfg.nodes.filterMap fun r => match r.node with
    | .feed f => if (r.cls == 0) == alarm then some (pN s (.feed f) 0x104) else none
    | _ => none

/-- Lanes of a pool that are charged: none when it serves no feed (R183). -/
def chargedLanes (s : State) (alarm : Bool) : Nat :=
  if (poolTaps s alarm).isEmpty then 0 else pN s .till (if alarm then 0x102 else 0x101)

/-- A charge per lane, summed for a class: ALARM lanes doubled, general lanes to VOICE (R183); step 7 leaves only ALARM. -/
def laneSum (s : State) (n cls : Nat) (per : Nat → Nat) : Nat :=
  if cls = 0 then 2 * chargedLanes s true * per (maxNat (poolTaps s true))
  else if cls = 1 && decide (n < 7) then chargedLanes s false * per (maxNat (poolTaps s false))
  else 0

/-- Recorder taps that are ON and not shed (R523, R527). -/
def tapsOn (s : State) (n : Nat) : Nat :=
  ((List.range 64).filter fun i =>
    let w := pW s .ledgerEvent (0x200 + i) 0
    w.getLsbD 31 && (n == 0 || w.getLsbD 30)).length

/-- Cycles of the zone sums of step 6 (R525). -/
def zoneSums (s : State) (n : Nat) : Nat :=
  if n < 6 || 7 ≤ n then 0
  else
    let zs := (s.adm.cfg.nodes.filterMap fun r => match r.node with
      | .object o => if r.cls = 1 then some (pN s (.object o) 0x113) else none
      | _ => none).filter fun z => z < 256
    sumNat ((List.range 256).filter (fun z => zs.contains z) |>.map fun z =>
      16 + 2 * (s.adm.cfg.nodes.filter fun r => match r.node with
        | .feed f => inZone s f (zoneUsed s z)
        | _ => false).length)

/-- What the moves of the outermost tandems of a class cost (R81): cycles, hub bytes, DRAM rate by `pick`. Log 5. -/
def moveSum (s : State) (n cls : Nat) (pick : Nat × Nat × Nat → Nat) : Nat :=
  sumNat ((s.adm.cfg.tandems.filter fun t =>
    t.path.length == 1 && t.cls == cls && !shedWhole s n (.tandem t.path)).map fun t => pick (Config.tandemMove t.path))

/-! ### Loads of a class (R239) -/

/-- L(p) of a class. -/
def classCycles (s : State) (n cls p : Nat) : Nat :=
  sumNat (((chargedNodes s).filter fun x => purseOf s x == some cls).map fun x => copiesOf s x * cycAt s n p x) +
    laneSum s n cls laneCycles + (if cls = 3 then 16 * tapsOn s n else 0) + (if cls = 1 then zoneSums s n else 0) +
    moveSum s n cls (·.1)

/-- The largest load of a class over the phases. -/
def classPeak (s : State) (n cls : Nat) : Nat := maxNat ((List.range 64).map (classCycles s n cls))

def classHub (s : State) (cls : Nat) : Nat :=
  sumNat (((chargedNodes s).filter fun x => purseOf s x == some cls).map fun x => copiesOf s x * hubOf s x) +
    laneSum s 0 cls laneHub + moveSum s 0 cls (·.2.1)

def classDram (s : State) (n cls : Nat) : Nat :=
  sumNat (((chargedNodes s).filter fun x => purseOf s x == some cls).map fun x => copiesOf s x * dramOf s n x) +
    laneSum s n cls laneDram + (if cls = 3 then 480 * tapsOn s n else 0) + moveSum s n cls (·.2.2)

/-! ### Gate time (R373, R374) -/

/-- The class of a transmit queue (R367). -/
def queueClass (q : Nat) : Nat := (7 - q) / 2

/-- The class an interval is charged to: the highest one with an open queue. -/
def gatesClass (gates : Nat) : Option Nat := (List.range 4).find? fun k => (List.range 8).any fun q => bitOf gates q && queueClass q == k

/-- The transmit streams whose frames MAC `n` sends: its own, and its partner's when replicated. -/
def txOn (s : State) (n : Nat) : List (Nat × Nat) :=
  s.adm.cfg.nodes.filterMap fun r => match r.node with
    | .tx m k => if m = n || (cbPartner s m == some n && pN s (.tx m k) 0x10B == 1) then some (m, k) else none
    | _ => none

/-- Rate of a MAC as admitted, in bits per second. -/
def macBits (s : State) (n : Nat) : Nat := rateBits (pN s (.net n) 0x102)

/-- Gate time of a class on a MAC in 0.1 % (R373). -/
def gateUsed (s : State) (cls n : Nat) : Nat :=
  if !admitted s (.net n) then 0
  else
    match committedList s n with
    | some l => ceilDiv (1000 * sumNat ((l.filter fun e => gatesClass e.1 == some cls).map (·.2))) (max 1 (cycleOf l))
    | none =>
      let share (t : Nat × Nat) : Rat :=
        (txWireBits s (newTx s t.1 t.2) * 48000 : Nat) / ((ptimeS (pN s (.tx t.1 t.2) 0x108) * macBits s n : Nat) : Rat)
      let ts := (txOn s n).filter fun t => classOf s (.tx t.1 t.2) == some cls
      ((ts.map fun t => 1000 * share t).foldl (· + ·) 0).ceil.toNat

/-- Maximal runs of equal gate states of a queue over a list. -/
def gateRuns (q : Nat) : List (Nat × Nat) → List (Bool × Nat)
  | [] => []
  | (g, d) :: r =>
    match gateRuns q r with
    | (o, e) :: rest => if o == bitOf g q then (o, d + e) :: rest else (bitOf g q, d) :: (o, e) :: rest
    | [] => [(bitOf g q, d)]

/-- The runs counted cyclically: the last run joins the first when they are alike. -/
def cyclicRuns (l : List (Bool × Nat)) : List (Bool × Nat) :=
  match l, l.getLast? with
  | (o, d) :: b :: r, some (o', d') => if o == o' then (o, d + d') :: (b :: r).dropLast else l
  | _, _ => l

/-- A list breaks R374 for a queue that carries transmit streams. -/
def queueBroken (s : State) (n q : Nat) (l : List (Nat × Nat)) : Bool :=
  let ts := (txOn s n).filter fun t => txQueue (classOf s (.tx t.1 t.2)) == q
  if ts.isEmpty then false
  else
    let w := maxNat (ts.map fun t => txWireBits s (newTx s t.1 t.2)) * 24576000
    let ps := (ts.map fun t => ptimeS (pN s (.tx t.1 t.2) 0x108)).foldl min 48
    let rate := macBits s n
    let runs := cyclicRuns (gateRuns q l)
    !(runs.any fun r => r.1) ||
      runs.any (fun r => if r.1 then decide (r.2 * rate < w) && runs.any (fun x => !x.1) else
        decide (512 * ps * rate < r.2 * rate + w))

/-- The list of a MAC breaks R374 for a queue of a class. -/
def listBroken (s : State) (cls n : Nat) : Bool :=
  match committedList s n with
  | none => false
  | some l => admitted s (.net n) && (List.range 8).any fun q => queueClass q == cls && queueBroken s n q l

/-! ### Purses (R238 to R240) -/

def purse (s : State) (cls tag : Nat) : Nat := pN s (.cls cls) tag

/-- A limit, or nine tenths of it (R525). -/
def spared (spare : Bool) (x : Nat) : Nat := if spare then x * 9 / 10 else x

/-- Cycles per frame at the spoke clock that checks use: the lower one while a change is under way (R17, R18). -/
def checkCycles (s : State) : Nat := cyclesPerFrame (min s.clk.mhz s.clk.mhzTarget)

/-- Cycles a spoke has for the nodes placed on it (R240). -/
def usable (s : State) : Nat := checkCycles s - 22000

def activeSpokes (s : State) : List Nat := (List.range 40).filter fun sp => ((s.spokeAt sp).map fun x => x.role == 0).getD false
def auditSpokes (s : State) : List Nat := (List.range 40).filter fun sp => ((s.spokeAt sp).map fun x => x.role == 2).getD false

/-- The DRAM limit of R240 in kB/s: 4928 kB/s for each MT/s, half of it on one channel (R519). -/
def dramLimit (s : State) : Nat := 4928 * dataRate (admitSp s.dram) / (if (soleChannel s.dram).isSome then 2 else 1)

/-- The sums of the purses against R240: the code of the first one above its limit. -/
def checkSums (s : State) : Option Nat :=
  let sum (f : Nat → Nat) : Nat := sumNat ((List.range 4).map f)
  if (activeSpokes s).length * usable s < sum (fun k => purse s k 0x101) then some 0x021
  else if 29360128 < sum (fun k => purse s k 0x102) then some 0x022
  else if dramLimit s < sum (fun k => purse s k 0x103) then some 0x023
  else ((List.range 4).find? fun n => decide (1000 < sum fun k => (pW s (.cls k) 0x104 n).toNat)).map (0x024 + ·)

/-- DETAIL of status ADMISSION (R248). -/
def admDetail (cls code : Nat) : Nat := cls * 4096 + code

/-- An ALARM node makes DRAM accesses. -/
def alarmVault (s : State) : List Node :=
  (placedNodes s).filter fun x => purseOf s x == some 0 && decide (0 < dramOf s 0 x)

/-- The vault condition (R427). -/
def vaultFits (s : State) : Bool :=
  let ns := alarmVault s
  ns.isEmpty || (List.range 64).all fun p => (List.range 2).all fun ch => (List.range 8).all fun b =>
    decide (Config.vaultLoad ns p ch b ≤ vaultLimit s.dram.density (admitSp s.dram))

/-- The purse checks of one class (R247). -/
def checkPurse (s : State) (n : Nat) (spare : Bool) (k : Nat) : Option Nat :=
  if spared spare (purse s k 0x101) < classPeak s n k then some 0x001
  else if spared spare (purse s k 0x102) < classHub s k then some 0x002
  else if spared spare (purse s k 0x103) < classDram s n k || (k == 0 && !vaultFits s) then some 0x003
  else ((List.range 4).find? fun m =>
    decide (spared spare ((pW s (.cls k) 0x104 m).toNat) < gateUsed s k m) || listBroken s k m).map (0x004 + ·)

/-- The first class check that fails, in class order. -/
def checkPurses (s : State) (n : Nat) (spare : Bool) : Option Nat :=
  (List.range 4).findSome? fun k => (checkPurse s n spare k).map (admDetail k)

/-! ### Placement (R249, R310) -/

abbrev Placement := List (Node × Nat × Option Nat)

/-- Nodes with a copy on a spoke. -/
def nodesOn (pl : Placement) (sp : Nat) : List Node := (pl.filter fun e => e.2.1 == sp || e.2.2 == some sp).map (·.1)

/-- Load of a spoke at a phase; and of its ALARM copies alone. -/
def spokeLoad (s : State) (n : Nat) (pl : Placement) (sp p : Nat) : Nat := sumNat ((nodesOn pl sp).map (cycAt s n p))

def alarmLoad (s : State) (n : Nat) (pl : Placement) (sp p : Nat) : Nat :=
  sumNat (((nodesOn pl sp).filter fun x => purseOf s x == some 0).map (cycAt s n p))

/-- Load of an audit spoke (R256). -/
def auditLoad (s : State) (n : Nat) (auds : List (Node × Nat)) (a p : Nat) : Nat :=
  sumNat ((auds.filter fun e => e.2 == a).map fun e => cycAt s n p e.1)

/-- The class whose work is refused where a spoke is too full: the lowest one placed there. DESIGN CHOICE, log 5. -/
def classAt (s : State) (pl : Placement) (sp : Nat) : Nat := maxNat ((nodesOn pl sp).map fun x => (purseOf s x).getD 0)

/-- The stages of a spoke fit its SRAM (R310). -/
def stagesFit (s : State) (pl : Placement) (sp : Nat) : Bool :=
  let ps := (nodesOn pl sp).filterMap fun x => match x with
    | .inst p => some p
    | _ => none
  let hdr (p : List Name) : ImageHdr := imageHdr (instImage s p)
  let kinds := (ps.filterMap fun p => (stageIn s.adm.cfg p).map fun nm => (nm, p)).foldl
    (fun acc e => if acc.any fun a => a.1 == e.1 then acc else acc ++ [e]) ([] : List (Name × List Name))
  decide (sumNat (kinds.map fun e => (hdr e.2).code + (hdr e.2).data) +
    sumNat (ps.map fun p => let h := hdr p; 64 * (h.inputs + h.outputs) + 8 * h.params + 2 * h.state) +
    maxNat (ps.map fun p => (hdr p).scratch) ≤ 458752)

/-- The spoke checks of R247: the detail of the first one that fails. -/
def checkSpokes (s : State) (n : Nat) (spare : Bool) (pl : Placement) (auds : List (Node × Nat)) : Option Nat :=
  let c := checkCycles s
  let act := (activeSpokes s).findSome? fun sp =>
    if !stagesFit s pl sp then some (admDetail (classAt s pl sp) 0x010)
    else (List.range 64).findSome? fun p =>
      if spared spare (usable s) < spokeLoad s n pl sp p then some (admDetail (classAt s pl sp) 0x010)
      else if spared spare (c * 5 / 8 - 22000) < alarmLoad s n pl sp p then some (admDetail 0 0x011)
      else none
  match act with
  | some d => some d
  | none => (auditSpokes s).findSome? fun a =>
      (List.range 64).findSome? fun p =>
        if spared spare (c * 23 / 64) < auditLoad s n auds a p then some (admDetail 0 0x012) else none

/-- The auditor of a node on two wheels: the AUDIT spoke of the lowest wheel that has one and holds neither copy (R249). -/
def auditorFor (s : State) (a b : Nat) : Option Nat :=
  (auditSpokes s).find? fun x => x / 10 != a / 10 && x / 10 != b / 10

/-- The auditors of a placement, and whether an ALARM node is left without one. -/
def auditorsOf (s : State) (pl : Placement) : List (Node × Nat) :=
  pl.filterMap fun e => e.2.2.bind fun b => (auditorFor s e.2.1 b).map fun a => (e.1, a)

/-- A placement serves the configuration: every placed node once, on active spokes, ALARM nodes on two wheels. -/
def placementOk (s : State) (pl : Placement) : Bool :=
  let act := activeSpokes s
  (placedNodes s).all (fun x => (pl.filter fun e => e.1 == x).length == 1) &&
    pl.all fun e => (placedNodes s).contains e.1 && act.contains e.2.1 &&
      (if purseOf s e.1 == some 0 then (match e.2.2 with
        | some b => act.contains b && b / 10 != e.2.1 / 10
        | none => false) else e.2.2.isNone)

/-- The largest cost of one computation over the phases. -/
def nodePeak (s : State) (x : Node) : Nat := maxNat ((List.range 64).map fun p => cycAt s 0 p x)

/-- Place a configuration; the nodes that `keep` gives an entry stay where they are while their spokes are active. -/
def placeAll (s : State) (keep : Node → Option (Nat × Option Nat)) : Option Placement :=
  let ns := placedNodes s
  if ns.isEmpty then some []
  else
    match Config.place (ns.map fun x => (x, (purseOf s x).getD 0, nodePeak s x)) (activeSpokes s) with
    | none => none
    | some pl =>
      let act := activeSpokes s
      let pl' : Placement := pl.map fun e =>
        match keep e.1 with
        | some k => if act.contains k.1 && (k.2.map act.contains).getD true then (e.1, k.1, k.2) else e
        | none => e
      if placementOk s pl' then some pl' else none

/-- The class of the work that no placement fits: the lowest class to be placed. DESIGN CHOICE, log 5. -/
def unplacedClass (s : State) : Nat := maxNat ((placedNodes s).map fun x => (purseOf s x).getD 0)

/-- Wheels with active spokes. -/
def activeWheels (s : State) : Nat := ((List.range 4).filter fun w => (activeSpokes s).any fun sp => sp / 10 == w).length

def hasAlarm (s : State) : Bool := (placedNodes s).any fun x => purseOf s x == some 0

/-! ### Armed commits in the charges -/

/-- Writes in ascending boundary; at one boundary the lowest mailbox prevails (R98, R99). -/
def armedWrites (s : State) : List Write :=
  let bs := (s.armed.map Armed.at_).eraseDups
  let sorted := bs.foldl (fun acc b => acc.takeWhile (· < b) ++ [b] ++ acc.dropWhile (· < b)) ([] : List Nat)
  sorted.flatMap fun b =>
    (List.range 11).reverse.flatMap fun m => (s.armed.filter fun a => a.at_ == b && a.mb == m).flatMap Armed.writes

/-- The committed values with writes applied in order. -/
def withWrites (s : State) (ws : List Write) : State :=
  { s with vals := ws.foldl (fun vs w => setVal vs w.node w.tag w.vals) s.vals }

/-- The state with every armed commit applied: what USED figures and checks count (R238, R247). -/
def withArmed (s : State) : State := withWrites s (armedWrites s)

/-- Check 2 of R91 on a candidate: the purse and spoke checks with the placement in force, and with the releases of the ladder
steps taken. DEDUCED, log 40. -/
def commitFits (s : State) : Option Nat :=
  match checkPurses s s.ladder.pos false with
  | some d => some d
  | none => checkSpokes s s.ladder.pos false s.adm.place s.adm.auditors

/-- The check of R524 with the steps up to `n` taken: sums, purses and spokes. With a step taken, a purse counts in the sums at
the lesser of its field and what its class still loads. DEDUCED, log 40. -/
def ladderFails (s0 : State) (n : Nat) (spare : Bool) : Option Nat :=
  let s := withArmed s0
  let sum (f : Nat → Nat) : Nat := sumNat ((List.range 4).map f)
  let cut (k tag load : Nat) : Nat := if n = 0 then purse s k tag else min (purse s k tag) load
  if spared spare ((activeSpokes s).length * usable s) < sum (fun k => cut k 0x101 (classPeak s n k)) then some (admDetail 0xF 0x021)
  else if spared spare (dramLimit s) < sum (fun k => cut k 0x103 (classDram s n k)) then some (admDetail 0xF 0x023)
  else
    match checkPurses s n false with
    | some d => some d
    | none =>
      if activeWheels s < 2 && hasAlarm s then some (admDetail 0 0x013)
      else checkSpokes s n spare s.adm.place s.adm.auditors

end Sys2Proof.Machine
end

