-- ==== Sys2Proof/Machine/Alarm.lean ====
section
/-! DEFINITION. Charges of spokes (R16, R508, R509), the two copies of ALARM nodes and their resolution (R252 to R254, R304,
R436), and the accounting of ALARM frames (R257, R258, R538, R539): ALARM_MARK, AUDIT_RESOLUTION and SPOKE_OVERRUN. -/

namespace Sys2Proof.Machine

/-! ### Charges (R508, R509) -/

/-- A spoke is retired. -/
def isRetired (s : State) (sp : Nat) : Bool := ((s.spokeAt sp).map fun x => x.role == 3).getD false

/-- One audit failure at the present tally. A second one while the first is held dooms the spoke. -/
def charge (sp : Nat) (s : State) : State :=
  let now := s.clk.tally
  let held := s.fault.charges.any fun c => c.1 == sp && decide (now < c.2 + frames 30000)
  let doom := held && !isRetired s sp && !(s.fault.doomed.any fun d => d.1 == sp)
  let s := s.updSpoke sp fun x => { x with auditFails := x.auditFails + 1 }
  { s with fault := { s.fault with charges := s.fault.charges ++ [(sp, now)],
                                   doomed := if doom then s.fault.doomed ++ [(sp, now)] else s.fault.doomed } }

/-- The spoke has been charged since the dispatch of the running frame (R253: no second charge for that frame). -/
def chargedIn (s : State) (sp : Nat) : Bool :=
  match s.snd.running with
  | none => false
  | some t => s.fault.charges.any fun c => c.1 == sp && decide (t < c.2)

/-- Drop the charges that are 30 000 frames old. -/
def expireCharges (which : Nat → Bool) (s : State) : State :=
  { s with fault := { s.fault with
      charges := s.fault.charges.filter fun c => !(which c.1) || decide (s.clk.tally < c.2 + frames 30000) } }

/-- AUDIT_CHARGE_EXPIRE. -/
def execAuditChargeExpire (sp : Nat) (s : State) : Host.Outcome State Fault Refusal := .next (expireCharges (· == sp) s)

/-! ### The copies of a node -/

/-- The primary and the secondary spoke of an ALARM node. -/
def copySpokes (s : State) (n : Node) : Option (Nat × Nat) :=
  (s.adm.place.find? fun e => e.1 == n).bind fun e => e.2.2.map fun b => (e.2.1, b)

/-- The vault of copy `c` lies on a failed channel, and the node uses it (R413, R436). -/
def vaultLost (s : State) (n : Node) (c : Nat) : Bool := (s.chAt c).failed && (alarmVault s).contains n

/-- How copy `c` on spoke `sp` stands: what is observed, unless its stage has faulted or it is not run. -/
def copyState (s : State) (n : Node) (c sp : Nat) (seen : CopyOut) : CopyOut :=
  let now := match n with
    | .inst p => ((s.instAt p).bind fun i => i.now.find? fun f => f.1 == c).map (·.2)
    | _ => none
  match now with
  | some code => .faulted code
  | none => if vaultLost s n c || isRetired s sp then .missing else seen

def copyPresent : CopyOut → Bool
  | .present _ _ => true
  | _ => false

def copyFaulted : CopyOut → Bool
  | .faulted _ => true
  | _ => false

/-- The samples of a copy. -/
def copyOut : CopyOut → List Sample
  | .present o _ => o
  | _ => []

/-- An audit result equals a copy: the output and the signature. -/
def copyAgrees (c : CopyOut) (out : List Sample) (sig : Nat) : Bool := c == .present out sig

/-! ### Resolution (R253) -/

/-- A row of R253: the output that replaces what the copies gave (none: as computed), whose output it is (0 primary), the copies
charged, DETAIL of ALARM_UNRESOLVED, and whether the frame is bad (R539). -/
structure AlarmRow where
  out        : Option (List Sample)
  other      : Bool
  charged    : List Nat
  unresolved : Option Nat
  bad        : Bool
deriving DecidableEq, Repr

/-- The result of the auditor: none when the node has no auditor. -/
def resolveRow (p q : CopyOut) (audit : Option AuditRes) : AlarmRow :=
  let open_ (out : List Sample) (charged : List Nat) (other : Bool) (d : Nat) : AlarmRow :=
    { out := some out, other := other, charged := charged, unresolved := some d, bad := true }
  let done (out : List Sample) (charged : List Nat) (other : Bool) : AlarmRow :=
    { out := some out, other := other, charged := charged, unresolved := none, bad := false }
  match copyPresent p, copyPresent q with
  | true, true =>
    match audit with
    | some (.usable o g) =>
      if copyAgrees p o g then done (copyOut p) [1] false else if copyAgrees q o g then done (copyOut q) [0] true else open_ (copyOut p) [] false 0
    | some .notUsable => open_ (copyOut p) [] false 1
    | none => open_ (copyOut p) [] false 2
  | false, true =>
    match audit with
    | some (.usable o g) => if copyAgrees q o g then done (copyOut q) [0] true else open_ (copyOut q) [0] true 0
    | some .notUsable => open_ (copyOut q) [0] true 1
    | none => done (copyOut q) [0] true
  | true, false =>
    match audit with
    | some (.usable o g) => if copyAgrees p o g then done (copyOut p) [1] false else open_ (copyOut p) [1] false 0
    | some .notUsable => open_ (copyOut p) [1] false 1
    | none => done (copyOut p) [1] false
  | false, false =>
    match audit with
    | some (.usable o _) => done o [0, 1] true
    | some .notUsable => open_ [] [0, 1] false 1
    | none => open_ [] [0, 1] false 2

/-- The copies whose state is dropped for the other's (R254): the copy that lost, the secondary where two copies stay unresolved, a
missing copy where one is present. -/
def losers (p q : CopyOut) (r : AlarmRow) : List Nat :=
  match copyPresent p, copyPresent q with
  | true, true => if r.unresolved.isSome then [1] else r.charged
  | false, true => [0]
  | true, false => [1]
  | false, false => []

/-- Charge the spoke of a missing copy once in a frame, that of a copy that differs each time; never for a stage fault or a lost
vault. -/
def chargeCopy (n : Node) (c sp : Nat) (x : CopyOut) (s : State) : State :=
  if copyFaulted x || vaultLost s n c || (!copyPresent x && chargedIn s sp) then s else charge sp s

/-- Resolve one node in the frame dispatched at `t`. -/
def resolveNode (t : Nat) (o : CopyObs) (audit : Option AuditRes) (s : State) : State :=
  match copySpokes s o.node with
  | none => s
  | some (a, b) =>
    let r := resolveRow o.primary o.secondary audit
    let spoke (c : Nat) : Nat := if c = 0 then a else b
    let copy (c : Nat) : CopyOut := if c = 0 then o.primary else o.secondary
    let exempt (c : Nat) : Bool := copyFaulted (copy c) || vaultLost s o.node c
    let s := r.charged.foldl (fun s c => chargeCopy o.node c (spoke c) (copy c) s) s
    let s := { s with alarm := { s.alarm with
      outs := match r.out with
        | none => s.alarm.outs
        | some x => (o.node, x) :: dropKey o.node s.alarm.outs,
      bad := s.alarm.bad || r.bad,
      resync := s.alarm.resync ++ (losers o.primary o.secondary r).map fun c => (o.node, spoke c) } }
    match r.unresolved with
    | some d => raiseOwn 0x4003 .boundary t (some o.node) d (s.updFault fun f => { f with code4At := some s.clk.tally })
    | none => (r.charged.filter fun c => !exempt c).foldl (fun s c =>
        raiseOwn 0x4002 .boundary t (some o.node) (spoke c * 256 + b2n r.other) s) s

/-- The auditor of a node. -/
def auditorOf (s : State) (n : Node) : Option Nat := findKey n s.adm.auditors

/-! ### The mark (R252) -/

/-- The ALARM mark of a frame, and the resolution deadline before its release. -/
def markTicks : Nat := 5120
def resolveTicks : Nat := 8192 - 128

/-- A copy that is reported faulted at the mark has faulted as one whose bundle did (R304). -/
def noteFaults (t : Nat) (o : CopyObs) (s : State) : State :=
  let one (c : Nat) (x : CopyOut) (s : State) : State :=
    match x, o.node with
    | .faulted code, .inst p =>
      s.updInst p fun i => if i.now.any fun f => f.1 == c then i else instFault c code (t / 8192) i
    | _, _ => s
  one 1 o.secondary (one 0 o.primary s)

/-- What the mark finds at one node, and what follows at once: nothing where the copies agree or both stages faulted; a faulted
copy's place is taken by the other (R304); a disagreement waits for the auditor. A copy that is not run by role is taken to be
confirmed by the audit of the other; DEDUCED, log 60. -/
def markNode (t : Nat) (obs : List CopyObs) (n : Node) (s : State) : State :=
  match copySpokes s n with
  | none => s
  | some (a, b) =>
    let seen := obs.find? fun o => o.node == n
    let p := copyState s n 0 a ((seen.map CopyObs.primary).getD (.present [] 0))
    let q := copyState s n 1 b ((seen.map CopyObs.secondary).getD (.present [] 0))
    let o : CopyObs := { node := n, primary := p, secondary := q }
    if p == q && copyPresent p then s
    else if copyFaulted p && copyFaulted q then s
    else if copyFaulted p || copyFaulted q then
      if copyPresent p || copyPresent q then s else resolveNode t o (some .notUsable) s
    else if seen.isNone then
      let s := if copyPresent p || copyPresent q then s else resolveNode t o ((auditorOf s n).map fun _ => .notUsable) s
      let one (c sp : Nat) (x : CopyOut) (s : State) : State :=
        if copyPresent x || vaultLost s n c then s else raiseOwn 0x4002 .boundary t (some n) (sp * 256 + (1 - c)) (charge sp s)
      if copyPresent p then one 1 b q s else if copyPresent q then one 0 a p s else s
    else if (auditorOf s n).isSome then { s with alarm := { s.alarm with open_ := s.alarm.open_ ++ [o] } }
    else resolveNode t o none s

/-- ALARM_MARK: 5120 ticks after dispatch the hub compares the two copies of every ALARM node, once in a frame. -/
def execAlarmMark (obs : List CopyObs) (s : State) : Host.Outcome State Fault Refusal :=
  match s.snd.running with
  | none => .next s
  | some t =>
    if s.alarm.marked || decide (s.clk.tally < t + markTicks) || decide (t + frameTicks ≤ s.clk.tally) then .next s
    else
      let s := obs.foldl (fun s o => noteFaults t o s) s
      let s := (s.adm.place.map (·.1)).foldl (fun s n => markNode t obs n s) s
      .next { s with alarm := { s.alarm with marked := true } }

/-- AUDIT_RESOLUTION: the auditor's result for a node whose copies disagree, by the resolution deadline. -/
def execAuditResolution (n : Node) (res : AuditRes) (s : State) : Host.Outcome State Fault Refusal :=
  match s.snd.running, s.alarm.open_.find? fun o => o.node == n with
  | some t, some o =>
    if t + resolveTicks < s.clk.tally then .next s
    else .next (resolveNode t o (some res) { s with alarm := { s.alarm with open_ := s.alarm.open_.filter fun x => x.node != n } })
  | _, _ => .next s

/-- What is still open when the frame is released has no usable audit. -/
def closeMark (t : Nat) (s : State) : State :=
  let s' := s.alarm.open_.foldl (fun s o => resolveNode t o (some .notUsable) s) s
  { s' with alarm := { s'.alarm with open_ := [] } }

/-! ### Accounting (R257, R258, R538, R539) -/

/-- A MAC that carries an ALARM stream is paused (R258), or every port of an ALARM stream is down (R257). -/
def alarmNetDown (s : State) : Bool :=
  s.net.txs.any fun x => classOf s (.tx x.mac x.s) == some 0 &&
    (let ms := streamMacs s x.mac (pN s (.tx x.mac x.s) 0x10B == 1)
     ms.any (fun m => pausedNow (s.macAt m)) || ms.all fun m => (s.macAt m).link == 0)

/-- The frame is outside the conditions of R257 that the block itself sees, or within R258. -/
def excludedFrame (s : State) : Bool :=
  ((s.chAt 0).failed && (s.chAt 1).failed) || alarmNetDown s ||
    s.adm.place.any fun e => match e.2.2 with
      | some b => isRetired s e.2.1 && isRetired s b
      | none => false

/-- Count a released ALARM output frame. -/
def countAlarm (s : State) : State :=
  if !hasAlarm s then s
  else
    let ex := excludedFrame s
    let bad := s.alarm.bad && !ex
    let s := if bad then s.updFault fun f => { f with code4At := some s.clk.tally } else s
    { s with ladder := { s.ladder with alarmFrames := (s.ladder.alarmFrames + 1) % 2 ^ 64,
                                       alarmBad := (s.ladder.alarmBad + b2n bad) % 2 ^ 64,
                                       excluded := (s.ladder.excluded + b2n ex) % 2 ^ 64 } }

/-! ### Overruns (R16) -/

/-- SPOKE_OVERRUN: at the release of a frame a spoke that has not completed it is aborted, counted and charged, unless the frame has
charged it already. -/
def execSpokeOverrun (sp : Nat) (s : State) : Host.Outcome State Fault Refusal :=
  match s.snd.running, s.spokeAt sp with
  | some t, some x =>
    if s.clk.tally != t + frameTicks || !(x.role == 0 || x.role == 2) || s.snd.complete.contains sp || s.snd.aborted.contains sp then .next s
    else
      let s' := if chargedIn s sp then s else charge sp s
      .next { s'.updSpoke sp fun x => { x with overruns := satAdd32 x.overruns 1,
                                               core := { x.core with inst := none, areas := [], mode := .firmware, stall := none } }
              with snd := { s'.snd with aborted := sp :: s'.snd.aborted } }
  | _, _ => .next s

/-! ### Retirement without a spare, seen at the release (R510, R513, R514) -/

/-- The spokes to be retired at boundary `b`, in ascending order. -/
def doomedAt (s : State) (b : Nat) : List Nat := (List.range 40).filter fun sp => s.fault.doomed.any fun d => d.1 == sp && decide (d.2 < b)

/-- The AUDIT spoke of a wheel that can take a schedule. -/
def wheelSpare (s : State) (b w : Nat) : Option Nat :=
  (List.range 10).map (10 * w + ·) |>.find? fun x => ((s.spokeAt x).map fun k => k.role == 2).getD false && !(doomedAt s b).contains x

/-- A doomed spoke gets the spare of its wheel: the lowest one does. -/
def getsSpare (s : State) (b sp : Nat) : Bool :=
  (wheelSpare s b (sp / 10)).isSome && (doomedAt s b).find? (fun x => x / 10 == sp / 10) == some sp

/-- The nodes placed on a spoke, ALARM apart. -/
def plainOn (s : State) (sp : Nat) : List Node := (s.adm.place.filter fun e => e.2.2.isNone && e.2.1 == sp).map (·.1)

/-- The fade-out of the nodes whose spoke is retired at `b` without a spare, over the frame released at `b` (R514). -/
def lossFades (b : Nat) (s : State) : State :=
  let ns := ((doomedAt s b).filter fun sp => !getsSpare s b sp).flatMap (plainOn s)
  { s with ladder := { s.ladder with fades := s.ladder.fades ++ ns.map fun n => (n, b, 1, false) } }

end Sys2Proof.Machine
end

