-- ==== Sys2Proof/Machine/Bell.lean ====
section
/-! DEFINITION. The Bell path: its image, triggers, repetitions, routes and mixing (spec/07_service_classes_bell_path.md, R260
to R271). -/

namespace Sys2Proof.Machine

/-! ### The image (R261 to R263) -/

def bellStart (m : Mem) (k : Nat) : Nat := (m.word (0x40 + 16 * k)).toNat
def bellLength (m : Mem) (k : Nat) : Nat := (m.word (0x44 + 16 * k)).toNat

/-- Every field of an image lies in its range (R262). -/
def bellFieldsOk (m : Mem) (gen : Nat) : Bool :=
  let w (a : Nat) : Word := m.word a
  w 0 == 1#32 && (w 4).toNat == gen && decide ((w 8).toNat ≤ 64) &&
  ((List.range 64).all fun k => decide (bellStart m k ≤ 959999) && decide (bellStart m k + bellLength m k ≤ 960000)) &&
  ((List.range 64).all fun k =>
    let a := 0x440 + 16 * k
    (specsBellRoute.zipIdx).all fun p => p.1.ok [w (a + 4 * p.2)]) &&
  ((List.range 4).all fun k =>
    let a := 0x840 + 16 * k
    ((specsBellTrig.take 4).zipIdx).all fun p => p.1.ok [w (a + 4 * p.2)]) &&
  ((List.range 16).all fun k =>
    let a := 0x880 + 16 * k
    uIn 0 2 (w a) && [16, 24, 32].contains (w (a + 4)).toNat && onlyBits 7 (w (a + 8)) && uIn 2 16 (w (a + 12))) &&
  ((List.range 4).all fun k => uIn 0 3 (w (0x980 + 16 * k)))

/-- Parameters of triggers and routes as committed (R267). -/
def trigMsg (s : State) (n : Nat) : Nat := pN s (.bellTrig n) 0x101
def trigMode (s : State) (n : Nat) : Nat := pN s (.bellTrig n) 0x102
def trigRepeats (s : State) (n : Nat) : Nat := pN s (.bellTrig n) 0x103
def trigGap (s : State) (n : Nat) : Nat := pN s (.bellTrig n) 0x104 * 24576
def trigSw (s : State) (n : Nat) : Bool := pN s (.bellTrig n) 0x105 == 1
def routeDest (s : State) (i : Nat) : Word := pW s (.bellRoute i) 0x101 0
def routeMask (s : State) (i : Nat) : Nat := pN s (.bellRoute i) 0x102
def routeGain (s : State) (i : Nat) : Rat := (gainOfDb (pZ s (.bellRoute i) 0x103) : Rat) / 134217728
/-- The lowest gain of the spoke output under a route: 0, or DUCK (R268). -/
def routeLow (s : State) (i : Nat) : Rat :=
  if bitOf (routeMask s i) 8 then (gainOfDb (pZ s (.bellRoute i) 0x104) : Rat) / 134217728 else 0

def State.bellTrigAt (s : State) (n : Nat) : BellTrig := s.bell.trigs.getD n BellTrig.reset
def State.updTrig (s : State) (n : Nat) (f : BellTrig → BellTrig) : State :=
  { s with bell := { s.bell with trigs := s.bell.trigs.modify n f } }
def State.updRoute (s : State) (i : Nat) (f : BellRoute → BellRoute) : State :=
  { s with bell := { s.bell with routes := s.bell.routes.modify i f } }
def State.bellRouteAt (s : State) (i : Nat) : BellRoute := s.bell.routes.getD i { voices := [], down := 0 }

/-! ### Triggers (R264, R265) -/

/-- A trigger is asserted (R264). -/
def trigAsserted (s : State) (n : Nat) : Bool := (s.bellTrigAt n).pin || s.bell.sw.getLsbD n || trigSw s n

/-- The triggers asserted, bit n for trigger n (R271). -/
def trigMask (s : State) : Nat := sumNat ((List.range 4).map fun n => if (s.bellTrigAt n).on then 2 ^ n else 0)

/-- A trigger event (R271): recorded only while the hub runs. -/
def bellEvent (code n : Nat) (s : State) : State :=
  if bitOf s.boot.domains 6 then raiseOwn code .detect s.clk.tally (some (.bellTrig n)) (trigMask s) s else s

/-- Length of a message at 48 kHz: three output samples for each of its samples. DESIGN CHOICE, log 38. -/
def bellLen48 (s : State) (msg : Nat) : Nat := 3 * bellLength s.bell.store msg

/-- The trigger's message is playing or waits in a gap. -/
def trigActive (s : State) (n : Nat) : Bool :=
  let p := (s.bellTrigAt n).play
  p.pos.isSome || p.gapEnd.isSome

/-- The count of a trigger starts (R265): the message plays from its start, at the next sample boundary. -/
def bellBegin (n : Nat) (s : State) : State :=
  let m := trigMsg s n
  if !s.bell.imageOk || bellLen48 s m = 0 then s
  else
    let left := if trigMode s n = 2 then trigRepeats s n - 1 else 0
    s.updTrig n fun t =>
      { t with starts := satAdd32 t.starts 1,
               play := { t.play with msg := m, pos := some 0, left := left, gapEnd := none, again := false } }

/-- The trigger stops sounding (R271). -/
def bellStop (n : Nat) (s : State) : State :=
  bellEvent 0x4006 n (s.updTrig n fun t =>
    { t with play := { t.play with pos := none, gapEnd := none, left := 0, again := false } })

/-- The level of a trigger is looked at again (R264, R265): assertion and release. -/
def bellLook (n : Nat) (s : State) : State :=
  let now := trigAsserted s n
  let t := s.bellTrigAt n
  if now = t.on then s
  else
    let s := s.updTrig n fun t => { t with on := now }
    if now then
      let s := bellEvent 0x4005 n s
      if trigActive s n then s.updTrig n fun t => { t with play := { t.play with again := true } }
      else bellBegin n s
    else if !s.bell.imageOk then bellEvent 0x4006 n s
    else if trigMode s n ≠ 0 || !trigActive s n then s
    else
      let sounding := s.bell.routes.any fun r => r.voices.any fun v => v.trig == n && v.fade.isNone
      let fadeOut (v : BellVoice) : BellVoice := if v.trig = n && v.fade.isNone then { v with fade := some 16 } else v
      if sounding then
        let s := s.updTrig n fun t => { t with play := { t.play with pos := none, gapEnd := none, again := false, fade := 16 } }
        { s with bell := { s.bell with routes := s.bell.routes.map fun r => { r with voices := r.voices.map fadeOut } } }
      else bellStop n s

/-- All four triggers are looked at again. -/
def bellLookAll (s : State) : State := (List.range 4).foldl (fun s n => bellLook n s) s

/-- BELL_TRIG_RECOGNISE (R264): the filtered level of a pin changes. -/
def execBellTrigRecognise (n : Nat) (level : Bool) (s : State) : Host.Outcome State Fault Refusal :=
  if n < 4 then .next (bellLook n (s.updTrig n fun t => { t with pin := level })) else .next s

/-- The end of a repetition at tally `e` (R265). -/
def bellRepEnd (n e : Nat) (s : State) : State :=
  let p := (s.bellTrigAt n).play
  let gap := trigGap s n
  let again (left : Nat) : State := s.updTrig n fun t =>
    { t with play := if gap = 0 then { t.play with pos := some 0, left := left }
                     else { t.play with pos := none, gapEnd := some (e + gap), left := left } }
  match trigMode s n with
  | 0 => if (s.bellTrigAt n).on then again 0 else bellStop n s
  | 1 => if p.again then bellBegin n s else bellStop n s
  | _ =>
    if p.again then
      if gap = 0 then bellBegin n s
      else s.updTrig n fun t => { t with play := { t.play with pos := none, gapEnd := some (e + gap) } }
    else if p.left = 0 then bellStop n s else again (p.left - 1)

/-- The repetition has run to its end. -/
def bellRepDue (s : State) (n : Nat) : Bool :=
  let p := (s.bellTrigAt n).play
  match p.pos with
  | some k => decide (bellLen48 s p.msg ≤ k)
  | none => false

/-- BELL_REPETITION_END (R265). -/
def execBellRepetitionEnd (n : Nat) (s : State) : Host.Outcome State Fault Refusal :=
  if bellRepDue s n then .next (bellRepEnd n s.clk.nextSample s) else .next s

/-- The gap is over (R265): the next repetition plays, or the count restarts. -/
def bellGapOver (n : Nat) (s : State) : State :=
  let p := (s.bellTrigAt n).play
  match p.gapEnd with
  | some e =>
    if e ≤ s.clk.tally then
      if p.again then bellBegin n s
      else s.updTrig n fun t => { t with play := { t.play with pos := some 0, gapEnd := none } }
    else s
  | none => s

/-- BELL_GAP_END (R265). -/
def execBellGapEnd (n : Nat) (s : State) : Host.Outcome State Fault Refusal := .next (bellGapOver n s)

/-! ### Routes (R266, R268, R269) -/

/-- A voice that still has samples. -/
def voiceLive (s : State) (v : BellVoice) : Bool :=
  v.fade != some 0 && decide (v.pos < bellLen48 s v.msg)

/-- The trigger that plays on a route: the lowest one of its mask that sounds (R266). -/
def routeTrig (s : State) (i : Nat) : Option Nat :=
  if fld (routeDest s i) 28 4 = 0 then none
  else (List.range 4).find? fun n =>
    bitOf (routeMask s i) n && (trigActive s n || (s.bellRouteAt i).voices.any fun v => v.trig == n && v.fade.isNone)

/-- Every voice that does not fade yet fades out (R266, R269). -/
def fadeVoices (keep : BellVoice → Bool) (vs : List BellVoice) : List BellVoice :=
  vs.map fun v => if v.fade.isNone && !keep v then { v with fade := some 16 } else v

/-- The route takes the trigger that plays on it: a voice that begins starts the message, or, where `join` is set, joins it at
its position (R266, R269). -/
def routeSelect (join : Bool) (i : Nat) (s : State) : State :=
  let dest := routeDest s i
  match routeTrig s i with
  | none => s.updRoute i fun r => { r with voices := fadeVoices (fun _ => false) r.voices }
  | some n =>
    let p := (s.bellTrigAt n).play
    let keep (v : BellVoice) : Bool := v.trig == n && v.dest == dest
    let s := s.updRoute i fun r => { r with voices := fadeVoices keep r.voices }
    if (s.bellRouteAt i).voices.any fun v => v.fade.isNone then s
    else
      match p.pos with
      | some k =>
        let v : BellVoice := { trig := n, msg := p.msg, pos := if join then k else 0, dest := dest, fade := none }
        s.updRoute i fun r => { r with voices := r.voices ++ [v] }
      | none => s

/-- A commit has written a parameter of a route or a trigger (R267, R269). -/
def applyBell (n : Node) (tag : Nat) (oldDest : Word) (oldLow : Rat) (s : State) : State :=
  match n with
  | .bellTrig k => if tag = 0x105 then bellLook k s else s
  | .bellRoute i =>
    if tag = 0x101 && oldDest != routeDest s i then
      let down := (s.bellRouteAt i).down
      let s := if down = 0 then s
        else { s with bell := { s.bell with tails := s.bell.tails ++ [(oldDest, oldLow, down)] } }
      routeSelect true i (s.updRoute i fun r => { r with down := 0, voices := fadeVoices (fun _ => false) r.voices })
    else if tag = 0x102 then routeSelect true i s
    else s
  | _ => s

/-- Sample `i` of a message, as stored (R262); the words of `bad` play as zeros (R261). -/
def bellSource (s : State) (bad : List Nat) (msg i : Nat) : Int :=
  if bellLength s.bell.store msg ≤ i then 0
  else
    let k := bellStart s.bell.store msg + i
    let w := 0x400 + k / 2
    if bad.contains w then 0
    else
      let h := fld (s.bell.store.word (4 * w)) (16 * (k % 2)) 16
      if 32768 ≤ h then (h : Int) - 65536 else h

/-- The interpolated message at 48 kHz position `p` (R268), in units of 2^-46: zeros stand between the samples, history zeros
before them. -/
def bellInterp (s : State) (bad : List Nat) (msg p : Nat) : Int :=
  sumInt ((List.range 48).map fun k =>
    if k ≤ p && (p - k) % 3 = 0 then Config.bellTap k * bellSource s bad msg ((p - k) / 3) else 0)

/-- What a voice adds at this sample, in units of the raw sample (R265, R268). -/
def voiceTerm (s : State) (bad : List Nat) (i : Nat) (v : BellVoice) : Rat :=
  let f : Rat := match v.fade with
    | some k => ((k - 1 : Nat) : Rat) / 16
    | none => 1
  (bellInterp s bad v.msg v.pos : Rat) / 32768 * routeGain s i * f

/-- A voice moves on. -/
def voiceStep (v : BellVoice) : BellVoice := { v with pos := v.pos + 1, fade := v.fade.map (· - 1) }

/-- The gain of the spoke output after `down` samples of the move (R268). -/
def downGain (low : Rat) (down : Nat) : Rat := 1 - (1 - low) * down / 16

/-- A route plays at its destination: a voice sounds there, or the gap of the trigger selected runs. -/
def routePlays (s : State) (i : Nat) : Bool :=
  (s.bellRouteAt i).voices.any (fun v => v.dest == routeDest s i) ||
  (match routeTrig s i with
  | some n => (s.bellTrigAt n).play.gapEnd.isSome
  | none => false)

/-- What a route gives: its voices' terms and the gain of the spoke output at its destination. -/
def routeOuts (s : State) (bad : List Nat) (i : Nat) : List BellOut :=
  let r := s.bellRouteAt i
  let dest := routeDest s i
  let own : List BellOut :=
    if r.down = 0 then [] else [{ dest := dest, term := 0, gain := downGain (routeLow s i) r.down, playing := routePlays s i }]
  own ++ r.voices.map fun v => { dest := v.dest, term := voiceTerm s bad i v, gain := 1, playing := v.fade.isNone }

/-- Terms add up, and the lowest gain holds (R268). -/
def mergeOut (l : List BellOut) (o : BellOut) : List BellOut :=
  if l.any fun x => x.dest == o.dest then
    l.map fun x =>
      if x.dest == o.dest then
        { x with term := x.term + o.term, gain := min x.gain o.gain, playing := x.playing || o.playing }
      else x
  else l ++ [o]

/-- Words of `bad` that a voice reads at this sample, with its message (R261, R271). -/
def badReads (s : State) (bad : List Nat) : List (Nat × Nat) :=
  let vs := s.bell.routes.flatMap BellRoute.voices
  (bad.flatMap fun w => vs.filterMap fun v =>
    let first := 0x400 + bellStart s.bell.store v.msg / 2
    let here := 0x400 + (bellStart s.bell.store v.msg + v.pos / 3) / 2
    if w = here && v.pos / 3 < bellLength s.bell.store v.msg then some (v.msg, w - first) else none).eraseDups

/-- One sample boundary of the Bell path (R265 to R270): repetitions and gaps that end, selection, and the samples to be loaded
one sample later. -/
def bellSample (bad : List Nat) (s : State) : State :=
  let s := (List.range 4).foldl (fun s n => if bellRepDue s n then bellRepEnd n s.clk.tally s else bellGapOver n s) s
  let s := (List.range 64).foldl (fun s i =>
    routeSelect false i (s.updRoute i fun r => { r with voices := r.voices.filter (voiceLive s) })) s
  let s := (List.range 64).foldl (fun s i =>
    let plays := routePlays s i
    s.updRoute i fun r => { r with down := if plays then min 16 (r.down + 1) else r.down - 1 }) s
  let s := { s with bell := { s.bell with
    tails := (s.bell.tails.map fun t => (t.1, t.2.1, t.2.2 - 1)).filter fun t => t.2.2 != 0 } }
  let tails : List BellOut :=
    s.bell.tails.map fun t => { dest := t.1, term := 0, gain := downGain t.2.1 t.2.2, playing := false }
  let outs := ((List.range 64).flatMap (routeOuts s bad) ++ tails).foldl mergeOut []
  let lost := badReads s bad
  let s := { s with bell := { s.bell with
    next := outs, storeErr := s.bell.storeErr || !lost.isEmpty,
    routes := s.bell.routes.map fun r => { r with voices := r.voices.map voiceStep },
    trigs := s.bell.trigs.map fun t => { t with play := { t.play with pos := t.play.pos.map (· + 1) } } } }
  let s := lost.foldl (fun s l =>
    if bitOf s.boot.domains 6 then raiseOwn 0x4007 .detect s.clk.tally (some (.bellMsg l.1)) (low16 l.2) s else s) s
  (List.range 4).foldl (fun s n =>
    match (s.bellTrigAt n).play.fade with
    | 0 => s
    | k + 1 =>
      let s := s.updTrig n fun t => { t with play := { t.play with fade := k } }
      if k = 0 then bellEvent 0x4006 n s else s) s

/-- The sample of a destination: the messages plus the spoke output times its gain, exact, then saturated (R268). -/
def bellMix (o : BellOut) (x : Int) : Int := (reduceRat (o.term + x * o.gain)).1

/-- What is loaded for a destination word, computed one sample before (R270). -/
def bellFor (s : State) (dest : Word) : Option BellOut := s.bell.next.find? fun o => o.dest == dest

/-- DEST words of a TDM slot, an AES3 output channel and a pilot channel (R267). -/
def bellTdm (port slot : Nat) : Word := wd (1 * 2 ^ 28 + port * 256 + slot)
def bellAes (port ch : Nat) : Word := wd (2 * 2 ^ 28 + port * 256 + ch)
def bellPilot (n : Nat) : Word := wd (3 * 2 ^ 28 + n * 256)

/-- A trigger sounds on at least one route: BELL_STATUS.PLAYING. -/
def trigPlaying (s : State) (n : Nat) : Bool := s.bell.routes.any fun r => r.voices.any fun v => v.trig == n

/-- BELL_STATUS. -/
def bellStatus (s : State) : Word :=
  let bits (f : Nat → Bool) : Nat := sumNat ((List.range 4).map fun n => if f n then 2 ^ n else 0)
  wd (bits (fun n => (s.bellTrigAt n).pin) * 65536 + bits (trigSw s) * 256 + bits (trigPlaying s) * 16 +
    b2n s.bell.storeErr * 4 + b2n s.bell.imageOk * 2 + b2n s.clk.onHoldover)

/-- Read-only values (R267). -/
def roBell (s : State) (n : Node) (tag : Nat) : List Word :=
  match n, tag with
  | .bell, 0x180 => w1 (b2n s.bell.imageOk)
  | .bell, 0x181 => [s.bell.imageCrc]
  | .bellMsg k, 0x180 => w1 (bellLength s.bell.store k)
  | .bellTrig k, 0x180 => w1 (s.bellTrigAt k).starts
  | _, _ => []

/-- The boot ROM loads an image (R263): the store, IMAGE_OK, IMAGE_CRC; the paths are silent. -/
def bellLoad (img : Option Mem) (gen : Nat) (s : State) : State :=
  let ok := match img with
    | some m => bellFieldsOk m gen
    | none => false
  let m := img.getD []
  { s with bell := { s.bell with
      store := m, imageOk := ok, imageCrc := m.word 0x1FFFFC, storeErr := false, sw := 0#32,
      trigs := s.bell.trigs.map fun t => { BellTrig.reset with pin := t.pin },
      routes := List.replicate 64 { voices := [], down := 0 }, tails := [], next := [], sent := [] } }

end Sys2Proof.Machine
end

