-- ==== Sys2Proof/Machine/Pilot.lean ====
section
/-! DEFINITION. The pilot DAC channels: parameters at E, signals, output states, line supervision and element calibration
(spec/13_pilot_dacs.md). -/

namespace Sys2Proof.Machine

def State.pilotAt (s : State) (n : Nat) : Pilot := s.pilots.getD n (Pilot.reset n)
def State.updPilot (s : State) (n : Nat) (f : Pilot → Pilot) : State := { s with pilots := s.pilots.modify n f }

/-- Ticks from a frame boundary to the instant its first output sample is latched (R14, R441). -/
def latchTicks : Nat := 9216

/-- Ticks of a RANGE_HIZ window (R445). -/
def hizTicks : Nat := 5120

/-- Samples of a full ramp (R445). -/
def pilotRamp : Nat := 2400

/-! ### Codes (R443) -/

/-- The code of a sample, and the sample of a code. -/
def codeOfSample (x : Int) : Nat := min 65535 (32768 + (x + 2 ^ 15) / 2 ^ 16).toNat
def sampleOfCode (c : Nat) : Int := ((c : Int) - 32768) * 2 ^ 16

/-- One step of the noise register: Galois form of x^32 + x^22 + x^2 + x + 1, shifting right. DEDUCED, log 35. -/
def noiseStep (v : BitVec 32) : BitVec 32 := if v.getLsbD 0 then (v >>> 1) ^^^ 0x80200003#32 else v >>> 1

/-- The code of the SOURCE at an update (R442). -/
def sourceCode (p : Pilot) (audio : Int) : Nat :=
  let u := p.k % p.period
  let span := p.high - p.low
  match p.source with
  | 0 => p.hold
  | 1 => p.low + span * min u (p.period - u) / (p.period / 2)
  | 2 => p.low + span * u / (p.period - 1)
  | 3 => p.low + p.lfsr.toNat / 65536 * (span + 1) / 65536
  | _ => codeOfSample audio

/-- The pin: nothing in HIZ and RANGE_HIZ, r × c rounded down while it ramps, c otherwise (R445). -/
def pinOf (p : Pilot) : Option Nat :=
  match p.state with
  | 0 => none
  | 3 => none
  | 2 => some p.code
  | _ => some (p.r * p.code / pilotRamp)

/-! ### States (R445, R446) -/

/-- Enter a state: PILOT_STATE is raised (R451). -/
def enterPilot (n st : Nat) (f : Pilot → Pilot) (s : State) : State :=
  let now := s.clk.tally
  let s := s.updPilot n fun p => let q := f { p with state := st, since := now }
    { q with pin := pinOf q }
  raiseOwn 0x9001 .detect now (some (.pilot n)) st s

/-- ENABLE 1: soft-start from high impedance or from the r in force, in the range stored. -/
def pilotOn (n : Nat) (s : State) : State :=
  let p := s.pilotAt n
  let s := s.updPilot n fun p => { p with on := true }
  match p.state with
  | 0 => enterPilot n 1 (fun p => { p with r := 0, range := p.stored.getD p.range, stored := none }) s
  | 4 => enterPilot n 1 (fun p => { p with range := p.stored.getD p.range, stored := none }) s
  | 3 => s.updPilot n fun p => { p with stopping := false }
  | _ => s

/-- ENABLE 0. -/
def pilotOff (n : Nat) (s : State) : State :=
  let p := s.pilotAt n
  let s := s.updPilot n fun p => { p with on := false }
  match p.state with
  | 1 => enterPilot n 4 id s
  | 2 => enterPilot n 4 (fun p => { p with r := pilotRamp }) s
  | 3 => enterPilot n 0 id s
  | _ => s

/-- RANGE committed: stored in HIZ, a new window otherwise. A write of the range in force changes nothing. DEDUCED, log 36. -/
def pilotRange (n v : Nat) (stopped : Bool) (s : State) : State :=
  let p := s.pilotAt n
  if v = p.stored.getD p.range then s
  else if p.state = 0 || stopped then s.updPilot n fun p => { p with stored := some v }
  else
    enterPilot n 3 (fun q => { q with range := v, stored := none, stopping := p.state = 4 || (p.state = 3 && p.stopping) }) s

/-- The other parameters of R441. -/
def pilotSet (tag v : Nat) (p : Pilot) : Pilot :=
  match tag with
  | 0x103 => { p with source := v, k := 0 }
  | 0x104 => { p with hold := v }
  | 0x105 => { p with low := v, k := 0 }
  | 0x106 => { p with high := v, k := 0 }
  | 0x107 => { p with period := v, k := 0 }
  | 0x108 => { p with div := v, k := 0 }
  | 0x109 => { p with feed := v }
  | 0x10A => { p with winLo := v }
  | 0x10B => { p with winHi := v }
  | 0x10C => { p with winFrames := v }
  | _ => p

/-- Writes that take effect together (R446): ENABLE first, then RANGE, then the others. -/
def pilotTake (n : Nat) (ws : List (Nat × Nat)) (s : State) : State :=
  let en := (ws.find? fun w => w.1 == 0x101).map (·.2)
  let was := (s.pilotAt n).on
  let s := match en with
    | some 1 => if was then s else pilotOn n s
    | some _ => if was then pilotOff n s else s
    | none => s
  let s := match ws.find? fun w => w.1 == 0x102 with
    | some w => pilotRange n w.2 (was && en == some 0) s
    | none => s
  s.updPilot n fun p => ws.foldl (fun p w => pilotSet w.1 w.2 p) p

/-- The writes of one instant E, in the order they were committed. -/
def pilotDueAt (n e : Nat) (s : State) : State :=
  let p := s.pilotAt n
  let ws := (p.due.filter fun w => w.1 == e).map (·.2)
  let last := ws.reverse.foldl (fun l w => if l.any fun x => x.1 == w.1 then l else w :: l) ([] : List (Nat × Nat))
  pilotTake n last (s.updPilot n fun p => { p with due := p.due.filter fun w => !(w.1 == e) })

/-- Everything due by the tally, oldest instant first. -/
def pilotDue (n : Nat) (s : State) : State :=
  let now := s.clk.tally
  let es := (((s.pilotAt n).due.map (·.1)).filter fun e => decide (e ≤ now)).eraseDups
  es.foldl (fun s e => pilotDueAt n e s) s

/-- PILOT_PARAM_APPLY (R441). -/
def execPilotParamApply (n : Nat) (s : State) : Host.Outcome State Fault Refusal := .next (pilotDue n s)

/-- The window of RANGE_HIZ has ended (R445, R446). -/
def pilotHizEnd (n : Nat) (s : State) : State :=
  let p := s.pilotAt n
  if p.state = 3 && p.since + hizTicks ≤ s.clk.tally then
    if p.stopping then enterPilot n 0 (fun p => { p with stopping := false }) s
    else enterPilot n 1 (fun p => { p with r := 0 }) s
  else s

/-- RANGE_HIZ_END (R445). -/
def execRangeHizEnd (n : Nat) (s : State) : Host.Outcome State Fault Refusal := .next (pilotHizEnd n s)

/-- A commit at boundary `b` has written tags of a pilot channel: they take effect at E (R441). -/
def applyPilot (n b : Nat) (tags : List Nat) (s : State) : State :=
  let ws := tags.map fun t => (b + latchTicks, t, pN s (.pilot n) t)
  s.updPilot n fun p => { p with due := p.due ++ ws }

/-- The tags of R441 that are committed. -/
def pilotTags : List Nat := [0x101, 0x102, 0x103, 0x104, 0x105, 0x106, 0x107, 0x108, 0x109, 0x10A, 0x10B, 0x10C]

/-- An admission at `a` includes the channel (R442, R447): it is taken over from its state in force; a change of RANGE applies
at A, the rest at E; the noise is seeded. -/
def admitPilot (n a : Nat) (fresh : Bool) (s : State) : State :=
  let s := if fresh then s.updPilot n fun p => { p with lfsr := (Pilot.reset n).lfsr } else s
  let s := pilotRange n (pN s (.pilot n) 0x102) false s
  applyPilot n a (pilotTags.filter fun t => t != 0x102) s

/-- An admission leaves the channel out: it stops at E. DESIGN CHOICE (the spec names no effect), log 36. -/
def dropPilot (n a : Nat) (s : State) : State :=
  s.updPilot n fun p => { p with due := p.due ++ [(a + latchTicks, 0x101, 0)] }

/-! ### Samples (R442, R444, R445) -/

/-- The ramp moves one sample. -/
def pilotRampStep (n : Nat) (s : State) : State :=
  let p := s.pilotAt n
  if p.since = s.clk.tally then s
  else
    match p.state with
    | 1 =>
      if pilotRamp ≤ p.r + 1 then enterPilot n 2 (fun p => { p with r := pilotRamp, k := 0 }) s
      else s.updPilot n fun p => { p with r := p.r + 1 }
    | 4 =>
      if p.r ≤ 1 then enterPilot n 0 (fun p => { p with r := 0 }) s
      else s.updPilot n fun p => { p with r := p.r - 1 }
    | _ => s

/-- A Bell route may play to the channel (R444). -/
def pilotBellOpen (p : Pilot) : Bool := p.state == 1 || p.state == 2

/-- One sample boundary of a channel: `audio` is the sample of its FEED with this reference instant, `bell` the mix of a Bell
route that plays to it (R442, R444). -/
def pilotSample (n : Nat) (audio : Int) (bell : Option (Int → Int)) (s : State) : State :=
  let s := pilotHizEnd n (pilotDue n (pilotRampStep n s))
  let t := s.clk.tally
  s.updPilot n fun p =>
    let mix := if pilotBellOpen p then bell else none
    let p := if mix.isSome || (t / sampleTicks) % p.div = 0 then
        let c := sourceCode p audio
        let c := match mix with
          | some f => codeOfSample (f (sampleOfCode c))
          | none => c
        { p with code := c, k := p.k + 1, lfsr := noiseStep p.lfsr }
      else p
    { p with pin := pinOf p }

/-! ### Line supervision (R448) -/

/-- LINE of a frame, by the precedence of R448. -/
def lineOf (p : Pilot) (o : PilotObs) : Nat :=
  if decide (2 ≤ p.range) && o.overComp then 3
  else if decide (p.range < 2) && o.atLimit then 4
  else if o.sense < p.winLo then 1
  else if p.winHi < o.sense then 2
  else 0

/-- SENSE and LINE of a frame. -/
def pilotLine (n : Nat) (o : PilotObs) (s : State) : State :=
  let p := s.pilotAt n
  let sense := min o.sense 4095
  let item : List Item := [{ tag := 0x00D0, vals := [wd sense] }]
  let s := s.updPilot n fun p => { p with sense := sense }
  if p.state = 1 || p.state = 3 || p.state = 4 then s
  else
    let l := lineOf p { o with sense := sense }
    let fl := p.flags ||| (if l = 3 then 4 else 0) ||| (if l = 4 then 2 else 0)
    if l ≠ 0 then
      let bad := if l = p.line then min (p.bad + 1) 3001 else 1
      let s := s.updPilot n fun p => { p with line := l, flags := fl, bad := bad, good := 0, fault := p.fault || bad == p.winFrames }
      if bad = p.winFrames then raiseNode 0x9002 .detect s.clk.tally (some (.pilot n)) 0xF l item s else s
    else
      let good := min (p.good + 1) 3001
      let back := p.fault && good == p.winFrames
      let s := s.updPilot n fun p => { p with line := 0, flags := fl, bad := 0, good := good, fault := p.fault && !back }
      if back then raiseNode 0x9003 .detect s.clk.tally (some (.pilot n)) 0xF 0 item s else s

/-! ### Element calibration (R449, R450) -/

/-- One frame of calibration: the element under test gets its trim. After an element is retired the comparison goes on in
turn without the spare. DEDUCED, log 37. -/
def pilotCal (n : Nat) (trim : Int) (s : State) : State :=
  let p := s.pilotAt n
  let e := p.elem
  let held := max (-128) (min 128 trim)
  let next (p : Pilot) : Pilot :=
    let trims := p.trims.set e held
    { p with trims := trims, elem := (e + 1) % 64,
             matchMax := if e = 63 then maxNat (trims.map Int.natAbs) else p.matchMax }
  if p.dead = some e then s.updPilot n fun p => { next p with trims := p.trims }
  else if trim.natAbs ≤ 128 then s.updPilot n next
  else if p.dead.isNone then
    let s := s.updPilot n fun p => { next p with dead := some e, retired := p.retired + 1, flags := p.flags ||| 1 }
    raiseOwn 0x9004 .detect s.clk.tally (some (.pilot n)) e s
  else if p.degraded.contains e then s.updPilot n next
  else
    let s := s.updPilot n fun p => { next p with degraded := e :: p.degraded }
    raiseOwn 0x9005 .detect s.clk.tally (some (.pilot n)) e s

/-- A frame boundary of a channel with the ANALOG domain on (bit 11). -/
def pilotFrame (o : PilotObs) (s : State) : State :=
  if o.ch < 4 && bitOf s.boot.domains 11 then pilotCal o.ch o.trim (pilotLine o.ch o s) else s

/-- A channel goes to HIZ at once. -/
def pilotHiz (n : Nat) (s : State) : State :=
  let s := s.updPilot n fun p => { p with on := false, stopping := false, due := [] }
  if (s.pilotAt n).state = 0 then s else enterPilot n 0 (fun p => { p with r := 0 }) s

/-- The ANALOG domain is switched off: HIZ at once (R446). -/
def pilotsOff (s : State) : State := (List.range 4).foldl (fun s n => pilotHiz n s) s

/-- A channel that a Bell route names and no admission has configured is enabled (R447). -/
def bellEnablePilot (n range : Nat) (s : State) : State :=
  pilotOn n (s.updPilot n fun p => { p with range := range, stored := none, source := 0, hold := 32768, code := 32768 })

/-! ### Registers and values (R441) -/

/-- PILn_STATUS. -/
def pilotStatus (p : Pilot) : Word :=
  wd (p.sense * 65536 + b2n (bitOf p.flags 2) * 2048 + b2n (bitOf p.flags 1) * 1024 + b2n (bitOf p.flags 0) * 512 +
    p.range * 16 + p.state)

/-- Read-only values of a channel. -/
def roPilot (s : State) (n tag : Nat) : List Word :=
  let p := s.pilotAt n
  match tag with
  | 0x180 => w1 p.state
  | 0x181 => w1 p.code
  | 0x182 => w1 p.sense
  | 0x183 => w1 p.line
  | 0x184 => w1 p.matchMax
  | 0x185 => w1 p.retired
  | _ => []

end Sys2Proof.Machine
end

