-- ==== Sys2Proof/Machine/Tree.lean ====
section
/-! DEFINITION. The tree: paths (R65, R66, R571 to R573), handles (R67 to R73), attributes (R74), values (R75 to R77), exports
(R84, R85), and the opcodes PING, LOOKUP, RELEASE, QUERY and READ. -/

namespace Sys2Proof.Machine

/-! ### Segments -/

/-- The decimal digits of a number, at least `w` of them. -/
def digits : Nat → Nat → List Nat
  | 0, n => if n = 0 then [] else (Nat.toDigits 10 n).map Char.toNat
  | w + 1, n => digits w (n / 10) ++ [48 + n % 10]

/-- Decimal without leading zeros. -/
def decimal (n : Nat) : List Nat := (Nat.toDigits 10 n).map Char.toNat

def isDigit (c : Nat) : Bool := decide (48 ≤ c) && decide (c ≤ 57)
def isLetter (c : Nat) : Bool := decide (97 ≤ c) && decide (c ≤ 122)
def isSegChar (c : Nat) : Bool := isDigit c || isLetter c || c == 95

/-- The value of digits. -/
def digitsVal (l : List Nat) : Nat := l.foldl (fun a c => 10 * a + (c - 48)) 0

/-- The value of an index segment of `w` digits from `lo` to below `hi` (R65). -/
def idxSeg (w lo hi : Nat) (seg : Name) : Option Nat :=
  let v := digitsVal seg
  if seg.all isDigit && seg.length == w && decide (lo ≤ v) && decide (v < hi) then some v else none

/-- A name segment of R65. -/
def nameSeg (seg : Name) : Bool :=
  decide (seg.length ≤ 31) && seg.all isSegChar && (seg.head?.map isLetter).getD false

/-! ### Paths of nodes -/

def className (k : Nat) : Name := [nm "alarm", nm "voice", nm "media", nm "bulk"].getD k []

/-- The absolute path of a node, as segments (R66 and the chapters). -/
def pathOf : Node → List Name
  | .hub => [nm "hw", nm "hub"]
  | .wheel w => [nm "hw", nm "wheel", digits 1 w]
  | .spoke w s => [nm "hw", nm "wheel", digits 1 w, nm "spoke", digits 2 s]
  | .layout => [nm "layout"]
  | .car n => [nm "layout", nm "car", digits 2 n]
  | .zone n => [nm "zone", digits 3 n]
  | .object n => [nm "object", digits 4 n]
  | .feed n => [nm "feed", digits 4 n]
  | .align n => [nm "feed", digits 4 n, nm "align"]
  | .corr n => [nm "feed", digits 4 n, nm "corr"]
  | .bank n b => [nm "feed", digits 4 n, nm "corr", if b = 0 then nm "a" else nm "b"]
  | .eq n => [nm "feed", digits 4 n, nm "eq"]
  | .limit n => [nm "feed", digits 4 n, nm "limit"]
  | .till => [nm "feed", nm "till"]
  | .channel n => [nm "channel", digits 3 n]
  | .bus n => [nm "bus", digits 2 n]
  | .scene => [nm "scene"]
  | .sceneChip n => [nm "scene", nm "chip", digits 2 n]
  | .sceneLib n => [nm "scene", nm "lib", digits 4 n]
  | .cls k => [nm "class", className k]
  | .config => [nm "config"]
  | .slot n => [nm "config", digits 1 n]
  | .bell => [nm "bell"]
  | .bellMsg n => [nm "bell", nm "msg", digits 2 n]
  | .bellTrig n => [nm "bell", nm "trig", digits 1 n]
  | .bellRoute n => [nm "bell", nm "route", digits 2 n]
  | .stage x => [nm "stage", x]
  | .sai n => [nm "port", nm "sai", digits 2 n]
  | .aesi n => [nm "port", nm "aesi", digits 1 n]
  | .aeso n => [nm "port", nm "aeso", digits 1 n]
  | .pdm n => [nm "port", nm "pdm", digits 2 n]
  | .gear => [nm "gear"]
  | .gearSai n => [nm "gear", nm "sai", digits 2 n]
  | .gearAesi n => [nm "gear", nm "aesi", digits 1 n]
  | .gearPdm n => [nm "gear", nm "pdm", digits 2 n]
  | .net n => [nm "net", digits 1 n]
  | .gate n => [nm "net", digits 1 n, nm "gate"]
  | .ptp n => [nm "net", digits 1 n, nm "ptp"]
  | .tx n k => [nm "net", digits 1 n, nm "tx", digits 3 k]
  | .rx n k => [nm "net", digits 1 n, nm "rx", digits 3 k]
  | .pilot n => [nm "pilot", digits 1 n]
  | .tandem p => nm "tandem" :: p
  | .inst p => nm "tandem" :: p
  | .ring e => [nm "event", nm "ring", digits 1 e]
  | .ledgerEvent => [nm "ledger", nm "event"]
  | .ledgerMargin => [nm "ledger", nm "margin"]

/-- The members of `/feed/NNNN`. -/
def feedMember (f : Nat) : List Name → Option Node
  | [] => some (.feed f)
  | [a] =>
    if a == nm "align" then some (.align f) else if a == nm "corr" then some (.corr f)
    else if a == nm "eq" then some (.eq f) else if a == nm "limit" then some (.limit f) else none
  | [a, b] => if a == nm "corr" then (if b == nm "a" then some (.bank f 0) else if b == nm "b" then some (.bank f 1) else none) else none
  | _ => none

/-- The nodes of `/net/N`. -/
def netMember (n : Nat) : List Name → Option Node
  | [] => some (.net n)
  | [a] => if a == nm "gate" then some (.gate n) else if a == nm "ptp" then some (.ptp n) else none
  | [a, b] =>
    if a == nm "tx" then (idxSeg 3 0 128 b).map (.tx n) else if a == nm "rx" then (idxSeg 3 0 128 b).map (.rx n) else none
  | _ => none

/-- A grouping segment with an index below it. -/
def group2 (a b : Name) (l : List (String × Nat × Nat × Nat × (Nat → Node))) : Option Node :=
  l.findSome? fun e => if a == nm e.1 then (idxSeg e.2.1 e.2.2.1 e.2.2.2.1 b).map e.2.2.2.2 else none

/-- The node a path could name, whether or not it exists. A path below `/tandem` names an instance where the configuration has
a stage there, and a tandem otherwise. -/
def nodeAtPath (c : Cfg) : List Name → Option Node
  | [] => none
  | r :: rest =>
    if r == nm "hw" then
      match rest with
      | [h] => if h == nm "hub" then some .hub else none
      | [w, i] => if w == nm "wheel" then (idxSeg 1 0 4 i).map .wheel else none
      | [w, i, sp, k] =>
        if w == nm "wheel" && sp == nm "spoke" then (idxSeg 1 0 4 i).bind fun w => (idxSeg 2 0 10 k).map (.spoke w) else none
      | _ => none
    else if r == nm "layout" then
      match rest with
      | [] => some .layout
      | [a, b] => if a == nm "car" then (idxSeg 2 1 33 b).map .car else none
      | _ => none
    else if r == nm "feed" then
      match rest with
      | [] => none
      | i :: m => if i == nm "till" then (if m.isEmpty then some .till else none) else (idxSeg 4 0 1024 i).bind fun f => feedMember f m
    else if r == nm "scene" then
      match rest with
      | [] => some .scene
      | [a, b] => group2 a b [("chip", 2, 0, 64, .sceneChip), ("lib", 4, 0, 1024, .sceneLib)]
      | _ => none
    else if r == nm "config" then
      match rest with
      | [] => some .config
      | [a] => (idxSeg 1 0 4 a).map .slot
      | _ => none
    else if r == nm "bell" then
      match rest with
      | [] => some .bell
      | [a, b] => group2 a b [("msg", 2, 0, 64, .bellMsg), ("trig", 1, 0, 4, .bellTrig), ("route", 2, 0, 64, .bellRoute)]
      | _ => none
    else if r == nm "port" then
      match rest with
      | [a, b] => group2 a b [("sai", 2, 0, 16, .sai), ("aesi", 1, 0, 4, .aesi), ("aeso", 1, 0, 4, .aeso), ("pdm", 2, 0, 16, .pdm)]
      | _ => none
    else if r == nm "gear" then
      match rest with
      | [] => some .gear
      | [a, b] => group2 a b [("sai", 2, 0, 16, .gearSai), ("aesi", 1, 0, 4, .gearAesi), ("pdm", 2, 0, 16, .gearPdm)]
      | _ => none
    else if r == nm "net" then
      match rest with
      | [] => none
      | i :: m => (idxSeg 1 0 4 i).bind fun n => netMember n m
    else if r == nm "tandem" then
      if rest.isEmpty then none
      else if (stageIn c rest).isSome then some (.inst rest) else some (.tandem rest)
    else if r == nm "event" then
      match rest with
      | [a, b] => group2 a b [("ring", 1, 0, 8, .ring)]
      | _ => none
    else if r == nm "ledger" then
      match rest with
      | [a] => if a == nm "event" then some .ledgerEvent else if a == nm "margin" then some .ledgerMargin else none
      | _ => none
    else if r == nm "class" then
      match rest with
      | [a] => ((List.range 4).find? fun k => className k == a).map .cls
      | _ => none
    else if r == nm "stage" then
      match rest with
      | [a] => some (.stage a)
      | _ => none
    else
      match rest with
      | [a] => group2 r a [("zone", 3, 0, 256, .zone), ("object", 4, 0, 768, .object), ("channel", 3, 0, 512, .channel),
          ("bus", 2, 0, 96, .bus), ("pilot", 1, 0, 4, .pilot)]
      | _ => none

/-! ### Which nodes exist -/

/-- A node of the tree (R66, R68, R342; log 41). -/
def nodeExists (s : State) : Node → Bool
  | .hub => true
  | .wheel _ => true
  | .spoke _ _ => true
  | .till => true
  | .scene => true
  | .sceneChip _ => true
  | .sceneLib _ => true
  | .cls _ => true
  | .config => true
  | .slot _ => true
  | .bell => true
  | .bellMsg _ => true
  | .bellTrig _ => true
  | .bellRoute _ => true
  | .gear => true
  | .ring _ => true
  | .ledgerEvent => true
  | .ledgerMargin => true
  | .car n => admitted s (.car n) && decide (n ≤ pN s .layout 0x103)
  | .align f => admitted s (.feed f)
  | .corr f => admitted s (.feed f)
  | .bank f _ => admitted s (.feed f)
  | .eq f => admitted s (.feed f)
  | .limit f => admitted s (.feed f)
  | .gearSai n => admitted s (.sai n) && pN s (.sai n) 0x102 != 0
  | .gearAesi n => admitted s (.aesi n) && pN s (.aesi n) 0x102 != 0
  | .gearPdm n => admitted s (.pdm n)
  | .gate n => admitted s (.net n)
  | .ptp n => admitted s (.net n)
  | .tandem p => s.adm.cfg.tandems.any fun t => t.path == p
  | .inst p => (stageIn s.adm.cfg p).isSome
  | n => admitted s n

/-- The nodes a declared node brings with it. -/
def membersOf (n : Node) : List Node :=
  match n with
  | .feed f => [.feed f, .align f, .corr f, .bank f 0, .bank f 1, .eq f, .limit f]
  | .sai n => [.sai n, .gearSai n]
  | .aesi n => [.aesi n, .gearAesi n]
  | .pdm n => [.pdm n, .gearPdm n]
  | .net n => [.net n, .gate n, .ptp n]
  | k => [k]

/-- The nodes that exist in every configuration. -/
def standing : List Node :=
  [.hub, .till, .scene, .config, .bell, .gear, .ledgerEvent, .ledgerMargin] ++
    (List.range 4).flatMap (fun w => Node.wheel w :: (List.range 10).map (Node.spoke w)) ++
    (List.range 4).map Node.cls ++ (List.range 4).map Node.slot ++ (List.range 64).map Node.sceneChip ++
    (List.range 1024).map Node.sceneLib ++ (List.range 64).map Node.bellMsg ++ (List.range 4).map Node.bellTrig ++
    (List.range 64).map Node.bellRoute ++ (List.range 8).map Node.ring

/-- Every node of the tree but the parameters. -/
def allNodes (s : State) : List Node :=
  standing ++ ((s.adm.cfg.nodes.flatMap fun r => membersOf r.node).filter fun n =>
    nodeExists s n && !(match n with
      | .till => true
      | .cls _ => true
      | _ => false) && !(n matches .bellTrig _) && !(n matches .bellRoute _)) ++
    s.adm.cfg.tandems.map (fun t => Node.tandem t.path) ++ (instPaths s.adm.cfg).map Node.inst

/-! ### Exports (R84, R85) -/

def tandemAt (s : State) (p : List Name) : Option Tandem := s.adm.cfg.tandems.find? fun t => t.path == p

/-- The parameter an export tag reaches, through exports of member tandems. -/
def exportTarget (s : State) : Nat → List Name → Nat → Option (Node × Nat)
  | 0, _, _ => none
  | k + 1, p, tag =>
    match (tandemAt s p).bind fun t => t.exports[tag - 0x8000]? with
    | none => none
    | some (_, n, t) =>
      match n with
      | .tandem q => if 0x8000 ≤ t then exportTarget s k q t else some (n, t)
      | _ => some (n, t)

/-- The parameter a tag of a node reaches: its own, or an export's target. -/
def reach (s : State) (n : Node) (tag : Nat) : Option (Node × Nat) :=
  match n with
  | .tandem p => if 0x8000 ≤ tag then exportTarget s 9 p tag else some (n, tag)
  | _ => some (n, tag)

/-! ### Parameters of existing nodes -/

/-- Range and default of P `k` of an instance (R305, R308). -/
def specsP (s : State) (p : List Name) : List PSpec :=
  let ws := instImage s p
  (List.range (imageHdr ws).params).map fun k =>
    let d := imageParam ws k
    { (escN "p" (0x200 + k) 1 [sIn d.1.toInt d.2.1.toInt] [d.2.2]) with indexed := true }

/-- The parameters of a node. -/
def nodeSpecs (s : State) (n : Node) : List PSpec :=
  match n with
  | .inst p => (specsInst.filter fun q => q.lo != 0x200) ++ specsP s p
  | k => specs k

/-- The parameter that a tag names. -/
def specAt (s : State) (n : Node) (tag : Nat) : Option PSpec := (nodeSpecs s n).find? fun p => p.has tag

/-- The index of an indexed parameter: it counts from 0, and the parameters of an instance each from their tag. -/
def specIndex (p : PSpec) (tag : Nat) : Nat := if p.name == "p" then tag - 0x200 else tag - p.lo

/-- The name segment of a parameter (R572). -/
def paramName (s : State) (n : Node) (tag : Nat) : Name :=
  match n with
  | .tandem p =>
    if 0x8000 ≤ tag then (((tandemAt s p).bind fun t => t.exports[tag - 0x8000]?).map (·.1)).getD [] else nm "bypass"
  | _ =>
    match specAt s n tag with
    | none => []
    | some p => if p.indexed then nm p.name ++ [95] ++ decimal (specIndex p tag) else nm p.name

/-- The tags of a parameter. -/
def PSpec.tags (p : PSpec) : List Nat := (List.range p.count).map (p.lo + ·)

/-- The tags of a node's parameters, ascending; a tandem's exports last. -/
def nodeTags (s : State) (n : Node) : List Nat :=
  (nodeSpecs s n).flatMap PSpec.tags ++
    (match n with
    | .tandem p => (List.range (((tandemAt s p).map fun t => t.exports.length).getD 0)).map (0x8000 + ·)
    | _ => [])

/-- The tag whose parameter has a name segment. -/
def tagOfName (s : State) (n : Node) (seg : Name) : Option Nat := (nodeTags s n).find? fun t => paramName s n t == seg

/-- The node or parameter node that segments name (R571, R572). -/
def resolve (s : State) (segs : List Name) : Option Ref :=
  match (nodeAtPath s.adm.cfg segs).filter (nodeExists s) with
  | some n => some { node := n, tag := none }
  | none =>
    match (nodeAtPath s.adm.cfg segs.dropLast).filter (nodeExists s), segs.getLast? with
    | some n, some l => (tagOfName s n l).map fun t => { node := n, tag := some t }
    | _, _ => none

/-- The path of a node or parameter node. -/
def refPath (s : State) (r : Ref) : List Name :=
  match r.tag with
  | none => pathOf r.node
  | some t => pathOf r.node ++ [paramName s r.node t]

/-- The text of a path. -/
def pathText (segs : List Name) : List Nat := segs.flatMap fun x => 47 :: x

/-! ### Path grammar (R65, R66, R573) -/

/-- What a position of a path requires. -/
inductive Expect where
  | root | name | idx (w lo hi : Nat) | mixed (names : List String) (w lo hi : Nat)
deriving DecidableEq, Repr

def rootNames : List String :=
  ["hw", "layout", "zone", "object", "feed", "channel", "bus", "scene", "class", "config", "bell", "stage", "port", "gear",
    "net", "pilot", "tandem", "event", "ledger"]

/-- What the segment after these requires (the table of R66 and the chapters). -/
def expectAt (pre : List Name) : Expect :=
  let is (x : Name) (n : String) : Bool := x == nm n
  match pre with
  | [] => .root
  | [a] =>
    if is a "zone" then .idx 3 0 256 else if is a "object" then .idx 4 0 768
    else if is a "feed" then .mixed ["till"] 4 0 1024 else if is a "channel" then .idx 3 0 512
    else if is a "bus" then .idx 2 0 96 else if is a "net" then .idx 1 0 4 else if is a "pilot" then .idx 1 0 4
    else if is a "config" then .mixed ["active", "admitted_at", "pending_at"] 1 0 4 else .name
  | [a, b] =>
    let g (x y : String) : Bool := is a x && is b y
    if g "hw" "wheel" then .idx 1 0 4 else if g "layout" "car" then .idx 2 1 33
    else if g "scene" "chip" then .idx 2 0 64 else if g "scene" "lib" then .idx 4 0 1024
    else if g "bell" "msg" then .idx 2 0 64 else if g "bell" "trig" then .idx 1 0 4
    else if g "bell" "route" then .idx 2 0 64
    else if g "port" "sai" || g "port" "pdm" || g "gear" "sai" || g "gear" "pdm" then .idx 2 0 16
    else if g "port" "aesi" || g "port" "aeso" || g "gear" "aesi" then .idx 1 0 4
    else if g "event" "ring" then .idx 1 0 8 else .name
  | [a, _, c] => if is a "net" && (is c "tx" || is c "rx") then .idx 3 0 128 else .name
  | [a, b, _, d] => if is a "hw" && is b "wheel" && is d "spoke" then .idx 2 0 10 else .name
  | _ => .name

/-- A segment meets what its position requires. -/
def meets : Expect → Name → Bool
  | .root, x => rootNames.any fun r => nm r == x
  | .name, x => (x.head?.map isLetter).getD true
  | .idx w lo hi, x => (idxSeg w lo hi x).isSome
  | .mixed ns w lo hi, x => ns.any (fun r => nm r == x) || (idxSeg w lo hi x).isSome

/-- Segments of a text with the position of their first character; `pos` is the position of the next character. -/
def splitSegs : Nat → Nat → Name → List Nat → List (Nat × Name)
  | _, start, cur, [] => [(start, cur)]
  | pos, start, cur, c :: r => if c = 47 then (start, cur) :: splitSegs (pos + 1) (pos + 1) [] r else splitSegs (pos + 1) start (cur ++ [c]) r

/-- The segments of a path text: an absolute path's from position 2. -/
def textSegs (txt : List Nat) : List (Nat × Name) :=
  match txt with
  | 47 :: r => splitSegs 2 2 [] r
  | t => splitSegs 1 1 [] t

/-- Positions of characters that R65 refuses, and of the "/" that leave a segment empty. -/
def charBreaches : Nat → Bool → List Nat → List Nat
  | _, _, [] => []
  | pos, _, [c] => if c = 47 then [pos] else if isSegChar c then [] else [pos]
  | pos, prev, c :: r =>
    (if c = 47 then (if prev then [pos] else []) else if isSegChar c then [] else [pos]) ++ charBreaches (pos + 1) (c == 47) r

/-- Positions that the segments name, after the segments before them. -/
def segBreaches : List Name → List (Nat × Name) → List Nat
  | _, [] => []
  | pre, (p, x) :: r =>
    (if 31 < x.length then [p + 31] else []) ++ (if x.isEmpty || meets (expectAt pre) x then [] else [p]) ++
      segBreaches (pre ++ [x]) r

/-- A path text is absolute. -/
def isAbs (txt : List Nat) : Bool := txt.head? == some 47

/-- DETAIL of BAD_PATH for a path that breaks a rule: the smallest position named (R573). -/
def pathBreach (base : List Name) (txt : List Nat) : Option Nat :=
  let bs := (if txt.isEmpty then [1] else []) ++ charBreaches 1 false txt ++
    (if txt.isEmpty then [] else segBreaches (if isAbs txt then [] else base) (textSegs txt)) ++
    (if 63 < txt.length then [64] else [])
  match bs with
  | [] => none
  | b :: r => some (r.foldl min b)

/-- Segments are the leading segments of a node's path. -/
def leads (s : State) (segs : List Name) : Bool :=
  (resolve s segs).isSome || (allNodes s).any fun n => segs.isPrefixOf (pathOf n)

/-- DETAIL of BAD_PATH for a path that names no node (R573). -/
def noNode (s : State) (pre : List Name) : List (Nat × Name) → Nat
  | [] => 1
  | [(p, _)] => p
  | (p, x) :: r => if leads s (pre ++ [x]) then noNode s (pre ++ [x]) r else p

/-- The node that a path text names from a base, or the DETAIL of BAD_PATH. -/
def findPath (s : State) (base : List Name) (txt : List Nat) : Except Nat Ref :=
  match pathBreach base txt with
  | some d => .error d
  | none =>
    let pre := if isAbs txt then [] else base
    let segs := textSegs txt
    match resolve s (pre ++ segs.map (·.2)) with
    | some r => .ok r
    | none => .error (noNode s pre segs)

/-! ### Parents and children (R74, R571) -/

/-- The nearest node at these segments or above them. -/
def nearestNode (s : State) : Nat → List Name → Option Node
  | 0, _ => none
  | k + 1, segs =>
    match (nodeAtPath s.adm.cfg segs).filter (nodeExists s) with
    | some n => some n
    | none => nearestNode s k segs.dropLast

/-- The parent of a node or parameter node. -/
def parentOf (s : State) (r : Ref) : Option Node :=
  match r.tag with
  | some _ => some r.node
  | none => nearestNode s 40 (pathOf r.node).dropLast

def childCount (s : State) (n : Node) : Nat :=
  ((allNodes s).filter fun x => parentOf s { node := x, tag := none } == some n).length

/-! ### Attributes (R74) -/

/-- A node that processes audio; the nodes of `/bell` have no BYPASS and are not counted. DESIGN CHOICE, log 42. -/
def isAudio : Node → Bool
  | .object _ => true
  | .feed _ => true
  | .align _ => true
  | .corr _ => true
  | .eq _ => true
  | .limit _ => true
  | .channel _ => true
  | .bus _ => true
  | .tandem _ => true
  | .inst _ => true
  | .sai _ => true
  | .aesi _ => true
  | .aeso _ => true
  | .pdm _ => true
  | .gearSai _ => true
  | .gearAesi _ => true
  | .gearPdm _ => true
  | .net _ => true
  | .gate _ => true
  | .ptp _ => true
  | .tx _ _ => true
  | .rx _ _ => true
  | .pilot _ => true
  | _ => false

/-- Type codes (R571 and the chapters). -/
def typeCode : Node → Nat
  | .hub => 0x10
  | .wheel _ => 0x11
  | .spoke _ _ => 0x12
  | .ring _ => 0x20
  | .tandem _ => 0x30
  | .layout => 0x40
  | .car _ => 0x41
  | .zone _ => 0x42
  | .object _ => 0x43
  | .feed _ => 0x50
  | .align _ => 0x51
  | .corr _ => 0x52
  | .bank _ _ => 0x53
  | .eq _ => 0x54
  | .limit _ => 0x55
  | .till => 0x56
  | .channel _ => 0x60
  | .bus _ => 0x61
  | .scene => 0x62
  | .sceneChip _ => 0x63
  | .sceneLib _ => 0x63
  | .cls _ => 0x70
  | .config => 0x71
  | .slot _ => 0x72
  | .bell => 0x73
  | .bellMsg _ => 0x74
  | .bellTrig _ => 0x75
  | .bellRoute _ => 0x76
  | .stage _ => 0x80
  | .inst _ => 0x81
  | .sai _ => 0x90
  | .aesi _ => 0x91
  | .aeso _ => 0x92
  | .pdm _ => 0x93
  | .gear => 0xA0
  | .gearSai _ => 0xA1
  | .gearAesi _ => 0xA1
  | .gearPdm _ => 0xA2
  | .net _ => 0xB0
  | .gate _ => 0xB1
  | .ptp _ => 0xB2
  | .tx _ _ => 0xB3
  | .rx _ _ => 0xB4
  | .pilot _ => 0xD0
  | .ledgerEvent => 0xE0
  | .ledgerMargin => 0xE1

/-- Instances below a tandem. -/
def instsBelow (s : State) (p : List Name) : List (List Name) := (instPaths s.adm.cfg).filter fun q => p.isPrefixOf q

/-- CYCLES of R171 for a feed, C at its largest phase for no other node. -/
def cyclesItem (s : State) (n : Node) : Nat :=
  match n with
  | .feed f => copiesOf s n * feedCyclesMean (pN s (.feed f) 0x104)
  | .tandem p => sumNat ((instsBelow s p).map fun q => copiesOf s (.inst q) * cycAt s 0 0 (.inst q)) + (Config.tandemMove p).1
  | .object o => copiesOf s n * objCycles (pN s (.object o) 0x11C) s.render.period
  | k => copiesOf s k * cycAt s 0 0 k

def hubItem (s : State) (n : Node) : Nat :=
  match n with
  | .tandem p => sumNat ((instsBelow s p).map fun q => copiesOf s (.inst q) * hubOf s (.inst q)) + (Config.tandemMove p).2.1
  | k => copiesOf s k * hubOf s k

def dramItem (s : State) (n : Node) : Nat :=
  match n with
  | .tandem p => sumNat ((instsBelow s p).map fun q => copiesOf s (.inst q) * dramOf s 0 (.inst q)) + (Config.tandemMove p).2.2
  | k => copiesOf s k * dramOf s 0 k

/-- Nesting depth of a tandem (R79). -/
def depthOf (c : Cfg) : Nat → List Name → Nat
  | 0, _ => 0
  | k + 1, p =>
    match c.tandems.find? fun t => t.path == p with
    | none => 0
    | some t => 1 + maxNat ((t.members.filter fun m => m.stage.isNone).map fun m => depthOf c k (p ++ [m.name]))

/-- Latency from the inputs of a tandem to the output of each member, in member order, by rounds: a member adds its own latency
to the largest of its sources (R81). -/
def latRound (own : Nat → Nat) (t : Tandem) (now : List Nat) : List Nat :=
  (List.range t.members.length).map fun i =>
    own i + maxNat ((t.wires.filter fun w => w.snk == i).map fun w => if w.src = 255 then 0 else now.getD w.src 0)

/-- LATENCY of an instance or tandem (R81, R308). -/
def latOf (s : State) : Nat → List Name → Nat
  | 0, _ => 0
  | k + 1, p =>
    match tandemAt s p with
    | none => (imageHdr (instImage s p)).latency
    | some t =>
      let own (i : Nat) : Nat := ((t.members[i]?).map fun m => latOf s k (p ++ [m.name])).getD 0
      let ends := (List.range t.members.length).foldl (fun now _ => latRound own t now) (List.replicate t.members.length 0)
      maxNat ((t.wires.filter fun w => w.snk == 255).map fun w => if w.src = 255 then 0 else ends.getD w.src 0)

/-- LATENCY of a node (R126, R160, R197, R313). -/
def latencyItem (s : State) (n : Node) : Nat :=
  match n with
  | .feed f => pN s (.align f) 0x101
  | .align f => pN s (.align f) 0x101
  | .channel c => pN s (.channel c) 0x141
  | .tandem p => latOf s 9 p
  | .inst p => latOf s 9 p
  | _ => 0

/-- PORTS: inputs, outputs (R125, R313). Where no chapter gives them: one input and one output of a strip or feed, the channels
of a gear node, a stream or a pilot channel on the side it has them. DESIGN CHOICE, log 42. -/
def portsItem (s : State) (n : Node) : Nat × Nat :=
  match n with
  | .object _ => (1, pN s n 0x11C)
  | .sai k => let x := ((s.saiAt k).map SaiPort.slots).getD 0; (x, if pN s n 0x102 = 0 then x else 0)
  | .aesi _ => (2, 0)
  | .aeso _ => (0, 2)
  | .pdm _ => (1, 0)
  | .gearSai k => let x := ((s.saiAt k).map SaiPort.slots).getD 0; (x, x)
  | .gearAesi _ => (2, 2)
  | .gearPdm _ => (1, 1)
  | .tandem p => ((tandemAt s p).map fun t => (t.inputs, t.outputs)).getD (0, 0)
  | .inst p => let h := imageHdr (instImage s p); (h.inputs, h.outputs)
  | .net _ => (0, 0)
  | .gate _ => (0, 0)
  | .ptp _ => (0, 0)
  | .tx _ _ => (pN s n 0x107, 0)
  | .rx _ _ => (0, pN s n 0x107)
  | .pilot _ => (1, 0)
  | _ => (1, 1)

/-! ### Read-only values -/

/-- The body of a configuration slot: none while a part below COUNT has never been written (R242). -/
def slotParts (s : State) (n : Nat) : List (Option (List Word)) :=
  (List.range (pN s (.slot n) 0x101)).map fun i => findVal s.vals (.slot n) (0x1000 + i)

def slotBody (s : State) (n : Nat) : Option (List Word) :=
  if (slotParts s n).all Option.isSome then some ((slotParts s n).flatMap fun x => x.getD []) else none

/-- HEALTH of a spoke (R508, R509). -/
def spokeHealth (s : State) (sp : Nat) : Nat :=
  if ((s.spokeAt sp).map fun x => x.role == 3).getD false then 2
  else if s.fault.charges.any fun c => c.1 == sp then 1 else 0

/-- ROLE of a spoke. -/
def spokeRole (s : State) (sp : Nat) : Nat := ((s.spokeAt sp).map SpokeSt.role).getD 4

/-- Spokes below a status object. -/
def spokesOf : Node → List Nat
  | .hub => List.range 40
  | .wheel w => (List.range 10).map (10 * w + ·)
  | .spoke w k => [10 * w + k]
  | _ => []

def minInt : List Int → Int
  | [] => 0
  | a :: r => r.foldl min a

/-- The fields of R6, aggregated over the members. -/
def roHw (s : State) (n : Node) (tag : Nat) : List Word :=
  let sps := spokesOf n
  let sum (f : Nat → Nat) : List Word := w1 (sumNat (sps.map f))
  let st (f : SpokeSt → Nat) (sp : Nat) : Nat := ((s.spokeAt sp).map f).getD 0
  if tag = 0x180 then w1 sps.length
  else if tag = 0x181 then w1 (maxNat (sps.map (spokeHealth s)))
  else if tag = 0x182 then w1 (((sps.map (spokeRole s)).foldl min 4))
  else if tag = 0x183 then sum fun sp => b2n (spokeRole s sp == 0)
  else if tag = 0x184 then sum fun sp => maxNat ((List.range 64).map (spokeLoad s s.ladder.pos s.adm.place sp))
  else if tag = 0x185 then w1 (maxNat (sps.map (st SpokeSt.peak)))
  else if tag = 0x186 then sum (st SpokeSt.overruns)
  else if tag = 0x187 then sum (st SpokeSt.auditFails)
  else if tag = 0x188 then [wi s.plan.last.tempMax]
  else [wi (minInt (sps.map fun sp => s.plan.last.slack.getD sp 0))]

/-- Charges of the purses, armed commits included (R238). -/
def roClass (s0 : State) (k tag : Nat) : List Word :=
  let s := withArmed s0
  if tag = 0x180 then w1 (classPeak s s.ladder.pos k)
  else if tag = 0x181 then w1 (classHub s k)
  else if tag = 0x182 then w1 (classDram s s.ladder.pos k)
  else (List.range 4).map fun n => wd (gateUsed s k n)

def sceneRec (s : State) (n : Node) : Option Scene := s.fw.scenes.find? fun x => x.node == n

/-- WORDS of a scene. -/
def Scene.words (x : Scene) : Nat := sumNat (x.writes.map fun w => w.vals.length)

def roScene (s : State) (n : Node) (tag : Nat) : List Word :=
  match n with
  | .scene =>
    let h (x : Option Node) : List Word := [(x.map fun k => handleOf s { node := k, tag := none }).getD 0#32]
    if tag = 0x180 then w1 (b2n s.sceneRun.running.isSome)
    else if tag = 0x181 then h (s.sceneRun.running.map fun r => r.1.scene)
    else if tag = 0x182 then h (s.sceneRun.pending.map SceneReq.scene)
    else if tag = 0x183 then w1 s.sceneRun.replaced
    else words64 ((s.sceneRun.running.map (·.2)).getD 0)
  | k =>
    match sceneRec s k with
    | none => if tag = 0x184 then [0#32, 0#32] else w1 0
    | some x =>
      if tag = 0x180 then w1 x.state
      else if tag = 0x181 then w1 x.words
      else if tag = 0x182 then w1 (b2n x.alarm)
      else if tag = 0x183 then w1 x.xfade
      else if tag = 0x184 then words64 x.storedAt
      else [crc32Words (x.writes.flatMap Write.vals)]

def roInst (s : State) (p : List Name) (tag : Nat) : List Word :=
  match s.instAt p with
  | none => w1 (if tag = 0x180 then 0xFFFF else 0)
  | some x =>
    if tag = 0x180 then
      w1 (match s.adm.place.find? fun e => e.1 == Node.inst p with
        | some (_, a, b) => a + 256 * b.getD 0xFF
        | none => 0xFFFF)
    else if tag = 0x181 then w1 x.faults
    else if tag = 0x182 then w1 x.code
    else if tag = 0x183 then w1 (b2n x.faulted)
    else if tag = 0x184 then w1 x.ovFrames
    else w1 x.peak

def roOther (s : State) (n : Node) (tag : Nat) : List Word :=
  match n with
  | .config =>
    if tag = 0x180 then w1 s.adm.active
    else if tag = 0x181 then words64 s.adm.admittedAt
    else words64 ((s.adm.waiting.map PendingAdm.at_).getD 0)
  | .slot k =>
    if tag = 0x180 then w1 (((slotBody s k).map List.length).getD 0)
    else [((slotBody s k).map fun b => if b.isEmpty then 0#32 else crc32Words b).getD 0#32]
  | .stage x =>
    let ws := imageWords s.vals x
    if tag = 0x180 then [ws.getLastD 0#32]
    else if tag = 0x181 then w1 (imageHdr ws).cycles
    else w1 ((instPaths s.adm.cfg).filter fun p => stageIn s.adm.cfg p == some x).length
  | .ledgerEvent =>
    if tag = 0x180 then w1 ((s.ledg.events.getLast?.map LedgerEntry.num).getD 0xFFFFFFFF)
    else (List.range 8).map fun r => wd (((s.recs[r]?).map RecRing.total).getD 0)
  | .ledgerMargin =>
    if tag = 0x180 then w1 s.ledg.opSec
    else if tag = 0x181 then w1 s.ladder.pos
    else if tag = 0x182 then words64 s.ladder.alarmFrames
    else if tag = 0x183 then words64 s.ladder.alarmBad
    else words64 s.ladder.excluded
  | .cls k => roClass s k tag
  | _ => []

/-- The value of a read-only parameter. -/
def roValue (s : State) (n : Node) (tag : Nat) : List Word :=
  match n with
  | .hub => roHw s n tag
  | .wheel _ => roHw s n tag
  | .spoke _ _ => roHw s n tag
  | .object o => roObject s o tag
  | .feed _ => roFeed s n tag
  | .align _ => roFeed s n tag
  | .corr _ => roFeed s n tag
  | .bank _ _ => roFeed s n tag
  | .eq _ => roFeed s n tag
  | .limit _ => roFeed s n tag
  | .till => roFeed s n tag
  | .channel _ => roConsole s n tag
  | .bus _ => roConsole s n tag
  | .zone _ => roConsole s n tag
  | .scene => roScene s n tag
  | .sceneChip _ => roScene s n tag
  | .sceneLib _ => roScene s n tag
  | .bell => roBell s n tag
  | .bellMsg _ => roBell s n tag
  | .bellTrig _ => roBell s n tag
  | .bellRoute _ => roBell s n tag
  | .sai _ => roPort s n tag
  | .aesi _ => roPort s n tag
  | .aeso _ => roPort s n tag
  | .pdm _ => roPort s n tag
  | .gear => roGear s n tag
  | .gearSai _ => roGear s n tag
  | .gearAesi _ => roGear s n tag
  | .gearPdm _ => roGear s n tag
  | .net _ => roNet s n tag
  | .gate _ => roNet s n tag
  | .ptp _ => roNet s n tag
  | .tx _ _ => roNet s n tag
  | .rx _ _ => roNet s n tag
  | .pilot k => roPilot s k tag
  | .inst p => roInst s p tag
  | k => roOther s k tag

/-- The committed value of a parameter of an existing node (R76): parts never written have no words. -/
def valueAt (s : State) (n : Node) (tag : Nat) : List Word :=
  match reach s n tag with
  | none => []
  | some (k, t) =>
    match specAt s k t with
    | none => []
    | some p =>
      match p.by_ with
      | .ro => roValue s k t
      | _ =>
        match k with
        | .inst q => if 0x200 ≤ t then [instParam s q (t - 0x200)] else param s k t
        | _ => param s k t

/-- The value staged in a mailbox's escrow, or the committed one (R76, VIEW 1). -/
def stagedAt (s : State) (mb : Nat) (n : Node) (tag : Nat) : List Word :=
  match reach s n tag with
  | none => []
  | some (k, t) =>
    match s.fw.staged.find? fun w => w.1 == mb && w.2.node == k && w.2.tag == t with
    | some w => w.2.vals
    | none => valueAt s k t

/-! ### Handles -/

/-- A node number is held by a live handle, or by pins on a removed node (R72). -/
def numberHeld (s : State) (n : Nat) : Bool := s.fw.handles.any fun h => h.num == n

/-- The node number a node first looked up takes: firmware's choice, moved on where it is held. Log 4. -/
def freshNumber (s : State) : Nat :=
  let k := s.fw.handles.length
  let want := 1 + Config.nodeNumber (k + s.fw.gens.length) % 1048575
  if numberHeld s want then ((List.range (k + 1)).map (· + 1) |>.find? fun n => !numberHeld s n).getD want else want

/-- The generation of a node number: one more than its last, or firmware's choice (R72). -/
def freshGen (s : State) (num : Nat) : Nat :=
  match findKey num s.fw.gens with
  | some g => if g = 4095 then 1 else g + 1
  | none => 1 + Config.firstGen num % 4095

/-- Look up and pin a node for a mailbox (R68, R69): its handle. -/
def pinRef (mb : Nat) (r : Ref) (s : State) : State × Word :=
  match handleRec s r with
  | some h =>
    let h' : HandleRec := { h with pins := if h.pins.contains mb then h.pins else mb :: h.pins }
    ({ s with fw := { s.fw with handles := s.fw.handles.map fun x => if x.num == h.num then h' else x } }, h.word)
  | none =>
    let num := freshNumber s
    let h : HandleRec := { ref := r, num := num, gen := freshGen s num, live := true, pins := [mb] }
    ({ s with fw := { s.fw with handles := h :: s.fw.handles, gens := dropKey num s.fw.gens } }, h.word)

/-- A removed node without pins gives its number back, remembering the generation (R72). -/
def freeNumbers (s : State) : State :=
  let gone := s.fw.handles.filter fun h => !h.live && h.pins.isEmpty
  { s with fw := { s.fw with
      handles := s.fw.handles.filter fun h => h.live || !h.pins.isEmpty,
      gens := (gone.map fun h => (h.num, h.gen)) ++ s.fw.gens } }

/-- Take a mailbox's pin from a handle, live or not (R70, R71). -/
def unpin (mb : Nat) (w : Word) (s : State) : Option State :=
  match s.fw.handles.find? fun h => h.word == w && h.pins.contains mb with
  | none => none
  | some h =>
    some (freeNumbers { s with fw := { s.fw with handles := s.fw.handles.map fun x =>
      if x.num == h.num && x.gen == h.gen then { x with pins := x.pins.filter (· != mb) } else x } })

/-- Nodes are removed at an admission: their handles become invalid, and HANDLE_REVOKED is raised for those pinned (R71, R72). -/
def revokeWhere (gone : Ref → Bool) (stamp : Nat) (s : State) : State :=
  let hit := s.fw.handles.filter fun h => h.live && gone h.ref
  let s := hit.foldl (fun s h =>
    if h.pins.isEmpty then s
    else raiseEvent { code := 0x0004, kind := .boundary, stamp := stamp, node := some h.ref, source := 0xF,
                      cls := eventClass s (some h.ref.node) 0xF, detail := h.pins.length, items := [] } s) s
  freeNumbers { s with fw := { s.fw with handles := s.fw.handles.map fun h => if h.live && gone h.ref then { h with live := false } else h } }

/-! ### Opcodes -/

/-- An opcode without items: the index of the first one carried. -/
def anyItem (r : Request) : Option Nat := (realItems r.items).head?.map (·.1)

/-- PING (R50). -/
def opPing (r : Request) (s : State) : State × Reply :=
  match anyItem r with
  | some i => (s, .fail stType i)
  | none => (s, .ok [{ tag := 1, vals := words64 s.clk.tally }])

/-- The word offset of an item in its message. -/
def itemOffset (is : List Item) (i : Nat) : Nat := 4 + sumNat ((is.take i).map fun x => 1 + x.vals.length)

/-- LOOKUP (R69): the text (R45), the base, then the path. -/
def opLookup (r : Request) (s : State) : State × Reply :=
  match itemsBad r.items [(1, fun _ => true)] (realItems r.items) with
  | some i => (s, .fail stType i)
  | none =>
    match (realItems r.items).head? with
    | none => (s, .fail stType 0)
    | some (i, it) =>
      match textOf it.vals with
      | none => (s, .fail stFormat (itemOffset r.items i))
      | some txt =>
        let base : Option (List Name) := if r.handle = 0#32 then some [] else (refOfHandle s r.handle).map (refPath s)
        match base with
        | none => (s, .fail stBadHandle 0)
        | some b =>
          match findPath s b txt with
          | .error d => (s, .fail stBadPath d)
          | .ok ref =>
            let x := pinRef r.mb ref s
            (x.1, { Reply.ok [] with handle := some x.2 })

/-- RELEASE (R70, R71). -/
def opRelease (r : Request) (s : State) : State × Reply :=
  match anyItem r with
  | some i => (s, .fail stType i)
  | none =>
    match unpin r.mb r.handle s with
    | some s' => (s', .ok [])
    | none => (s, .fail stBadHandle 0)

/-- The items of QUERY (R74). -/
def queryItems (s : State) (ref : Ref) : List Item :=
  let one (t n : Nat) : Item := { tag := t, vals := w1 n }
  let n := ref.node
  let audio := ref.tag.isNone && isAudio n
  [{ tag := 1, vals := packText (pathText (refPath s ref)) }, one 0x10 (if ref.tag.isSome then 1 else typeCode n),
    { tag := 0x11, vals := [((parentOf s ref).map fun p => handleOf s { node := p, tag := none }).getD 0#32] },
    one 0x12 (if ref.tag.isSome then 0 else childCount s n)] ++
  (if audio then
    [one 0x13 ((classOf s n).getD 0), one 0x14 (cyclesItem s n), one 0x15 (hubItem s n), one 0x16 (dramItem s n),
      one 0x17 ((portsItem s n).1 + 65536 * (portsItem s n).2), one 0x18 (if (specAt s n 0x100).isSome then pN s n 0x100 else 0),
      one 0x19 (latencyItem s n)]
  else []) ++
  (match n with
  | .tandem p => if ref.tag.isNone then [one 0x1A (depthOf s.adm.cfg 9 p)] else []
  | _ => [])

/-- QUERY. -/
def opQuery (r : Request) (s : State) : State × Reply :=
  match refOfHandle s r.handle with
  | none => (s, .fail stBadHandle 0)
  | some ref =>
    match anyItem r with
    | some i => (s, .fail stType i)
    | none => (s, .ok (queryItems s ref))

/-- The first item of READ that does not follow R76: status and index. A tag the node does not have is refused. Log 43. -/
def readBad (s : State) (ref : Ref) : List (Nat × Item) → Option (Nat × Nat)
  | [] => none
  | (i, it) :: r =>
    if it.tag = 3 then
      if ref.tag.isNone && it.vals.any (fun w => !(nodeTags s ref.node).contains (fld w 0 16)) then some (stType, i)
      else readBad s ref r
    else if it.tag = 4 && it.vals.length == 1 then
      if (it.vals.getD 0 0#32).toNat ≤ 1 then readBad s ref r else some (stRange, i)
    else some (stType, i)

/-- Items of READ cut to what a response holds, with CONTINUE (R77). -/
def cutItems : Nat → List Item → List Item
  | _, [] => []
  | room, i :: r =>
    if (i :: r).map (fun x => 1 + x.vals.length) |> sumNat |> (· ≤ room) then i :: r
    else if 1 + i.vals.length + 2 ≤ room then i :: cutItems (room - 1 - i.vals.length) r
    else [{ tag := 5, vals := w1 i.tag }]

/-- READ (R76, R77). -/
def opRead (r : Request) (s : State) : State × Reply :=
  match refOfHandle s r.handle with
  | none => (s, .fail stBadHandle 0)
  | some ref =>
    match readBad s ref (realItems r.items) with
    | some (st, i) => (s, .fail st i)
    | none =>
      let view := r.items.any fun i => i.tag == 4 && i.vals == w1 1
      let val (t : Nat) : List Word := if view then stagedAt s r.mb ref.node t else valueAt s ref.node t
      match ref.tag with
      | some t => (s, .ok [{ tag := 2, vals := val t }])
      | none =>
        let lists := r.items.filter fun i => i.tag == 3
        let wanted := lists.flatMap fun i => i.vals.map fun w => fld w 0 16
        let tags := (nodeTags s ref.node).filter fun t => lists.isEmpty || wanted.contains t
        let is : List Item := tags.map fun t => { tag := t, vals := val t }
        (s, .ok (if isNmb r.mb then is else cutItems 1019 is))

end Sys2Proof.Machine
end

