-- ==== Sys2Proof/Machine/Checks.lean ====
section
/-! DEFINITION. The checks of a value that depend on another parameter or on another node (R575), and the check of a stage image
(R305, R306). Each is made on a view: the state with the values that the request or the record counts. -/

namespace Sys2Proof.Machine

/-- How a check fails: a value out of range, or a class rule (R124, R199, R221). -/
inductive BreachKind where
  | range | cls
deriving DecidableEq, Repr

/-- A check of a node: the tags of its own that take part, and what the view gives. -/
structure DepCheck where
  tags : List Nat
  run  : Unit → Option BreachKind

def rangeIf (c : Bool) : Option BreachKind := if c then some .range else none
def clsIf (c : Bool) : Option BreachKind := if c then some .cls else none

/-! ### Sources and destinations (R123, R124, R314, R343, R387) -/

/-- The port of an R314 index, if the index has its layout. -/
def portOfIndex (i : Nat) : Option PortId :=
  if i / 8192 != 0 || (i / 32) % 8 != 0 then none
  else if bitOf i 12 then (if (i / 256) % 16 < 4 && i % 32 < 2 then some (.aesi ((i / 256) % 16)) else none)
  else if i % 32 < 16 then some (.sai ((i / 256) % 16)) else none

/-- The output node of an R314 index. -/
def outOfIndex (i : Nat) : Option Node :=
  match portOfIndex i with
  | some (.sai n) => some (.sai n)
  | some (.aesi n) => some (.aeso n)
  | none => none

/-- A declared stream by its index. -/
def rxNode (v : State) (k : Nat) : Option Node :=
  (v.adm.cfg.nodes.map NodeRec.node).find? fun n => match n with
    | .rx _ j => j == k
    | _ => false

def txNode (v : State) (k : Nat) : Option Node :=
  (v.adm.cfg.nodes.map NodeRec.node).find? fun n => match n with
    | .tx _ j => j == k
    | _ => false

/-- The node a source names, if it exists and may be named: a kind-2 port runs at 48 kHz. -/
def sourceNode (v : State) (w : Word) : Option Node :=
  let i := fld w 0 16
  let n : Option Node :=
    match fld w 28 4 with
    | 1 => some (.bus i)
    | 2 => (portOfIndex i).bind fun p => if pN v (portNode p) 0x102 = 0 then some (portNode p) else none
    | 3 => if i / 8192 = 0 then rxNode v (i / 64) else none
    | 4 => if 0x2000 ≤ i && i < 0x2010 then some (.gearPdm (i - 0x2000)) else (portOfIndex i).map fun p => gearNode (portGear p)
    | _ => none
  n.filter (nodeExists v)

/-- A SOURCE for a carrier of a class (R124, R199, R314, R343, R387). -/
def sourceBreach (v : State) (cls : Option Nat) (w : Word) : Option BreachKind :=
  if fld w 28 4 = 0 then none
  else
    match sourceNode v w with
    | none => some .range
    | some n => clsIf (classOf v n != cls)

/-- A destination of kind 3 or 4 names a port or stream of the configuration. -/
def destPresent (v : State) (w : Word) : Bool :=
  let i := fld w 0 16
  match fld w 28 4 with
  | 3 => ((outOfIndex i).map (nodeExists v)).getD false
  | 4 => i / 8192 == 0 && (txNode v (i / 64)).isSome
  | _ => true

/-- A feed may carry a strip of a class: its class is that class or higher. -/
def mayCarry (v : State) (cls : Nat) (f : Nat) : Bool := ((classOf v (.feed f)).map fun k => decide (k ≤ cls)).getD false

/-- The declared feeds of a zone, by number. -/
def zoneMembers (v : State) (z : Nat) : List Nat :=
  v.adm.cfg.nodes.filterMap fun r => match r.node with
    | .feed f => if inZone v f z then some f else none
    | _ => none

/-- A bus's destination (R199, R221). -/
def destBreach (v : State) (b i : Nat) : Option BreachKind :=
  let n := Node.bus b
  let w := pW v n (0x130 + i) 0
  let cls := (classOf v n).getD 3
  let x := fld w 0 16
  let amb := (pW v n (0x130 + i) 2).toNat
  if !destPresent v w then some .range
  else if fld w 28 4 = 1 && (zoneMembers v x ++ zoneMembers v (pN v (.zone x) 0x101)).any (fun f => !mayCarry v cls f) then some .cls
  else if fld w 28 4 = 2 && !mayCarry v cls x then some .cls
  else clsIf (cls == 0 && amb != 0xFFFF && pN v (.zone amb) 0x104 != 0)

/-- A send that is ON (R199). -/
def sendBreach (v : State) (c i : Nat) : Option BreachKind :=
  let w := pW v (.channel c) (0x160 + i) 0
  let cls := (classOf v (.channel c)).getD 0
  if !w.getLsbD 31 then none
  else
    match classOf v (.bus (fld w 0 16)) with
    | none => some .cls
    | some k => clsIf (decide (k < cls))

/-- The coefficients of a section in use (R187). -/
def sectionBreach (v : State) (n : Node) (sec raw : Nat) : Option BreachKind :=
  rangeIf (!(coefsOf (param v n sec) (param v n raw)).ok)

def sectionDeps (v : State) (n : Node) (raw0 count : Nat) : List DepCheck :=
  (List.range count).map fun i => { tags := [0x110 + i, raw0 + i], run := fun _ => sectionBreach v n (0x110 + i) (raw0 + i) }

/-! ### Ports and streams -/

/-- The refused combinations of R316. -/
def saiDeps (v : State) (n : Nat) : List DepCheck :=
  let x := Node.sai n
  [{ tags := [0x101, 0x105], run := fun _ => rangeIf (pN v x 0x101 != 2 && pN v x 0x105 != 2) },
   { tags := [0x102, 0x105], run := fun _ => rangeIf (pN v x 0x102 == 7 && decide (8 < pN v x 0x105)) },
   { tags := [0x102, 0x107], run := fun _ => rangeIf (pN v x 0x102 != 0 && pN v x 0x107 != 0) }] ++
  (List.range 16).map fun i =>
    { tags := [0x102, 0x110 + i], run := fun _ => rangeIf (pN v x 0x102 != 0 && pN v x (0x110 + i) != 0xFFFF) }

/-- MODE and SPEED of R359. -/
def speedOk (mode speed : Nat) : Bool :=
  match mode with
  | 0 => speed == 0
  | 1 => speed == 1
  | 2 => true
  | _ => speed == 2

/-- The other MAC of a pair, when both name each other with equal SPEED, VLAN and IPV4 (R379). -/
def pairOk (v : State) (n : Nat) : Bool :=
  let p := pN v (.net n) 0x10A
  p == 0xFF || (p != n && nodeExists v (.net p) && pN v (.net p) 0x10A == n && pN v (.net p) 0x102 == pN v (.net n) 0x102 &&
    pN v (.net p) 0x107 == pN v (.net n) 0x107 && pW v (.net p) 0x105 0 == pW v (.net n) 0x105 0)

/-- A MAC has a stream. -/
def hasStream (v : State) (n : Nat) : Bool :=
  v.adm.cfg.nodes.any fun r => match r.node with
    | .tx m _ => m == n
    | .rx m _ => m == n
    | _ => false

def netDeps (v : State) (n : Nat) : List DepCheck :=
  let x := Node.net n
  [{ tags := [0x101, 0x102], run := fun _ => rangeIf (!speedOk (pN v x 0x101) (pN v x 0x102)) },
   { tags := [0x101, 0x103, 0x10A], run := fun _ =>
       rangeIf (pN v x 0x103 == 1 && (pN v x 0x101 != 2 || pN v x 0x10A != 0xFF || hasStream v n)) },
   { tags := [0x102, 0x105, 0x107, 0x10A], run := fun _ => rangeIf (!pairOk v n) }]

/-- The cycle of a list (R371), and a list on a port that steps down (R360). -/
def gateBad (v : State) (n : Nat) : Bool :=
  match committedList v n with
  | none => false
  | some l => decide (cycleOf l < 512) || decide (24576000 < cycleOf l) || pN v (.net n) 0x103 == 1

/-- Most CHANNELS for a PTIME and an ENCODING (R389). -/
def maxChannels (ptime enc : Nat) : Nat := min 64 (1460 / (ptimeS ptime * encBytes enc))

/-- The declarations of a stream index under all MACs; a stream on a pair belongs to the lower MAC (R380, R387). -/
def streamBad (v : State) (n : Node) : Bool :=
  let same (m : Node) : Bool := match n, m with
    | .tx _ k, .tx _ j => k == j
    | .rx _ k, .rx _ j => k == j
    | _, _ => false
  let mac := match n with
    | .tx m _ => m
    | .rx m _ => m
    | _ => 0
  let onPair := pN v n (match n with
    | .tx _ _ => 0x10B
    | _ => 0x112) == 1
  decide (1 < ((v.adm.cfg.nodes.map NodeRec.node).filter same).length) ||
    (onPair && (match cbPartner v mac with
      | none => true
      | some p => decide (p < mac)))

def streamDeps (v : State) (n : Node) : List DepCheck :=
  [{ tags := [0x106, 0x107, 0x108], run := fun _ =>
       rangeIf (decide (maxChannels (pN v n 0x108) (pN v n 0x106) < pN v n 0x107)) }]

def rxDeps (v : State) (n : Node) : List DepCheck :=
  [{ tags := [0x108, 0x10D, 0x10E], run := fun _ => rangeIf (decide (pN v n 0x10E < ptimeS (pN v n 0x108) + pN v n 0x10D + 2)) },
   { tags := [0x10E, 0x110], run := fun _ => rangeIf (decide (pN v n 0x10E < pN v n 0x110)) },
   { tags := [0x10E, 0x110, 0x111], run := fun _ =>
       rangeIf (decide (pN v n 0x111 < pN v n 0x110) || decide (pN v n 0x10E < pN v n 0x111)) }]

/-! ### All checks of a node -/

/-- The checks of a node on a view. -/
def depsOf (v : State) (n : Node) : List DepCheck :=
  let cls := classOf v n
  match n with
  | .object _ => [{ tags := [0x101], run := fun _ => sourceBreach v cls (pW v n 0x101 0) }]
  | .channel c =>
    [{ tags := [0x101], run := fun _ => sourceBreach v cls (pW v n 0x101 0) },
     { tags := [0x140, 0x141], run := fun _ => rangeIf (decide (pN v n 0x140 < pN v n 0x141)) },
     { tags := [0x153], run := fun _ => rangeIf (!destPresent v (pW v n 0x153 0)) }] ++
    (List.range 32).map (fun i => { tags := [0x160 + i], run := fun _ => sendBreach v c i }) ++ sectionDeps v n 0x118 8
  | .bus b =>
    (List.range 8).map (fun i => { tags := [0x130 + i], run := fun _ => destBreach v b i }) ++ sectionDeps v n 0x118 8
  | .zone z =>
    [{ tags := [0x101], run := fun _ =>
        clsIf (v.adm.cfg.nodes.any fun r => match r.node with
          | .bus b => (List.range 8).any fun i =>
              let w := pW v (.bus b) (0x130 + i) 0
              fld w 28 4 == 1 && fld w 0 16 == z && destBreach v b i == some .cls
          | _ => false) },
     { tags := [0x103], run := fun _ =>
        rangeIf ((param v n 0x103).any fun w => fld w 28 4 != 0 && (sourceNode v w).isNone) }]
  | .align f => [{ tags := [0x101], run := fun _ => rangeIf (decide (pN v (.feed f) 0x105 < pN v n 0x101)) }]
  | .eq _ => sectionDeps v n 0x120 12
  | .sai k => saiDeps v k
  | .gearPdm k => [{ tags := [0x104], run := fun _ => rangeIf (k % 2 == 1 && pN v n 0x104 == 1) }]
  | .net k => netDeps v k
  | .tx _ _ => streamDeps v n
  | .rx _ _ => streamDeps v n ++ rxDeps v n
  | .pilot _ =>
    [{ tags := [0x103, 0x108], run := fun _ => rangeIf (pN v n 0x103 == 4 && pN v n 0x108 != 1) },
     { tags := [0x103, 0x107], run := fun _ => rangeIf (pN v n 0x103 == 1 && pN v n 0x107 % 2 == 1) },
     { tags := [0x105, 0x106], run := fun _ => rangeIf (decide (pN v n 0x106 < pN v n 0x105)) },
     { tags := [0x10A, 0x10B], run := fun _ => rangeIf (decide (pN v n 0x10B < pN v n 0x10A)) },
     { tags := [0x109], run := fun _ =>
        rangeIf (match classOf v (.feed (pN v n 0x109)), cls with
          | some k, some c => decide (k < c)
          | _, _ => false) }]
  | _ => []

/-- The checks that some of the written tags take part in and that fail: the tags, and how. -/
def breaches (v : State) (n : Node) (written : List Nat) : List (List Nat × BreachKind) :=
  ((depsOf v n).filter fun d => d.tags.any written.contains).filterMap fun d => (d.run ()).map fun k => (d.tags, k)

/-! ### Writable parameters (R87, R205) -/

/-- The provisioned count that limits an indexed parameter, and its index. -/
def provisioned (v : State) (n : Node) (tag : Nat) : Option (Nat × Nat) :=
  match n with
  | .channel _ =>
    if 0x110 ≤ tag && tag < 0x120 then some (pN v n 0x109, (tag - 0x110) % 8)
    else if 0x160 ≤ tag && tag < 0x180 then some (pN v n 0x152, tag - 0x160) else none
  | .bus _ =>
    if 0x110 ≤ tag && tag < 0x120 then some (pN v n 0x108, (tag - 0x110) % 8)
    else if 0x130 ≤ tag && tag < 0x138 then some (pN v n 0x109, tag - 0x130) else none
  | _ => none

/-- VLEN fits the parameter's type: parts and images hold 1 to 1000 words (R241, R307). -/
def lenFits (p : PSpec) (l : Nat) : Bool :=
  match p.len with
  | some k => l == k
  | none => decide (1 ≤ l) && decide (l ≤ 1000)

/-- A parameter that may be written on a view: set by escrow, or with `adm` at an admission, and below its provisioned count. -/
def writable (v : State) (adm : Bool) (n : Node) (tag : Nat) : Option PSpec :=
  (specAt v n tag).filter fun p =>
    (p.by_ == .escrow || (adm && p.by_ == .adm)) && ((provisioned v n tag).map fun x => decide (x.2 < x.1)).getD true

/-! ### Stage images (R305, R306) -/

/-- An entry word A: an area of R281 or none, and an offset that is a multiple of 4 (R306). -/
def entryOk (a : Word) : Bool := fld a 20 8 == 0 && fld a 0 2 == 0 && decide (fld a 28 4 ≤ 7)

/-- Header, limits and CRC of an image. -/
def imageOk (ws : List Word) : Bool :=
  let w (i : Nat) : Word := ws.getD i 0#32
  let h := imageHdr ws
  decide (33 ≤ ws.length) && w 0 == 0x00010020#32 && onlyBits 0x00FFFF0F (w 1) && decide (h.params ≤ 64) &&
    decide (1 ≤ h.cycles) && decide (h.cycles ≤ 160000) &&
    decide (8 ≤ h.code) && decide (h.code ≤ 65536) && h.code % 8 == 0 &&
    decide (h.data ≤ 65536) && h.data % 4 == 0 && decide (h.state ≤ 65536) && h.state % 4 == 0 &&
    decide (h.scratch ≤ 131072) && h.scratch % 4 == 0 && decide (h.hub ≤ 4194304) && h.hub % 64 == 0 &&
    decide (h.dram ≤ 268435456) && h.dram % 64 == 0 && decide (h.rate ≤ 2000000) && decide (h.latency ≤ 4800) &&
    h.entryPc % 8 == 0 && decide (h.entryPc < h.code) &&
    (List.range 8).all (fun i => entryOk (w (12 + 2 * i))) &&
    (List.range 4).all (fun i => w (28 + i) == 0#32) &&
    ws.length == 32 + 3 * h.params + h.code / 4 + h.data / 4 + 1 &&
    ws.getLastD 0#32 == crc32Words ws.dropLast

end Sys2Proof.Machine
end

