-- ==== Sys2Proof/Machine/Escrow.lean ====
section
/-! DEFINITION. Escrow (R86 to R90), commits (R91 to R94), scenes stored and recalled (R222 to R229): the opcodes STAGE, DISCARD,
COMMIT, SCENE_STORE and SCENE_RECALL. -/

namespace Sys2Proof.Machine

/-! ### Escrow space (R89) -/

def Write.words (w : Write) : Nat := w.vals.length

/-- Value words a mailbox holds: staged, armed, and in the pending scene request (R89, R230). -/
def escrowOf (s : State) (mb : Nat) : Nat :=
  sumNat ((s.fw.staged.filter fun w => w.1 == mb).map fun w => w.2.words) +
    sumNat ((s.armed.filter fun a => a.mb == mb).map fun a => sumNat (a.writes.map Write.words)) +
    (match s.sceneRun.pending with
    | some p => if p.mb = mb then sumNat (p.writes.map Write.words) else 0
    | none => 0)

/-- Escrow holds what the mailboxes hold: 262 144 words, of which 32 768 are MB0's; at most 131 072 for any other mailbox. -/
def escrowFits (s : State) : Bool :=
  let e := (List.range 11).map (escrowOf s)
  let others := sumNat (e.drop 1)
  (e.drop 1).all (fun x => decide (x ≤ 131072)) && decide (others + (e.getD 0 0 - 32768) ≤ 229376)

/-! ### STAGE -/

/-- Stage one write: it replaces a write of the same parameter in the same escrow, in its place (R88). -/
def stageOne (mb : Nat) (l : List (Nat × Write)) (w : Write) : List (Nat × Write) :=
  if l.any fun x => x.1 == mb && x.2.node == w.node && x.2.tag == w.tag then
    l.map fun x => if x.1 == mb && x.2.node == w.node && x.2.tag == w.tag then (mb, w) else x
  else l ++ [(mb, w)]

/-- A mailbox's staged writes, in order. -/
def stagedOf (s : State) (mb : Nat) : List Write := (s.fw.staged.filter fun w => w.1 == mb).map (·.2)

/-- The items of a STAGE with the parameter each reaches: check 3 of R87, or the index of the first that breaks it. -/
def stageItems (s : State) (ref : Ref) : List (Nat × Item) → Except Nat (List (Nat × Write × PSpec))
  | [] => .ok []
  | (i, it) :: r =>
    let at_ : Option (Node × Nat) :=
      match ref.tag with
      | some t => if it.tag = 2 then reach s ref.node t else none
      | none => reach s ref.node it.tag
    match at_ with
    | none => .error i
    | some (n, t) =>
      match writable s false n t with
      | none => .error i
      | some p =>
        if !lenFits p it.vals.length then .error i
        else
          match stageItems s ref r with
          | .error e => .error e
          | .ok l => .ok ((i, { node := n, tag := t, vals := it.vals }, p) :: l)

/-- Check 3 of R87 as a whole. -/
def stageType (s : State) (ref : Ref) (is : List (Nat × Item)) : Except Nat (List (Nat × Write × PSpec)) :=
  match is with
  | [] => .error 0
  | _ =>
    match stageItems s ref is with
    | .error e => .error e
    | .ok l =>
      match ref.tag, is with
      | some _, _ :: (j, _) :: _ => .error j
      | _, _ => .ok l

/-- A value out of range: the status and the item index; SLOTS above 16 is too long (R316). -/
def rangeFault (l : List (Nat × Write × PSpec)) : Option (Nat × Nat) :=
  l.findSome? fun e =>
    if e.2.2.ok e.2.1.vals then none
    else
      match e.2.1.node with
      | .sai _ => if e.2.1.tag = 0x105 && 16 < (e.2.1.vals.getD 0 0#32).toNat then some (stTooLong, e.1) else some (stRange, e.1)
      | _ => some (stRange, e.1)

/-- The view of R575 for a STAGE: the mailbox's escrow, then the request itself. -/
def stageView (s : State) (mb : Nat) (ws : List Write) : State := withWrites s (stagedOf s mb ++ ws)

/-- Index of the last item that writes one of the tags of a node. -/
def lastItem (l : List (Nat × Write × PSpec)) (n : Node) (tags : List Nat) : Nat :=
  maxNat ((l.filter fun e => e.2.1.node == n && tags.contains e.2.1.tag).map (·.1))

/-- The first dependent check that fails: the smallest of their item indices. -/
def depFault (v : State) (l : List (Nat × Write × PSpec)) : Option Nat :=
  let ns := (l.map fun e => e.2.1.node).eraseDups
  let ds := ns.flatMap fun n =>
    (breaches v n ((l.filter fun e => e.2.1.node == n).map fun e => e.2.1.tag)).map fun b => lastItem l n b.1
  match ds with
  | [] => none
  | d :: r => some (r.foldl min d)

/-- STAGE (R86 to R89). -/
def opStage (r : Request) (s : State) : State × Reply :=
  match refOfHandle s r.handle with
  | none => (s, .fail stBadHandle 0)
  | some ref =>
    if !permits (classOf s ref.node) r.mb then (s, .fail stClass 0)
    else
      match stageType s ref (realItems r.items) with
      | .error i => (s, .fail stType i)
      | .ok l =>
        match rangeFault l with
        | some (st, i) => (s, .fail st i)
        | none =>
          let ws := l.map fun e => e.2.1
          match depFault (stageView s r.mb ws) l with
          | some i => (s, .fail stRange i)
          | none =>
            let s' := { s with fw := { s.fw with staged := ws.foldl (stageOne r.mb) s.fw.staged } }
            if escrowFits s' then (s', .ok []) else (s, .fail stEscrowFull 0)

/-- Empty a mailbox's escrow of staged writes. -/
def clearStaged (mb : Nat) (s : State) : State :=
  { s with fw := { s.fw with staged := s.fw.staged.filter fun w => w.1 != mb } }

/-- DISCARD (R90). -/
def opDiscard (r : Request) (s : State) : State × Reply :=
  match anyItem r with
  | some i => (s, .fail stType i)
  | none => (clearStaged r.mb s, .ok [])

/-! ### Boundaries (R51, R91 to R93) -/

/-- The boundary a non-zero COMMIT_AT names (R51): negative when it lies before tally 0. -/
def namedAt (t : Nat) (commitAt : Word) : Int :=
  let lo : Int := (t : Int) + 1 - 2147483648
  lo + ((commitAt.toNat : Int) - lo) % 4294967296

/-- COMMIT_AT is a frame boundary. -/
def boundaryWord (w : Word) : Bool := w.toNat % 8192 == 0

/-- A mailbox's armed boundaries. -/
def armedAt (s : State) (mb : Nat) : List Nat := (s.armed.filter fun a => a.mb == mb).map Armed.at_

/-- The first boundary from `b` on that is not in a list. -/
def firstFree (taken : List Nat) : Nat → Nat → Nat
  | 0, b => b
  | k + 1, b => if taken.contains b then firstFree taken k (b + 8192) else b

/-- The boundary of R92. -/
def nextArm (s : State) (mb : Nat) : Nat :=
  firstFree (armedAt s mb) (armedAt s mb).length (boundaryFrom (s.clk.tally + 1024))

/-- The boundary of a request with a COMMIT_AT. -/
def commitBoundary (s : State) (r : Request) : Int :=
  if r.commitAt = 0#32 then (nextArm s r.mb : Int) else namedAt s.clk.tally r.commitAt

/-- Frames late (R93). -/
def framesLate (s : State) (b : Int) : Nat := sat16 ((((s.clk.tally : Int) + 1024) / 8192 - b / 8192 + 1).toNat)

/-- TAG 0x0021 of R94. -/
def armItem (b : Int) (words : Nat) : Item := { tag := 0x21, vals := [wi b, wi (b / 4294967296), wd words] }

/-- Checks 3 to 5 of R91, and the arming. -/
def arm (r : Request) (kind : ArmKind) (ws : List Write) (s : State) : Except Reply (State × Reply) :=
  let b := commitBoundary s r
  if (armedAt s r.mb).any fun x => (x : Int) == b then .error (.fail 0xA 0)
  else if 8 ≤ (armedAt s r.mb).length then .error (.fail stEscrowFull 0)
  else if b < (s.clk.tally : Int) + 1024 then .error (.fail 9 (framesLate s b))
  else
    let a : Armed := { mb := r.mb, at_ := b.toNat, seq := r.seq, kind := kind, writes := ws }
    .ok ({ s with armed := s.armed ++ [a] }, .ok [armItem b (sumNat (ws.map Write.words))])

/-! ### COMMIT -/

/-- A staged write still names a parameter of a node that exists. -/
def stillThere (s : State) (w : Write) : Bool := nodeExists s w.node && (writable s false w.node w.tag).isSome

/-- The MACs whose gate list a set of writes changes (R360, R371). -/
def gateWrites (ws : List Write) : List Nat :=
  (ws.filterMap fun w => match w.node with
    | .gate n => some n
    | _ => none).eraseDups

/-- The first bus that a commit of writes takes above its FEEDS_MAX (R211), as the DETAIL of ADMISSION; R248 gives no code for it: free
value, log 77. -/
def feedsOver (s : State) (ws : List Write) : Option Nat :=
  let was := withArmed s
  let now := withWrites was ws
  (s.buses.find? fun b => decide (pN s (.bus b.n) 0x10A < busFeeds now b.n) && busFeeds now b.n != busFeeds was b.n).map fun b =>
    admDetail ((classOf s (.bus b.n)).getD 0xF) (Config.feedsCode b.n % 4096)

/-- Check 2 of R91 on the writes of a commit: the purses (R237), and FEEDS of every bus (R211). -/
def writesFit (s : State) (ws : List Write) : Option Nat :=
  match commitFits (withWrites (withArmed s) ws) with
  | some d => some d
  | none => feedsOver s ws

/-- COMMIT (R91, R94). -/
def opCommit (r : Request) (s : State) : State × Reply :=
  match anyItem r with
  | some i => (s, .fail stType i)
  | none =>
    let ws := stagedOf s r.mb
    if ws.isEmpty then (s, .ok [armItem (commitBoundary s r) 0])
    else if !ws.all (stillThere s) then (s, .fail stBadHandle 0)
    else if !ws.all (fun w => permits (classOf s w.node) r.mb) then (s, .fail stClass 0)
    else
      let v := withWrites (withArmed s) ws
      if (gateWrites ws).any (gateBad v) then (s, .fail stRange 0)
      else
        match writesFit s ws with
        | some d => (s, .fail stAdmission d)
        | none =>
          match arm r .commit ws (clearStaged r.mb s) with
          | .error e => (s, e)
          | .ok x => x

/-! ### Scenes (R222 to R225) -/

/-- A parameter a scene may hold (R222). -/
def sceneTag (s : State) (n : Node) (tag : Nat) : Bool :=
  let kind := match n with
    | .channel _ => true
    | .bus _ => true
    | .object _ => true
    | .zone _ => tag != 0x101
    | _ => false
  kind && (writable s false n tag).isSome

/-- The nodes of the kinds of CAPTURE: bit 4 channels, 5 buses, 6 objects, 7 zones. -/
def captureKind (w0 : Word) : Node → Bool
  | .channel _ => w0.getLsbD 4
  | .bus _ => w0.getLsbD 5
  | .object _ => w0.getLsbD 6
  | .zone _ => w0.getLsbD 7
  | _ => false

/-- The writes of a CAPTURE: the committed values of the nodes selected, in record order, in ascending tag order (R224). -/
def captured (s : State) (ns : List Node) : List Write :=
  ns.flatMap fun n => ((nodeTags s n).filter (sceneTag s n)).map fun t => { node := n, tag := t, vals := valueAt s n t }

/-- A scene's pool: chip or library, and its size (R223). -/
def poolOf : Node → Option (Bool × Nat)
  | .sceneChip _ => some (true, 524288)
  | .sceneLib _ => some (false, 33554432)
  | _ => none

def isChip (n : Node) : Bool := ((poolOf n).map (·.1)).getD false

/-- Words the other scenes of a pool hold. -/
def poolUsed (s : State) (chip : Bool) (but : Node) : Nat :=
  sumNat ((s.fw.scenes.filter fun x => isChip x.node == chip && x.node != but).map Scene.words)

/-- The handles listed, as nodes. -/
def listedNodes (s : State) (ws : List Word) : List (Option Node) := ws.map (nodeOfHandle s)

/-- A class agrees with a scene's ALARM flag (R222): zones agree with both. -/
def agrees (s : State) (alarm : Bool) (n : Node) : Bool :=
  match n with
  | .zone _ => true
  | k => (classOf s k == some 0) == alarm

/-- Store a scene and answer (R224). -/
def storeScene (mb : Nat) (sc : Scene) (s : State) : State × Reply :=
  let s := { s with fw := { s.fw with scenes := sc :: s.fw.scenes.filter fun x => x.node != sc.node } }
  let crc := crc32Words (sc.writes.flatMap Write.vals)
  let s := raiseNode 0x3004 .teller s.clk.tally (some sc.node) mb (low16 sc.words) [{ tag := 0x44, vals := [crc] }] s
  (s, .ok [{ tag := 0x44, vals := w1 sc.words }])

/-- SCENE_STORE (R224, R225). -/
def opSceneStore (r : Request) (s : State) : State × Reply :=
  match (nodeOfHandle s r.handle).bind fun n => (poolOf n).map fun p => (n, p) with
  | none => (s, .fail stBadHandle 0)
  | some (n, p) =>
    let real := realItems r.items
    let list := ((real.find? fun i => i.2.tag == 0x41).map fun i => i.2.vals).getD []
    let w0 := ((real.find? fun i => i.2.tag == 0x40).map fun i => i.2.vals.getD 0 0#32).getD 0#32
    let w1' := ((real.find? fun i => i.2.tag == 0x40).map fun i => (i.2.vals.getD 1 0#32).toNat).getD 0
    let alarm := w0.getLsbD 8
    let mode := fld w0 0 2
    let nodes := (listedNodes s list).filterMap id
    if (listedNodes s list).any Option.isNone then (s, .fail stBadHandle 0)
    else if !permits (some (if alarm then 0 else 1)) r.mb then (s, .fail stClass 0)
    else
      let bad := match itemsBad r.items [(0x40, (· == 2))] (real.take 1) with
        | some i => some i
        | none =>
          match itemsBad r.items [(0x41, fun k => decide (k ≤ 1014))] (real.drop 1) with
          | some i => if (real.drop 1).isEmpty then none else some i
          | none => none
      match bad with
      | some i => (s, .fail stType i)
      | none =>
        let src := (nodes.head?.bind fun k => (poolOf k).bind fun _ => sceneRec s k).filter fun x => x.state == 1
        let i0 := ((real.head?).map (·.1)).getD 0
        let i1 := (((real.drop 1).head?).map (·.1)).getD r.items.length
        let staged := stagedOf s r.mb
        if !onlyBits 0x1F3 w0 || mode == 3 || decide (2000 < w1') then (s, .fail stType i0)
        else if mode == 1 && !staged.all (fun w => sceneTag s w.node w.tag) then (s, .fail stType i0)
        else if mode == 2 && (list.length != 1 || src.isNone) then (s, .fail stType i1)
        else
          let ws : List Write :=
            match mode with
            | 0 => captured s ((s.adm.cfg.nodes.map NodeRec.node).filter fun k =>
                captureKind w0 k && (list.isEmpty || nodes.contains k))
            | 1 => staged
            | _ => (src.map Scene.writes).getD []
          let sc : Scene :=
            { node := n, state := 1, xfade := if mode = 2 then (src.map Scene.xfade).getD 0 else w1', storedAt := s.clk.tally,
              alarm := alarm, writes := ws }
          if !ws.all (fun w => agrees s alarm w.node) then (s, .fail stClass 0)
          else if 131072 < sc.words then (s, .fail stTooLong 0)
          else if p.2 < poolUsed s p.1 n + sc.words then (s, .fail stEscrowFull 0)
          else storeScene r.mb sc (if mode = 1 then clearStaged r.mb s else s)

/-- SCENE_RECALL (R101, R228). -/
def opSceneRecall (r : Request) (s : State) : State × Reply :=
  match (nodeOfHandle s r.handle).filter fun n => (poolOf n).isSome with
  | none => (s, .fail stBadHandle 0)
  | some n =>
    let sc := (sceneRec s n).getD { node := n, state := 0, xfade := 0, storedAt := 0, alarm := false, writes := [] }
    let real := realItems r.items
    let given := (real.head?).bind fun i => if i.2.tag = 0x43 && i.2.vals.length == 1 then some (i.2.vals.getD 0 0#32).toNat else none
    let bad : Option Nat :=
      match real with
      | [] => none
      | (i, _) :: rest =>
        if (given.map fun x => decide (x ≤ 2000)).getD false then (rest.head?).map (·.1) else some i
    if sc.state != 0 && !permits (some (if sc.alarm then 0 else 1)) r.mb then (s, .fail stClass 0)
    else
      match bad with
      | some i => (s, .fail stType i)
      | none =>
        if sc.state = 0 then (s, .fail stRange 0)
        else if sc.state = 2 then (s, .fail stBadHandle 0)
        else
          let fade := framesOfMs (given.getD sc.xfade)
          let s' := { s with armed := s.armed ++ [{ mb := r.mb, at_ := 0, seq := r.seq, kind := .commit, writes := sc.writes }] }
          if !escrowFits s' then (s, .fail stEscrowFull 0)
          else if !sc.writes.all (stillThere s) then (s, .fail stBadHandle 0)
          else
            match writesFit s sc.writes with
            | some d => (s, .fail stAdmission d)
            | none =>
              match arm r (.recall n fade) sc.writes s with
              | .error e => (s, e)
              | .ok x => x

end Sys2Proof.Machine
end

