-- ==== Sys2Proof/Machine/Apply.lean ====
section
/-! DEFINITION. What is done at a frame boundary before the next dispatch: fades that end, pending requests, commits (R96 to R99)
and the scene engine (R230 to R233); the commands COMMIT_APPLY's own part, SWAP_DONE, ROUTE_FADE_END and SCENE_DONE. -/

namespace Sys2Proof.Machine

/-! ### Effects of committed writes -/

/-- The route ramp time of an instance or a tandem: 20 ms (R78). -/
def tandemFade : Nat := framesOfMs 20

/-- What one committed write does at its boundary; `was` is the state before the values were committed, `over` the length of a
scene fade. -/
def applyWrite (mb : Nat) (given : Option Nat) (was : State) (n : Node) (tag : Nat) (s : State) : State :=
  match n with
  | .feed _ | .align _ | .corr _ | .eq _ | .limit _ => applyFeedWrite mb n tag s
  | .channel c => applyChannel mb given c tag s
  | .bus b => applyBus mb given b tag s
  | .object o => applyObject given o tag s
  | .sai _ | .aesi _ | .aeso _ | .pdm _ => applyPort mb n tag s
  | .gearSai k => applyGear mb (.sai k) tag s
  | .gearAesi k => applyGear mb (.aesi k) tag s
  | .gearPdm k => applyGear mb (.pdm k) tag s
  | .ptp _ | .tx _ _ | .rx _ _ => applyNet n tag s
  | .bellTrig _ => applyBell n tag 0#32 0 s
  | .bellRoute i => applyBell n tag (routeDest was i) (routeLow was i) s
  | .inst p =>
    if tag = 0x100 then s.updInst p fun x => { x with byp := bypassTo x.byp (pN s n tag) tandemFade } else s
  | .tandem p =>
    if tag = 0x100 then
      { s with tandems := s.tandems.map fun x => if x.path == p then { x with byp := bypassTo x.byp (pN s n tag) tandemFade } else x }
    else s
  | _ => s

/-- What a commit does once, whatever parameters of a node it writes: section banks (R188, R204), gate lists (R372), pilot
channels (R441), the cab swap (R116, R212). -/
def applyOnce (mb : Nat) (given : Option Nat) (was : State) (n : Node) (tags : List Nat) (s : State) : State :=
  let any (lo hi : Nat) : Bool := tags.any fun t => decide (lo ≤ t) && decide (t < hi)
  match n with
  | .eq f => if any 0x110 0x12C then requestEq f mb s else s
  | .channel _ => if any 0x107 0x120 then applyStripBank mb given n s else s
  | .bus _ => if any 0x110 0x120 then applyStripBank mb given n s else s
  | .gate m => requestGate m mb s
  | .pilot k => applyPilot k (lastBoundary s) tags s
  | .layout =>
    if tags.contains 0x101 && param was .layout 0x101 != param s .layout 0x101 then cabSwapApplied mb (swapDests mb s) else s
  | _ => s

/-- The effects of writes that are committed. -/
def writeEffects (mb : Nat) (given : Option Nat) (was : State) (ws : List Write) (s : State) : State :=
  let s := ws.foldl (fun s w => applyWrite mb given was w.node w.tag s) s
  (ws.map Write.node).eraseDups.foldl (fun s n =>
    applyOnce mb given was n ((ws.filter fun w => w.node == n).map Write.tag) s) s

/-- Commit writes, with their effects. -/
def commitWrites (mb : Nat) (given : Option Nat) (ws : List Write) (s : State) : State :=
  writeEffects mb given s ws (withWrites s ws)

/-! ### Units (R98, R187) -/

/-- The tag that names the unit of a parameter: SECTION n and RAW n are one. -/
def unitTag (n : Node) (tag : Nat) : Nat :=
  match n with
  | .eq _ => if 0x120 ≤ tag ∧ tag < 0x12C then tag - 0x10 else tag
  | .channel _ | .bus _ => if 0x118 ≤ tag ∧ tag < 0x120 then tag - 8 else tag
  | _ => tag

def sameUnit (a b : Write) : Bool := a.node == b.node && unitTag a.node a.tag == unitTag b.node b.tag

/-- The commits armed for a boundary, by mailbox. -/
def dueAt (s : State) (b : Nat) : List Armed := (List.range 11).flatMap fun m => s.armed.filter fun a => a.mb == m && a.at_ == b

/-- The mailbox whose writes to the unit of `w` prevail. -/
def prevails (as : List Armed) (w : Write) : Nat := ((as.find? fun a => a.writes.any (sameUnit w)).map Armed.mb).getD 0

/-- The writes of a commit that apply. -/
def appliedOf (as : List Armed) (a : Armed) : List Write := a.writes.filter fun w => prevails as w == a.mb

/-- The parameters with a write that does not apply. -/
def contested (as : List Armed) : List (Node × Nat) :=
  (as.flatMap fun a => (a.writes.filter fun w => prevails as w != a.mb).map fun w => (w.node, w.tag)).eraseDups

/-- PARAM_CONTESTED for one parameter. -/
def raiseContested (b : Nat) (as : List Armed) (p : Node × Nat) (s : State) : State :=
  let w : Write := { node := p.1, tag := p.2, vals := [] }
  let by_ := prevails as w
  let losers := (as.filter fun a => a.mb != by_ && a.writes.any fun x => x.node == p.1 && x.tag == p.2).map Armed.mb
  raiseNode 0x0002 .boundary b (some p.1) by_ p.2 [{ tag := 0x22, vals := w1 (sumNat (losers.map (2 ^ ·))) }] s

/-- COMMIT_APPLIED. -/
def raiseApplied (b : Nat) (as : List Armed) (a : Armed) (s : State) : State :=
  raiseNode 0x0001 .boundary b none a.mb (low16 a.seq.toNat)
    [{ tag := 0x21, vals := w1 (sumNat ((appliedOf as a).map Write.words)) }] s

/-! ### The scene engine (R230, R231) -/

/-- The recalls applied at one boundary as one request. -/
def mergeRecalls (b : Nat) (as : List Armed) : Option SceneReq :=
  let rs := as.filterMap fun a => match a.kind with
    | .commit => none
    | .recall scn fade => some (a, scn, fade)
  rs.head?.map fun r =>
    { scene := r.2.1, mb := r.1.mb, seq := r.1.seq, at_ := b, frames := r.2.2, writes := rs.flatMap fun x => appliedOf as x.1 }

/-- A scene fade starts at boundary `b`. -/
def startScene (b : Nat) (q : SceneReq) (s : State) : State :=
  let s := settleScale (some q.frames) (commitWrites q.mb (some q.frames) q.writes s)
  raiseNode 0x3001 .boundary b (some q.scene) q.mb (low16 q.frames) []
    { s with sceneRun := { s.sceneRun with running := some (q, b + frames q.frames), pending := none } }

/-- A fade whose end has come ends; the pending request then starts. -/
def settleScene (b : Nat) (s : State) : State :=
  match s.sceneRun.running with
  | none => s
  | some (q, e) =>
    if b < e then s
    else
      let s := raiseOwn 0x3002 .boundary e (some q.scene) 0 { s with sceneRun := { s.sceneRun with running := none } }
      match s.sceneRun.pending with
      | none => s
      | some p => startScene b p s

/-- A request at boundary `b`: it starts, or becomes pending and replaces the pending one. -/
def askScene (b : Nat) (q : SceneReq) (s : State) : State :=
  match s.sceneRun.running, s.sceneRun.pending with
  | none, none => settleScene b (startScene b q s)
  | _, none => { s with sceneRun := { s.sceneRun with pending := some q } }
  | _, some p =>
    let s := { s with sceneRun := { s.sceneRun with pending := some q, replaced := satAdd32 s.sceneRun.replaced 1 } }
    raiseNode 0x3003 .boundary b (some p.scene) q.mb (low16 s.sceneRun.replaced) [] s

/-! ### Steps 1 and 2 of a boundary (R181) -/

/-- Bypass fades of feeds, instances and tandems, and the fades of strips, objects and ports. -/
def settleBypasses (s : State) : State :=
  let f (x : Fade Nat) : Fade Nat := settleFade x tandemFade
  { s with feeds := s.feeds.map fun x => { x with byp := f x.byp, corrByp := f x.corrByp, eqByp := f x.eqByp, limByp := f x.limByp },
           insts := s.insts.map fun x => { x with byp := f x.byp },
           tandems := s.tandems.map fun x => { x with byp := f x.byp } }

/-- Fades that end at the boundary, then pending requests. -/
def settleFades (b : Nat) (s : State) : State :=
  settleScene b (settleTx (settleObjs (settleStrips (settleFeeds (settleBypasses s)))))

/-! ### Commits (R96 to R99) -/

/-- Apply the commits armed for boundary `b` as one change: every value is committed before any effect. -/
def applyDue (b : Nat) (s : State) : State :=
  let as := dueAt s b
  if as.isEmpty then s
  else
    let was := s
    let plain := as.filter fun a => a.kind == .commit
    let s := { s with armed := s.armed.filter fun a => a.at_ != b }
    let s := withWrites s (plain.flatMap (appliedOf as))
    let s := plain.foldl (fun s a => writeEffects a.mb none was (appliedOf as a) s) s
    let s := settleScale none s
    let s := match mergeRecalls b as with
      | none => s
      | some q => askScene b q s
    let s := (contested as).foldl (fun s p => raiseContested b as p s) s
    as.foldl (fun s a => raiseApplied b as a s) s

/-! ### Commands that end one fade -/

/-- SWAP_DONE (R179, R188, R164, R204): the fade of one unit ends at the boundary, and a pending request is tested. -/
def settleUnit (u : SwapUnit) (s : State) : State :=
  match u with
  | .corr f => settleCorr s f
  | .eq f => settleEq s f
  | .align f => settleAlign s f
  | .chanEq c => s.updChan c fun x =>
      let r := settleBank x.sec x.secOld x.secNew (chanBank s c) (framesOfMs (pN s (.channel c) 0x106))
      { x with sec := r.1, secOld := r.2.1, secNew := r.2.2 }
  | .busEq b => s.updBus b fun x =>
      let r := settleBank x.sec x.secOld x.secNew (busBank s b) (framesOfMs (pN s (.bus b) 0x105))
      { x with sec := r.1, secOld := r.2.1, secNew := r.2.2 }
  | .chanDelay c => s.updChan c fun x => { x with delay := settleFade x.delay (framesOfMs (pN s (.channel c) 0x142)) }

/-- A route or bypass fade of one parameter ends (R203, R151, R321, R78). -/
def endRouteFade (n : Node) (tag : Nat) (s : State) : State :=
  match n with
  | .channel _ | .bus _ => endRoute n tag s
  | .sai _ | .aeso _ => endTx n tag s
  | .object o => s.updObj o fun x =>
      let r := framesOfMs (pN s n 0x102)
      if tag = 0x100 then { x with byp := settleFade x.byp r } else if tag = 0x101 then { x with src := settleFade x.src r } else x
  | .feed f => s.updFeed f fun x => { x with byp := settleFade x.byp tandemFade }
  | .corr f => s.updFeed f fun x => { x with corrByp := settleFade x.corrByp tandemFade }
  | .eq f => s.updFeed f fun x => { x with eqByp := settleFade x.eqByp tandemFade }
  | .limit f => s.updFeed f fun x => { x with limByp := settleFade x.limByp tandemFade }
  | .inst p => s.updInst p fun x => { x with byp := settleFade x.byp tandemFade }
  | .tandem p =>
    { s with tandems := s.tandems.map fun x => if x.path == p then { x with byp := settleFade x.byp tandemFade } else x }
  | _ => s

end Sys2Proof.Machine
end

