-- ==== Sys2Proof/Machine/Admit.lean ====
section
/-! DEFINITION. The opcode ADMIT (R241 to R250): the body of a slot, its records, the checks of R246 in order and the rules of
R247. -/

namespace Sys2Proof.Machine

/-! ### Records (R242) -/

/-- The words of a body as records: offset, KIND and value words. A record that runs over the end stops the list: its offset, if
there is one, is the second component. -/
def splitRecords : Nat → Nat → List Word → List (Nat × Nat × List Word) × Option Nat
  | 0, _, _ => ([], none)
  | _, _, [] => ([], none)
  | k + 1, off, w :: ws =>
    let n := fld w 0 16
    if ws.length < n then ([], some off)
    else
      let r := splitRecords k (off + 1 + n) (ws.drop n)
      ((off, fld w 16 16, ws.take n) :: r.1, r.2)

/-- Items that fill words exactly, padding dropped (R44). -/
def fillItems (ws : List Word) : Option (List Item) :=
  match splitRecords ws.length 0 ws with
  | (rs, none) => some ((rs.filter fun r => r.2.1 != 0).map fun r => { tag := r.2.1, vals := r.2.2 })
  | _ => none

/-- The body as far as its parts have been written, and the offset of the first part that has not (R242). -/
def bodyOf (s : State) (n : Nat) : List Word × Option Nat :=
  let ps := slotParts s n
  let got := ((ps.takeWhile Option.isSome).flatMap fun x => x.getD [])
  (got, if ps.all Option.isSome then none else some got.length)

/-! ### Declarations -/

/-- A declared tandem with its exports as written: name and relative path. -/
structure TandemDecl where
  tandem  : Tandem
  exports : List (Name × List Name)

/-- A configuration as its records are read: the nodes and tandems so far, the node of each NODE record with its record index and
items, and the paths declared. -/
structure Decls where
  cfg   : Cfg
  decls : List TandemDecl
  recs  : List (Nat × Node × List Item)
  paths : List (List Name)

def Decls.empty : Decls := { cfg := Cfg.empty, decls := [], recs := [], paths := [] }

/-- Nodes that a configuration makes; the other declarable ones exist in every configuration. -/
def makesNode : Node → Bool
  | .layout | .car _ | .zone _ | .object _ | .feed _ | .channel _ | .bus _ | .stage _ | .sai _ | .aesi _ | .aeso _ | .pdm _ |
    .net _ | .tx _ _ | .rx _ _ | .pilot _ => true
  | _ => false

/-- A node whose record must follow another one's (R243). -/
def parentDecl : Node → Option Node
  | .car _ => some .layout
  | .align f | .corr f | .bank f _ | .eq f | .limit f => some (.feed f)
  | .gearSai n => some (.sai n)
  | .gearAesi n => some (.aesi n)
  | .gearPdm n => some (.pdm n)
  | .gate n | .ptp n | .tx n _ | .rx n _ => some (.net n)
  | _ => none

/-- A node that a NODE record may declare (R243). -/
def declarable : Node → Bool
  | .hub | .wheel _ | .spoke _ _ | .config | .slot _ | .ring _ | .ledgerEvent | .ledgerMargin | .tandem _ => false
  | _ => true

/-- A NODE record (R243): the node with its class and items, none where the record breaks a rule. -/
def readNode (d : Decls) (ws : List Word) : Option (Node × Nat × List Item) :=
  match ws with
  | [] => none
  | w0 :: rest =>
    let l := fld w0 8 8
    if !onlyBits 0xFF03 w0 || l == 0 || decide (16 < l) || decide (rest.length < l) then none
    else
      match textOf (rest.take l), fillItems (rest.drop l) with
      | some txt, some items =>
        if !isAbs txt || (pathBreach [] txt).isSome then none
        else
          let segs := (textSegs txt).map (·.2)
          match nodeAtPath d.cfg segs with
          | none => none
          | some n =>
            let parentSeen := match parentDecl n with
              | some p => d.cfg.nodes.any fun r => r.node == p
              | none => true
            if declarable n && parentSeen && !d.paths.contains segs then some (n, fld w0 0 2, items) else none
      | _, _ => none

/-! ### TANDEM records (R244) -/

/-- The name and the words after it of a MEMBER or EXPORT item: kind, name, rest. -/
def readNamed (vals : List Word) : Option (Nat × Name × List Word) :=
  match vals with
  | [] => none
  | w0 :: rest =>
    let nw := fld w0 8 8
    if !onlyBits 0xFF01 w0 || nw == 0 || decide (rest.length < nw) then none
    else (textOf (rest.take nw)).bind fun n => if nameSeg n then some (fld w0 0 1, n, rest.drop nw) else none

def readMember (vals : List Word) : Option Member :=
  (readNamed vals).bind fun m =>
    if m.1 = 1 then (if m.2.2.isEmpty then some { name := m.2.1, stage := none } else none)
    else (textOf m.2.2).bind fun x => if nameSeg x then some { name := m.2.1, stage := some x } else none

def readExport (vals : List Word) : Option (Name × List Name) :=
  (readNamed vals).bind fun m =>
    (textOf m.2.2).bind fun txt =>
      if isAbs txt || (pathBreach [nm "tandem"] txt).isSome then none else some (m.2.1, (textSegs txt).map (·.2))

/-- The host an INSERT names: a channel, a bus or a feed. -/
def readInsert (c : Cfg) (vals : List Word) : Option Node :=
  (textOf vals).bind fun txt =>
    if !isAbs txt || (pathBreach [] txt).isSome then none
    else (nodeAtPath c ((textSegs txt).map (·.2))).filter fun n => match n with
      | .channel _ | .bus _ | .feed _ => true
      | _ => false

/-- The items of a TANDEM record in order. -/
def readTandemItems (c : Cfg) : List Item → TandemDecl → Option TandemDecl
  | [], t => some t
  | i :: r, t =>
    if i.tag = 0x10 then
      if t.tandem.insert.isSome then none
      else (readInsert c i.vals).bind fun h => readTandemItems c r { t with tandem := { t.tandem with insert := some h } }
    else if i.tag = 0x11 then
      (readMember i.vals).bind fun m => readTandemItems c r { t with tandem := { t.tandem with members := t.tandem.members ++ [m] } }
    else if i.tag = 0x12 && i.vals.length == 1 then
      let w := i.vals.getD 0 0#32
      let x : Wire := { src := fld w 24 8, srcPort := fld w 16 8, snk := fld w 8 8, snkPort := fld w 0 8 }
      readTandemItems c r { t with tandem := { t.tandem with wires := t.tandem.wires ++ [x] } }
    else if i.tag = 0x13 then
      (readExport i.vals).bind fun e => readTandemItems c r { t with exports := t.exports ++ [e] }
    else none

/-- A TANDEM record. -/
def readTandem (d : Decls) (ws : List Word) : Option TandemDecl :=
  match ws with
  | [] => none
  | w0 :: rest =>
    let l := fld w0 8 8
    if !onlyBits 0xFFFF03 w0 || l == 0 || decide (16 < l) || decide (rest.length < l) then none
    else
      match textOf (rest.take l), fillItems (rest.drop l) with
      | some txt, some items =>
        let segs := (textSegs txt).map (·.2)
        let listed := segs.length == 1 || d.cfg.tandems.any fun t =>
          t.path == segs.dropLast && t.members.any fun m => segs.getLast? == some m.name && m.stage.isNone
        if isAbs txt || (pathBreach [nm "tandem"] txt).isSome || !listed || d.paths.contains (nm "tandem" :: segs) then none
        else
          let t0 : Tandem :=
            { path := segs, cls := fld w0 0 2, inputs := fld w0 16 4 + 1, outputs := fld w0 20 4 + 1, insert := none,
              members := [], wires := [], exports := [] }
          (readTandemItems d.cfg items { tandem := t0, exports := [] }).filter fun t =>
            if segs.length == 1 then t.tandem.insert.isSome && t0.inputs == 1 && t0.outputs == 1 else t.tandem.insert.isNone
      | _, _ => none

/-- Read the records one by one: the declarations, or the offset of the first that breaks a rule. -/
def readRecords : Nat → List (Nat × Nat × List Word) → Decls → Except Nat Decls
  | _, [], d => .ok d
  | i, (off, kind, ws) :: r, d =>
    if kind = 0 then readRecords (i + 1) r d
    else if kind = 1 then
      match readNode d ws with
      | none => .error off
      | some (n, cls, items) =>
        readRecords (i + 1) r
          { d with cfg := { d.cfg with
                     nodes := if makesNode n then d.cfg.nodes ++ [{ node := n, cls := cls }] else d.cfg.nodes,
                     values := items.foldl (fun vs x => setVal vs n x.tag x.vals) d.cfg.values },
                   recs := d.recs ++ [(i, n, items)], paths := pathOf n :: d.paths }
    else if kind = 2 then
      match readTandem d ws with
      | none => .error off
      | some t =>
        readRecords (i + 1) r
          { d with cfg := { d.cfg with tandems := d.cfg.tandems ++ [t.tandem] }, decls := d.decls ++ [t],
                   paths := (nm "tandem" :: t.tandem.path) :: d.paths }
    else .error off

/-! ### The candidate -/

/-- The parameter that an export path names below a tandem, in a state whose tandems hold no exports yet (R84). -/
def exportRef (v : State) (ds : List TandemDecl) (p : List Name) (rel : List Name) : Option (Node × Nat) :=
  match rel.getLast? with
  | none => none
  | some last =>
    let q := p ++ rel.dropLast
    if rel.length < 2 then none
    else
      match (nodeAtPath v.adm.cfg (nm "tandem" :: q)).filter (nodeExists v) with
      | some (.inst x) => (tagOfName v (.inst x) last).map fun t => (.inst x, t)
      | some (.tandem x) =>
        if last == nm "bypass" then some (.tandem x, 0x100)
        else
          (ds.find? fun d => d.tandem.path == x).bind fun d =>
            ((List.range d.exports.length).find? fun k => (d.exports.getD k ([], [])).1 == last).map fun k => (.tandem x, 0x8000 + k)
      | _ => none

/-- Tag of an export that names no parameter. -/
def noExport : Nat := 0x10000

/-- The state that would stand under a configuration and values. -/
def under (s : State) (c : Cfg) (vals : List Write) : State := { s with adm := { s.adm with cfg := c }, vals := vals }

/-- The configuration that records declare, with its exports resolved. -/
def finishCfg (s : State) (d : Decls) : Cfg :=
  let v := under s d.cfg d.cfg.values
  let ex (t : TandemDecl) : List (Name × Node × Nat) := t.exports.map fun e =>
    match exportRef v d.decls t.tandem.path e.2 with
    | some r => (e.1, r)
    | none => (e.1, .config, noExport)
  { d.cfg with tandems := d.decls.map fun t => { t.tandem with exports := ex t } }

/-! ### What an admission changes (R236, R249, R251) -/

/-- The admission parameters of a node as a configuration gives them. -/
def admValues (s : State) (c : Cfg) (n : Node) : List (Nat × List Word) :=
  let v := under s c c.values
  ((specs n).filter fun p => p.by_ == .adm).flatMap fun p => p.tags.map fun t => (t, param v n t)

/-- A tandem below which a path lies, with everything its instances are made of, is declared alike. -/
def sameTandem (s : State) (a b : Cfg) (p : List Name) : Bool :=
  let part (c : Cfg) : List Tandem := c.tandems.filter fun t => t.path.take 1 == p.take 1
  let stages := (part b).flatMap fun t => t.members.filterMap Member.stage
  part a == part b && stages.all fun x => imageWords a.values x == imageWords b.values x &&
    admValues s a (.stage x) == admValues s b (.stage x)

/-- A node of two configurations is the same: its class, its admission parameters, and a feed's those of its members (R251,
R161). -/
def sameNode (s : State) (a b : Cfg) (n : Node) : Bool :=
  match n with
  | .tandem p | .inst p => sameTandem s a b p
  | k => classIn a k == classIn b k && (membersOf k).all fun m => admValues s a m == admValues s b m

/-- Every node a configuration makes, members and tandems included. -/
def madeNodes (c : Cfg) : List Node :=
  (c.nodes.map NodeRec.node) ++ c.tandems.map (fun t => Node.tandem t.path) ++ (instPaths c).map Node.inst

def hasNode (c : Cfg) (n : Node) : Bool := (madeNodes c).contains n

/-- Nodes that an admission removes, restarts, and creates. -/
def goneNodes (s : State) (a b : Cfg) : List Node := (madeNodes a).filter fun n => !hasNode b n || !sameNode s a b n
def freshNodes (s : State) (a b : Cfg) : List Node := (madeNodes b).filter fun n => !hasNode a n || !sameNode s a b n

/-- All values of a node as a configuration gives them, members included. -/
def allValues (s : State) (c : Cfg) (n : Node) : List (List (Nat × List Word)) :=
  let v := under s c c.values
  (membersOf n).map fun m => (nodeTags v m).map fun t => (t, (reach v m t).elim [] fun k => param v k.1 k.2)

/-- ALARM nodes of a configuration. -/
def alarmNodes (c : Cfg) : List Node := (madeNodes c).filter fun n => classIn c n == some 0

/-- Check 3 of R246: ALARM nodes, `/bell`, the ALARM purse and ALARM_LANES exactly as admitted. -/
def leavesAlarm (s : State) (b : Cfg) : Bool :=
  let a := s.adm.cfg
  let v (c : Cfg) : State := under s c c.values
  (alarmNodes a).all (hasNode b) && (alarmNodes b).all (fun n =>
    hasNode a n && sameNode s a b n && allValues s a n == allValues s b n) &&
  b.values.all (fun w => match w.node with
    | .bellTrig _ | .bellRoute _ => (a.values.any fun x => x.node == w.node) && param (v a) w.node w.tag == param (v b) w.node w.tag
    | _ => true) &&
  (List.range 4).all (fun i => param (v a) (.cls 0) (0x101 + i) == param (v b) (.cls 0) (0x101 + i)) &&
  param (v a) .till 0x102 == param (v b) .till 0x102

/-- The ALARM values an admission leaves as they are: those of every ALARM node, and of `/bell`, when it leaves ALARM nodes as check
3 of R246 describes (R257). DEDUCED, log 44. -/
def keptAlarm (s : State) (b : Cfg) (w : Write) : Bool :=
  let esc := ((specOf w.node w.tag).map fun p => p.by_ == .escrow).getD true
  let o := match w.node with
    | .gate n | .ptp n => .net n
    | n => ownerOf n
  leavesAlarm s b && (match w.node with
    | .bellTrig _ | .bellRoute _ => true
    | _ => esc && classIn b o == some 0 && hasNode s.adm.cfg o && hasNode b o)

/-- The values an admission takes over where a record gives none: slots, the recorder taps, `/bell`, and the escrow values of a
restarted feed and its members (R161, R243). -/
def keptValue (s : State) (b : Cfg) (w : Write) : Bool :=
  let esc := ((specOf w.node w.tag).map fun p => p.by_ == .escrow).getD true
  match w.node with
  | .slot _ | .ledgerEvent => true
  | .bellTrig _ | .bellRoute _ => !(b.values.any fun x => x.node == w.node)
  | n =>
    match ownerOf n with
    | .feed f => esc && hasNode s.adm.cfg (.feed f) && hasNode b (.feed f) && !sameNode s s.adm.cfg b (.feed f)
    | _ => false

/-- The values in force once a configuration is admitted: what its records give, and what stays (R243). -/
def admittedVals (s : State) (b : Cfg) : List Write :=
  let alarm := s.vals.filter (keptAlarm s b)
  let given := b.values.filter fun w => (findVal alarm w.node w.tag).isNone
  let kept := s.vals.filter fun w =>
    !keptAlarm s b w && keptValue s b w && (findVal given w.node w.tag).isNone
  alarm ++ given ++ kept

/-! ### The rules of R247 -/

/-- Nodes of the tree with their parameters (R68). -/
def nodeCount (v : State) : Nat := sumNat ((allNodes v).map fun n => 1 + (nodeTags v n).length)

/-- R84. -/
def exportsBreak (t : Tandem) : Bool :=
  let names := t.exports.map (·.1) ++ t.members.map Member.name
  decide (64 < t.exports.length) || t.exports.any (fun e => e.2.2 == noExport) || decide (names.eraseDups.length < names.length) ||
    decide ((t.exports.map fun e => e.2).eraseDups.length < t.exports.length)

/-- R119: cars and the cars of feeds. A configuration without `/layout` has none to check. DESIGN CHOICE, log 46. -/
def layoutBreaks (v : State) : Bool :=
  let cars := pN v .layout 0x103
  let front (n : Nat) : Nat := pN v (.car n) 0x101
  let rear (n : Nat) : Nat := pN v (.car n) 0x102
  let ns := (List.range cars).map (· + 1)
  ns.any (fun n => decide (rear n ≤ front n)) || ns.any (fun n => decide (n < cars) && decide (front (n + 1) < rear n)) ||
    (decide (0 < cars) && decide (pN v .layout 0x102 < rear cars)) ||
    v.adm.cfg.nodes.any (fun r => match r.node with
      | .feed f => decide (cars < pN v (.feed f) 0x142)
      | _ => false)

/-- R119: a zone that an object names, directly or through MIRROR, has a member. -/
def zonesBreak (v : State) : Bool :=
  v.adm.cfg.nodes.any fun r => match r.node with
    | .object o =>
      let z := pN v (.object o) 0x113
      decide (z < 256) && [z, pN v (.zone z) 0x101].any fun k => (zoneMembers v k).isEmpty
    | _ => false

/-- R161: TAPS_MAX below the TOTAL of a bank of a kept feed. -/
def tapsBreak (v : State) : Bool :=
  v.fw.banks.any fun b => admitted v (.feed b.feed) && decide (pN v (.feed b.feed) 0x104 < b.total)

/-- R183. -/
def lanesBreak (v : State) : Bool :=
  v.adm.cfg.nodes.any fun r => match r.node with
    | .feed _ => if r.cls = 0 then pN v .till 0x102 == 0 else pN v .till 0x101 == 0
    | _ => false

/-- Every tag of a node. -/
def brokenClass (v : State) (n : Node) : Bool := (breaches v n (nodeTags v n)).any fun b => b.2 == .cls

/-- R124, R199, R221, R245: classes. An image that does not allow the class of its strip breaks them too (R305). -/
def classesBreak (v : State) : Bool :=
  v.adm.cfg.nodes.any (fun r => brokenClass v r.node) ||
  v.adm.cfg.tandems.any (fun t => t.path.length == 1 && (t.insert.bind (classOf v)).any fun k => k != t.cls) ||
  (instPaths v.adm.cfg).any fun p => !bitOf (imageHdr (instImage v p)).classes ((classOf v (.inst p)).getD 0)

/-- Inputs and outputs of a member. -/
def memberPorts (v : State) (t : Tandem) (m : Member) : Nat × Nat :=
  match m.stage with
  | some x => let h := imageHdr (imageWords v.vals x); (h.inputs, h.outputs)
  | none => ((tandemAt v (t.path ++ [m.name])).map fun q => (q.inputs, q.outputs)).getD (0, 0)

/-- Members that can run in order: those whose sources have all run, until none is left. -/
def runsOut (t : Tandem) : Nat → List Nat → Bool
  | 0, left => left.isEmpty
  | k + 1, left =>
    let ready := left.filter fun m => !(t.wires.any fun w => w.snk == m && left.contains w.src)
    left.isEmpty || (!ready.isEmpty && runsOut t k (left.filter fun m => !ready.contains m))

/-- The wiring of a tandem follows R245. -/
def wiringOk (v : State) (t : Tandem) : Bool :=
  let ports (m : Nat) : Nat × Nat := ((t.members[m]?).map (memberPorts v t)).getD (0, 0)
  let once (snk port : Nat) : Bool := (t.wires.filter fun w => w.snk == snk && w.snkPort == port).length == 1
  decide (t.members.length ≤ 64) && (t.members.map Member.name).eraseDups.length == t.members.length &&
  t.wires.all (fun w =>
    (if w.src = 0xFF then decide (w.srcPort < t.inputs) else decide (w.srcPort < (ports w.src).2)) &&
    (if w.snk = 0xFF then decide (w.snkPort < t.outputs) else decide (w.snkPort < (ports w.snk).1))) &&
  (List.range t.members.length).all (fun m => (List.range (ports m).1).all (once m)) &&
  (List.range t.outputs).all (once 0xFF) &&
  runsOut t t.members.length (List.range t.members.length) &&
  t.members.all fun m => match m.stage with
    | some x => admitted v (.stage x)
    | none => (tandemAt v (t.path ++ [m.name])).isSome

/-- R245: hosts and wiring. -/
def insertsBreak (v : State) : Bool :=
  let hosts := v.adm.cfg.tandems.filterMap Tandem.insert
  hosts.any (fun h => !admitted v h) || decide (hosts.eraseDups.length < hosts.length) ||
    v.adm.cfg.tandems.any fun t => !wiringOk v t

/-- check_rules of R247: the first rule that is broken. -/
def checkRules (v : State) : Option Nat :=
  if 1048575 < nodeCount v then some 0x030
  else if v.adm.cfg.tandems.any fun t => decide (8 < depthOf v.adm.cfg 9 t.path) then some 0x032
  else if v.adm.cfg.tandems.any exportsBreak then some 0x033
  else if (admitted v .layout && layoutBreaks v) || zonesBreak v then some 0x031
  else if tapsBreak v then some 0x035
  else if lanesBreak v then some 0x037
  else if classesBreak v then some 0x034
  else if insertsBreak v then some 0x036
  else none

/-! ### Step 5 -/

/-- The view of a record (R575): the candidate; another node's parameter that a declared align DELAY depends on takes its
default. DEDUCED, log 45. -/
def recordView (v : State) (n : Node) : State :=
  match n with
  | .align f => { v with vals := v.vals.filter fun w => !(w.node == Node.feed f && w.tag == 0x105) }
  | _ => v

/-- TYPE, then RANGE, for one record. -/
def recordFault (v : State) (n : Node) (items : List Item) : Option Nat :=
  let types := items.all fun i => match writable v true n i.tag with
    | some p => lenFits p i.vals.length
    | none => false
  let ranges := items.all fun i => match specAt v n i.tag with
    | some p => p.ok i.vals
    | none => false
  let deps := (breaches (recordView v n) n (items.map Item.tag)).any fun b => b.2 == .range
  let whole := match n with
    | .stage x => imageOk (imageWords v.vals x)
    | .tx _ _ | .rx _ _ => !streamBad v n
    | .gate k => !gateBad v k
    | _ => true
  if !types then some stType else if ranges && !deps && whole then none else some stRange

/-- The first record that fails: status and record index. -/
def recordsFault (v : State) (rs : List (Nat × Node × List Item)) : Option (Nat × Nat) :=
  rs.findSome? fun r => (recordFault v r.2.1 r.2.2).map fun st => (st, low16 r.1)

/-! ### ADMIT -/

/-- A configuration read from a slot: the records and the configuration, or the offset of the first breach (step 4). -/
def readConfig (s : State) (n : Nat) : Except Nat (Decls × Cfg) :=
  let b := bodyOf s n
  let r := splitRecords b.1.length 0 b.1
  match readRecords 0 r.1 Decls.empty with
  | .error off => .error off
  | .ok d =>
    match b.2, r.2 with
    | some off, _ => .error off
    | none, some off => .error off
    | none, none => .ok (d, finishCfg s d)

/-- The place of an ALARM node that an admission keeps unchanged (R249). -/
def keptPlace (s : State) (b : Cfg) (n : Node) : Option (Nat × Option Nat) :=
  if classIn b n == some 0 && hasNode s.adm.cfg n && sameNode s s.adm.cfg b n then
    (s.adm.place.find? fun e => e.1 == n).map (·.2)
  else none

/-- The placement under a candidate, and its auditors: those of ALARM nodes that stay where they are stay too (R249). -/
def placedUnder (s v : State) : Option (Placement × List (Node × Nat)) :=
  (placeAll v (keptPlace s v.adm.cfg)).map fun pl =>
    (pl, (auditorsOf v pl).map fun e =>
      match findKey e.1 s.adm.auditors with
      | some a => if s.adm.place.any (fun p => pl.contains p && p.1 == e.1) && (auditSpokes v).contains a then (e.1, a) else e
      | none => e)

/-- The checks of R247 on a candidate: DETAIL of the first that fails, or the placement. -/
def admitCheck (s v0 : State) : Except Nat (Placement × List (Node × Nat)) :=
  match checkRules v0 with
  | some c => .error (admDetail 0xF c)
  | none =>
    let v := withArmed v0
    match checkSums v with
    | some c => .error (admDetail 0xF c)
    | none =>
      match checkPurses v 0 false with
      | some d => .error d
      | none =>
        if activeWheels v < 2 && hasAlarm v then .error (admDetail 0 0x013)
        else
          match placedUnder s v with
          | none => .error (admDetail (unplacedClass v) 0x010)
          | some (pl, auds) =>
            if pl.any fun e => e.2.2.isSome && !(auds.any fun a => a.1 == e.1) then .error (admDetail 0 0x012)
            else
              match checkSpokes v 0 false pl auds with
              | some d => .error d
              | none => .ok (pl, auds)

/-- ADMIT (R246, R250). The boundary A is fixed when the response is written; until then the admission waits for no boundary. -/
def opAdmit (r : Request) (s : State) : State × Reply :=
  match anyItem r with
  | some i => (s, .fail stType i)
  | none =>
    match nodeOfHandle s r.handle with
    | some (.slot n) =>
      if s.adm.waiting.isSome then (s, .fail stInProgress 0)
      else
        match readConfig s n with
        | .error off => (s, .fail stFormat (low16 off))
        | .ok (d, c) =>
          let v := under s c (admittedVals s c)
          if r.mb != 0 && r.mb != 10 && !leavesAlarm s c then (s, .fail stClass 0)
          else
            match recordsFault (under s c c.values) d.recs with
            | some (st, i) => (s, .fail st i)
            | none =>
              match admitCheck s v with
              | .error e => (s, .fail stAdmission e)
              | .ok _ =>
                ({ s with adm := { s.adm with waiting := some { at_ := 2 ^ 64, slot := n, mb := r.mb, cfg := c },
                                              fadeOut := goneNodes s s.adm.cfg c } },
                 { Reply.ok [{ tag := 0x30, vals := words64 0 }] with after := .adm })
    | _ => (s, .fail stBadHandle 0)

end Sys2Proof.Machine
end

