-- ==== Sys2Proof/Machine/Admitted.lean ====
section
/-! DEFINITION. What an accepted admission does at its boundary (R61, R72, R100, R161, R227, R249, R251, R323, R342, R386, R396). -/

namespace Sys2Proof.Machine

/-! ### Armed commits and scenes (R100, R227, R233) -/

/-- COMMIT_DISARMED of the writes of one mailbox for boundary `b`. -/
def raiseDisarmed (node : Option Node) (mb : Nat) (seq : Word) (b : Nat) (s : State) : State :=
  raiseNode 0x0003 .teller s.clk.tally node mb (low16 seq.toNat) [{ tag := 0x21, vals := words64 b }] s

/-- The first node written that a configuration no longer holds. -/
def firstGone (v : State) (ws : List Write) : Option Node := (ws.find? fun w => !nodeExists v w.node).map Write.node

/-- Commits that write a removed node are disarmed, and a pending recall that does is dropped. -/
def disarmGone (v s : State) : State :=
  let hit := s.armed.filter fun a => (firstGone v a.writes).isSome
  let s := hit.foldl (fun s a => raiseDisarmed (firstGone v a.writes) a.mb a.seq a.at_ s) s
  let s := { s with armed := s.armed.filter fun a => (firstGone v a.writes).isNone }
  match s.sceneRun.pending with
  | none => s
  | some p =>
    match firstGone v p.writes with
    | none => s
    | some n => raiseDisarmed (some n) p.mb p.seq p.at_ { s with sceneRun := { s.sceneRun with pending := none } }

/-- A scene that holds a removed node, or a parameter no longer writable, becomes STALE. -/
def staleScenes (v s : State) : State :=
  let stale (x : Scene) : Bool :=
    x.state == 1 && x.writes.any fun w => !nodeExists v w.node || (writable v false w.node w.tag).isNone
  let hit := s.fw.scenes.filter stale
  let s := { s with fw := { s.fw with scenes := s.fw.scenes.map fun x => if stale x then { x with state := 2 } else x } }
  hit.foldl (fun s x => raiseOwn 0x3008 .teller s.clk.tally (some x.node) 0 s) s

/-! ### Running state of nodes -/

/-- Indices of the declared nodes that a test picks, ascending. -/
def declaredIdx (c : Cfg) (pick : Node → Option Nat) (limit : Nat) : List Nat :=
  (List.range limit).filter fun k => c.nodes.any fun r => pick r.node == some k

/-- The running state of declared nodes: kept for a node that stays as it was, fresh otherwise. -/
def keepOr {α : Type} (fresh : List Node) (mk : Nat → Node) (old : Nat → Option α) (new : Nat → α) (ks : List Nat) : List α :=
  ks.map fun k => if fresh.contains (mk k) then new k else (old k).getD (new k)

def pickFeed : Node → Option Nat
  | .feed k => some k
  | _ => none
def pickObject : Node → Option Nat
  | .object k => some k
  | _ => none
def pickChannel : Node → Option Nat
  | .channel k => some k
  | _ => none
def pickBus : Node → Option Nat
  | .bus k => some k
  | _ => none
def pickZone : Node → Option Nat
  | .zone k => some k
  | _ => none
def pickSai : Node → Option Nat
  | .sai k => some k
  | _ => none
def pickAesi : Node → Option Nat
  | .aesi k => some k
  | _ => none
def pickPdm : Node → Option Nat
  | .pdm k => some k
  | _ => none

/-- A copy of an instance starts with its state, hub and DRAM regions at zero (R299, R251). -/
def newInst (s : State) (p : List Name) : Inst :=
  let c : InstCopy := { state := List.replicate (imageHdr (instImage s p)).state 0#8, hub := [], dram := [] }
  { path := p, copies := if classOf s (.inst p) == some 0 then [c, c] else [c], faults := 0, code := 0, faulted := false,
    ovFrames := 0, peak := 0, faultFrames := [], now := [], ran := [], byp := Fade.const (pN s (.inst p) 0x100), past := [] }

def newTandem (s : State) (p : List Name) : TandemSt := { path := p, byp := Fade.const (pN s (.tandem p) 0x100), past := [] }

/-- Strips and tails that the ladder holds shed start shed (R190, R234). -/
def shedNew (s : State) (fresh : List Node) : State :=
  let n := s.ladder.pos
  { s with
    feeds := s.feeds.map fun fd =>
      if fresh.contains (.feed fd.n) then
        { fd with tail := { fd.tail with shed := shedTail n (classOf s (.feed fd.n)), out := if shedTail n (classOf s (.feed fd.n)) then 16 else 0 } }
      else fd,
    chans := s.chans.map fun c => if fresh.contains (.channel c.n) && shedOwn s n (.channel c.n) then { c with shed := Ramp.const 0 } else c,
    buses := s.buses.map fun b => if fresh.contains (.bus b.n) && shedOwn s n (.bus b.n) then { b with shed := Ramp.const 0 } else b }

/-- The banks of feeds: a new feed's bank A holds the unit impulse, a removed feed's banks are gone (R161). -/
def admitBanks (was : State) (ks : List Nat) (s : State) : State :=
  let s := { s with fw := { s.fw with banks := s.fw.banks.filter fun b => ks.contains b.feed } }
  ks.foldl (fun s k => if hasNode was.adm.cfg (.feed k) then s else s.setBank (impulseBank k s.clk.tally)) s

/-- The running state of every node under the configuration now in force. `s` holds it with its values; `was` is the state before. -/
def admitNodes (was : State) (fresh : List Node) (s : State) : State :=
  let c := s.adm.cfg
  let fk := declaredIdx c pickFeed 1024
  let s := admitBanks was fk s
  let s := { s with
    feeds := fk.map fun k =>
      match was.feedAt k with
      | none => newFeed s k
      | some fd => if fresh.contains (.feed k) then restartFeed s fd else fd,
    till := { s.till with waiting := s.till.waiting.filter fun w => fk.contains w.2 && !fresh.contains (.feed w.2) },
    render := { s.render with objs := keepOr fresh .object was.objAt (newObj s) (declaredIdx c pickObject 768) },
    chans := keepOr fresh .channel was.chanAt (newChannel s) (declaredIdx c pickChannel 512),
    buses := keepOr fresh .bus was.busAt (newBus s) (declaredIdx c pickBus 96),
    zones := keepOr fresh .zone (fun k => was.zones.find? fun z => z.n == k) (newZone s) (declaredIdx c pickZone 256),
    sais := keepOr fresh .sai was.saiAt (newSai s) (declaredIdx c pickSai 16),
    aesis := keepOr fresh .aesi was.aesiAt (newAesi s) (declaredIdx c pickAesi 4),
    pdms := keepOr fresh .pdm was.pdmAt (newPdm s) (declaredIdx c pickPdm 16) }
  let kept (g : GearId) : Option Gear := if fresh.any fun n => membersOf n |>.contains (gearNode g) then none else was.gearAt g
  let ids := ((List.range 16).map GearId.sai ++ (List.range 4).map GearId.aesi ++ (List.range 16).map GearId.pdm).filter fun g =>
    nodeExists s (gearNode g)
  let streams := c.nodes.map NodeRec.node
  let keptInst (p : List Name) : Option Inst := if fresh.contains (.inst p) then none else was.instAt p
  let s := { s with
    gears := ids.map fun g => (kept g).getD (newGear s g),
    gearTop := { s.gearTop with peak := 0 },
    net := { s.net with
      txs := streams.filterMap fun n => match n with
        | .tx m k => some (if fresh.contains n then newTx s m k else (was.net.txs.find? fun x => x.s == k).getD (newTx s m k))
        | _ => none,
      rxs := streams.filterMap fun n => match n with
        | .rx m k => some (if fresh.contains n then newRx s m k else (was.net.rxs.find? fun x => x.s == k).getD (newRx s m k))
        | _ => none },
    insts := (instPaths c).map fun p => (keptInst p).getD (newInst s p),
    tandems := c.tandems.map fun t => match was.tandems.find? fun x => x.path == t.path with
      | some x => if fresh.contains (.tandem t.path) then newTandem s t.path else x
      | none => newTandem s t.path }
  shedNew s fresh

/-! ### Ports of the network, pilot channels -/

/-- MACs: one left out loses its list, its queues and its clock; the declared list of a new or changed one is requested at the
boundary (R61, R372). -/
def admitMacs (was : State) (fresh : List Node) (s : State) : State :=
  (List.range 4).foldl (fun s n =>
    let on := admitted s (.net n)
    if fresh.contains (.net n) then requestGate n 0xF s
    else if admitted was (.net n) && !on then
      s.updMac n fun m => { m with gate := none, gateNext := none, operStart := 0, queues := List.replicate 8 [], ptp := 0 }
    else s) s

/-- Pilot channels (R441, R447). -/
def admitPilots (was : State) (fresh : List Node) (a : Nat) (s : State) : State :=
  (List.range 4).foldl (fun s n =>
    if fresh.contains (.pilot n) then admitPilot n a (!admitted was (.pilot n)) s
    else if admitted was (.pilot n) && !admitted s (.pilot n) then dropPilot n a s
    else s) s

/-- MEDIA_OFFSET under FIXED is FIXED_OFFSET from the admission (R386). -/
def admitOffset (s : State) : State :=
  if admitted s (.net 0) && pN s (.ptp 0) 0x110 == 1 && s.net.offset != some (fixedOffset s) then changeOffset (fixedOffset s) s else s

/-! ### Values that change on nodes that stay -/

/-- The parameters whose value differs between two states: an admission sets them as a commit at its boundary would (R243).
DEDUCED, log 44. -/
def changedWrites (was now : State) (ns : List Node) : List Write :=
  ns.flatMap fun n => ((specs n).filter fun p => p.by_ == .escrow).flatMap fun p =>
    (p.tags.filter fun t => (findVal was.vals n t).isSome || (findVal now.vals n t).isSome).filterMap fun t =>
      if param was n t == param now n t then none else some { node := n, tag := t, vals := param now n t }

/-- Nodes that run on through an admission: kept nodes with their members, the Bell path and the AES3 outputs. -/
def stayingNodes (a b : Cfg) (fresh : List Node) : List Node :=
  ((madeNodes b).filter fun n => hasNode a n && !fresh.contains n).flatMap membersOf ++
    (List.range 4).map Node.bellTrig ++ (List.range 64).map Node.bellRoute ++ (List.range 4).map Node.aeso

/-! ### The boundary -/

/-- An accepted admission takes effect (R251). -/
def admitNow (w : PendingAdm) (s0 : State) : State :=
  let a := w.at_
  let c := w.cfg
  let fresh := freshNodes s0 s0.adm.cfg c
  let v := under s0 c (admittedVals s0 c)
  let pl := (placedUnder s0 v).getD ([], [])
  let s := staleScenes v (disarmGone v s0)
  let s := fresh.foldl (fun s n => match n with
    | .feed f => abandonLoads f 2 a .boundary s
    | _ => s) s
  let s := revokeWhere (fun r => !nodeExists v r.node || (match r.tag with
    | some t => !(nodeTags v r.node).contains t
    | none => false)) a s
  let s := { s with
    vals := v.vals,
    adm := { s.adm with cfg := c, active := w.slot, admittedAt := a, waiting := none, place := pl.1, auditors := pl.2,
                        fadeIn := fresh, fadeOut := [] },
    ladder := { s.ladder with fades := s.ladder.fades.filter fun f => hasNode c f.1, silent := s.ladder.silent.filter (hasNode c) },
    snd := { s.snd with published := s.snd.published.filter fun p => hasNode c p.1 } }
  let s := admitNodes s0 fresh s
  let s := admitOffset (admitPilots s0 fresh a (admitMacs s0 fresh s))
  let s := writeEffects 0xF none s0 (changedWrites s0 s (stayingNodes s0.adm.cfg c fresh)) s
  let s := settleScale none s
  raiseEvent { code := 0x4001, kind := .boundary, stamp := a, node := some { node := .slot w.slot, tag := none }, source := w.mb,
               cls := eventClass s none w.mb, detail := w.slot, items := [] } s

/-- The admission that waits for boundary `b` or an earlier one. -/
def applyAdmission (b : Nat) (s : State) : State :=
  match s.adm.waiting with
  | none => s
  | some w => if b < w.at_ then s else admitNow w s

end Sys2Proof.Machine
end

