-- ==== Sys2Proof/Machine/Compute.lean ====
section
/-! DEFINITION. The computation of a frame (R11 to R16, R78, R83, R157, R158, R193 to R195, R210, R245, R251, R320, R511, R525):
channels, buses, objects and feeds with their tandems, and the output block. It reads the input block dispatched and the
parameters in force, and runs once, when the next frame boundary is reached. -/

namespace Sys2Proof.Machine

/-! ### Gains on node outputs (R251, R511, R523) -/

/-- The gain of a linear fade of `len` samples at sample `i`. -/
def fadeOutAt (len i : Nat) : Rat := if len ≤ i + 1 then 0 else 1 - ((i + 1 : Nat) : Rat) / ((len : Nat) : Rat)
def fadeInAt (len i : Nat) : Rat := if len ≤ i + 1 then 1 else ((i + 1 : Nat) : Rat) / ((len : Nat) : Rat)

/-- The admission fades of a node in the frame dispatched at `t`, sample `k`. -/
def admGain (s : State) (n : Node) (t k : Nat) : Rat :=
  let into : Rat :=
    if s.adm.active ≠ 0xFFFF && s.adm.fadeIn.contains n && decide (s.adm.admittedAt ≤ t) && decide (t < s.adm.admittedAt + frames 2) then
      fadeInAt 32 ((t - s.adm.admittedAt) / 512 + k)
    else 1
  let out : Rat := match s.adm.waiting with
    | some w => if s.adm.fadeOut.contains n && decide (t < w.at_) && decide (w.at_ ≤ t + frames 2) then
        fadeOutAt 32 ((t + frames 2 - w.at_) / 512 + k) else 1
    | none => 1
  into * out

/-- The fades of R511 and of the ladder on a node in the frame released at `r`, sample `k`. -/
def ladderGain (s : State) (n : Node) (r k : Nat) : Rat :=
  (s.ladder.fades.filter fun f => f.1 == n && decide (f.2.1 ≤ r)).foldl (fun g f =>
    let i := (r - f.2.1) / 512 + k
    g * (if f.2.2.2 then fadeInAt (16 * f.2.2.1) i else fadeOutAt (16 * f.2.2.1) i)) 1

/-- The fades of R511 on a channel of the output block released at `r`, sample `k`. -/
def wordGain (s : State) (w : Word) (r k : Nat) : Rat :=
  (s.ladder.outFades.filter fun f => f.1 == w && decide (f.2.1 ≤ r)).foldl (fun g f =>
    let i := (r - f.2.1) / 512 + k
    g * (if f.2.2.2 then fadeInAt (16 * f.2.2.1) i else fadeOutAt (16 * f.2.2.1) i)) 1

/-- The spokes that carry a node, as placed. -/
def spokesWith (s : State) (n : Node) : List Nat :=
  match s.adm.place.find? fun e => e.1 == n with
  | none => []
  | some e => e.2.1 :: e.2.2.toList

/-- A node whose output is exact zeros: silenced, or carried by aborted spokes only (R16; log 47). -/
def zeroed (s : State) (n : Node) : Bool :=
  s.ladder.silent.contains n || (!(spokesWith s n).isEmpty && (spokesWith s n).all s.snd.aborted.contains)

/-- The factor on a node's output at sample `k` of the frame dispatched at `t`. -/
def outGain (s : State) (n : Node) (t k : Nat) : Rat := if zeroed s n then 0 else admGain s n t k * ladderGain s n (t + frameTicks) k

/-- The port or stream that a channel of the output block belongs to. -/
def wordNode (s : State) (w : Word) : Option Node :=
  match fld w 28 4 with
  | 3 => outOfIndex (fld w 0 16)
  | 4 => txNode s (fld w 0 16 / 64)
  | _ => none

/-- Sample `k` of a node's output as ALARM resolution decides it, or as computed (R253). -/
def resolved (s : State) (n : Node) (k : Nat) (x : Int) : Int :=
  match findKey n s.alarm.outs with
  | some o => o.getD k 0
  | none => x

/-- The output of a node: resolution, then its fades, formed exactly and reduced once (R251). -/
def nodeOut (s : State) (n : Node) (t : Nat) (xs : List Int) : List Int :=
  xs.zipIdx.map fun p =>
    let y := resolved s n p.2 p.1
    let g := outGain s n t p.2
    if g = 1 then y else (reduceRat ((y : Rat) * g)).1

/-! ### Tandems (R78, R80 to R83, R244, R245, R302) -/

/-- What evaluating tandems finds: the outputs, and the inputs of every member met. -/
structure TandemRun where
  outs : List (List Int)
  seen : List (Node × List (List Int))

def silence : List Int := List.replicate 16 0

/-- The bypass path: input i to output i, delayed by LATENCY; other outputs carry zeros. -/
def bypassPath (lat : Nat) (past ins : List (List Int)) (outputs : Nat) : List (List Int) :=
  (List.range outputs).map fun i =>
    match ins[i]? with
    | none => silence
    | some x => let line := pushAll x (past.getD i []) (lat + 16); (List.range 16).map fun k => delayed line k lat

/-- Mix processed and bypassed outputs. -/
def bypassMix (f : Fade Nat) (wet dry : List (List Int)) : List (List Int) :=
  wet.zipIdx.map fun p => (List.range 16).map fun k => f.mix k fun b => if b = 1 then (dry.getD p.2 silence).getD k 0 else p.1.getD k 0

/-- The outputs of a stage instance: what it published, its bypass path, or zeros (R78, R300, R302, R303). -/
def instOuts (s : State) (p : List Name) (ins : List (List Int)) : List (List Int) :=
  let h := imageHdr (instImage s p)
  let own := (List.range h.outputs).map fun i => (((findKey (Node.inst p) s.snd.published).getD [])[i]?).getD silence
  let wet := match findKey (Node.inst p) s.alarm.outs with
    | some o => (List.range h.outputs).map fun i => (List.range 16).map fun k => o.getD (16 * i + k) 0
    | none => own
  match s.instAt p with
  | none => wet
  | some x =>
    let dry := bypassPath h.latency x.past ins h.outputs
    if x.faulted then dry else bypassMix x.byp wet dry

/-- Outputs of member `m` port `q`, or of the tandem's own inputs. -/
def wireValue (ins : List (List Int)) (vals : List (Nat × List (List Int))) (m q : Nat) : List Int :=
  if m = 0xFF then ins.getD q silence else ((findKey m vals).getD []).getD q silence

/-- The inputs of a member. -/
def memberIns (t : Tandem) (ins : List (List Int)) (vals : List (Nat × List (List Int))) (m count : Nat) : List (List Int) :=
  (List.range count).map fun q =>
    match t.wires.find? fun w => w.snk == m && w.snkPort == q with
    | some w => wireValue ins vals w.src w.srcPort
    | none => silence

/-- Run the members whose sources have run, in rounds. -/
def memberRounds (t : Tandem) (ins : List (List Int)) (run : Nat → List (Nat × List (List Int)) → TandemRun) :
    Nat → List Nat → List (Nat × List (List Int)) → List (Node × List (List Int)) →
    List (Nat × List (List Int)) × List (Node × List (List Int))
  | 0, _, vals, seen => (vals, seen)
  | k + 1, left, vals, seen =>
    let ready := left.filter fun m => !(t.wires.any fun w => w.snk == m && left.contains w.src)
    let rs := ready.map fun m => (m, run m vals)
    memberRounds t ins run k (left.filter fun m => !ready.contains m) (vals ++ rs.map fun r => (r.1, r.2.outs))
      (seen ++ rs.flatMap fun r => r.2.seen)

/-- One tandem; `k` bounds the nesting (R79). -/
def tandemRun (s : State) : Nat → List Name → List (List Int) → TandemRun
  | 0, _, ins => { outs := ins, seen := [] }
  | k + 1, p, ins =>
    match tandemAt s p with
    | none => { outs := ins, seen := [] }
    | some t =>
      let run (m : Nat) (vals : List (Nat × List (List Int))) : TandemRun :=
        match t.members[m]? with
        | none => { outs := [], seen := [] }
        | some mem =>
          let q := p ++ [mem.name]
          let mi := memberIns t ins vals m (memberPorts s t mem).1
          if mem.stage.isSome then { outs := instOuts s q mi, seen := [(.inst q, mi)] } else tandemRun s k q mi
      let r := memberRounds t ins run t.members.length (List.range t.members.length) [] []
      let wet := (List.range t.outputs).map fun q =>
        match t.wires.find? fun w => w.snk == 0xFF && w.snkPort == q with
        | some w => wireValue ins r.1 w.src w.srcPort
        | none => silence
      let outs := match s.tandems.find? fun x => x.path == p with
        | none => wet
        | some x => bypassMix x.byp wet (bypassPath (latOf s 9 p) x.past ins t.outputs)
      { outs := outs, seen := (.tandem p, ins) :: r.2 }

/-- The tandem inserted in a strip or a feed. -/
def insertedIn (s : State) (host : Node) : Option (List Name) :=
  (s.adm.cfg.tandems.find? fun t => t.insert == some host).map Tandem.path

/-- The signal after the insert point of a host, and the inputs met. -/
def insertRun (s : State) (t : Nat) (host : Node) (x : Sig) : Sig × List (Node × List (List Int)) :=
  match insertedIn s host with
  | none => (x, [])
  | some p =>
    let r := tandemRun s 9 p [x.map (·.1)]
    let y := nodeOut s (.tandem p) t (r.outs.getD 0 silence)
    ((y.zip x).map fun q => (q.1, q.2.2), r.seen)

/-! ### Strips -/

/-- A channel computed: the strip moved on, its taps, its clipped samples, and the inputs its tandem met. -/
structure ChanRun where
  chan : Channel
  taps : Taps
  clip : Nat
  seen : List (Node × List (List Int))

def runChannel (s : State) (t : Nat) (c : Channel) : ChanRun :=
  let n := Node.channel c.n
  let f := chanFront s c
  let i := insertRun s t n f.2.1
  let b := chanBack f.1 i.1 (pN s n 0x140)
  let pre := nodeOut s n t b.2.1.pre
  let mid := (rampStage c.mute (pre.map fun x => (x, false))).map (·.1)
  let post := (rampStage c.fader (mid.map fun x => (x, false))).map (·.1)
  { chan := b.1, taps := { pre := pre, mid := mid, post := post }, clip := b.2.2, seen := i.2 }

structure BusRun where
  bus  : Bus
  old  : Bus
  out  : List Int
  clip : Nat
  seen : List (Node × List (List Int))

/-- A bus computed from the channels. -/
def runBus (s : State) (t : Nat) (cs : List ChanRun) (olds : List Channel) (b : Bus) : BusRun :=
  let n := Node.bus b.n
  let parts := (cs.zip olds).flatMap fun c => c.2.sends.map fun d => sendPart c.1.taps d (sendsTo b.n)
  let f := busFront b (sumParts parts)
  let i := insertRun s t n f.2
  let k := busBack f.1 i.1
  { bus := k.1, old := b, out := nodeOut s n t k.2.1, clip := k.2.2, seen := i.2 }

/-! ### Objects (R123, R152, R525) -/

structure ObjRun where
  obj   : Obj
  parts : List (Nat × Part)
  line  : List Int

/-- A source for objects: a bus output, or the input block. -/
def objSource (s : State) (bs : List BusRun) (w : Word) (k : Nat) : Int :=
  if fld w 28 4 = 1 then (((bs.find? fun b => b.old.n == fld w 0 16).map BusRun.out).getD []).getD k 0 else sourceAt s w k

/-- The zone-mono form of an object: the signal with its gain, to each member feed of its zone at 1 ÷ √N, or to its point-law feed
at gain 1. Log 48. -/
def monoParts (s : State) (o : Obj) (x : List Int) : List (Nat × Part) :=
  let y : Part := (x.zip o.gain.frame).map fun p => (p.1 : Rat) * ((p.2 : Int) : Rat) / ((gainUnit : Int) : Rat)
  let z := pN s (.object o.n) 0x113
  if z < 256 then
    let fs := zoneFeeds s (zoneUsed s z)
    let g : Rat := ((autoScale 2 fs.length : Int) : Rat) / 134217728
    fs.map fun f => (f, y.map (· * g))
  else match o.near with
    | some f => [(f, y)]
    | none => []

def runObject (s : State) (t : Nat) (bs : List BusRun) (o : Obj) : ObjRun :=
  let n := Node.object o.n
  let r := objFrame s (objSource s bs) o
  let x := (r.1.line.take 16).reverse
  let voice := classOf s n == some 1
  let m := s.ladder.mono
  let w (b k : Nat) : Rat := if voice then fadeRat m k (fun v => if v = b then 1 else 0) else if b = 0 then 1 else 0
  let scale (b : Nat) (p : Part) : Part := p.zipIdx.map fun e => e.1 * w b e.2
  let all := (r.2.map fun e => (e.1, scale 0 e.2)) ++
    (if voice && (m.running || m.new == 1) then (monoParts s o x).map fun e => (e.1, scale 1 e.2) else [])
  let out := all.zipIdx.map fun e => (e.1.1, e.1.2.zipIdx.map fun p =>
    let v : Rat := match findKey n s.alarm.outs with
      | some o => ((o.getD (16 * e.2 + p.2) 0 : Int) : Rat)
      | none => p.1
    v * outGain s n t p.2)
  { obj := r.1, parts := out, line := x }

/-! ### Feeds (R157, R158) -/

structure FeedRun where
  feed : Feed
  out  : List Int
  clip : Nat
  seen : List (Node × List (List Int))

/-- What a bus delivers where a test accepts its route (R210). -/
def busParts (s : State) (amb : Bool) (bs : List BusRun) (dst : Word → Bool) : List Part :=
  bs.flatMap fun b => b.old.dests.map fun d => destPart s (classOf s (.bus b.old.n) == some 0) b.out d amb dst

/-- A bus route reaches a feed: by its zone, or by itself. -/
def reachesFeed (s : State) (f : Nat) (w : Word) : Bool :=
  (fld w 28 4 == 1 && inZone s f (fld w 0 16)) || (fld w 28 4 == 2 && fld w 0 16 == f)

def runFeed (s : State) (t : Nat) (bs : List BusRun) (os : List ObjRun) (fd : Feed) : FeedRun :=
  let n := Node.feed fd.n
  let render := reducePart (sumParts (os.flatMap fun o => (o.parts.filter fun p => p.1 == fd.n).map (·.2)))
  let both := reducePart (sumParts (render.map (fun r => (r.1 : Rat)) :: busParts s true bs (reachesFeed s fd.n)))
  let f := feedFront s fd ((both.zip render).map fun p => (p.1.1, p.1.2 || p.2.2))
  let i := insertRun s t n f.2
  let b := feedBack s f.1 i.1
  { feed := b.1, out := nodeOut s n t b.2.1, clip := b.2.2, seen := i.2 }

/-! ### The output block (R210, R320) -/

/-- Everything routed to an output word by direct outs and destinations, exact. -/
def outParts (s : State) (cs : List ChanRun) (olds : List Channel) (bs : List BusRun) (w : Word) : List Part :=
  (cs.zip olds).map (fun c => sendPart c.1.taps c.2.direct (goesTo w)) ++ busParts s true bs (goesTo w)

/-- The TX_FEED part of a port channel. -/
def txPart (fs : List FeedRun) (f : Fade Nat) : Part :=
  (List.range 16).map fun k => fadeRat f k fun n => ((((fs.find? fun x => x.feed.n == n).map FeedRun.out).getD []).getD k 0 : Int)

/-- The port channels of the configuration with their TX_FEED fades. -/
def portOuts (s : State) : List (Word × Fade Nat) :=
  (s.sais.flatMap fun x => x.tx.zipIdx.map fun e => (wd (0x30000000 + chanIndex (.sai x.n) e.2), e.1)) ++
    s.aesos.flatMap fun x => x.tx.zipIdx.map fun e => (wd (0x30000000 + chanIndex (.aesi x.n) e.2), e.1)

/-- The stream channels of the configuration. -/
def streamOuts (s : State) : List Word :=
  s.net.txs.flatMap fun x => (List.range (pN s (.tx x.mac x.s) 0x107)).map fun c => wd (0x40000000 + 64 * x.s + c)

/-- The recorder taps that are ON, with their feeds (R527). -/
def tapOuts (s : State) : List (Word × Nat) :=
  (List.range 64).filterMap fun i =>
    let w := pW s .ledgerEvent (0x200 + i) 0
    if w.getLsbD 31 then some (wd (0x50000000 + i), fld w 0 16) else none

/-! ### A frame -/

/-- What V of an AES3 output channel is to be (R336): 0, 1, or 2 for AUTO without a feed and without a committed delivery, where a bell
message decides. -/
def validCode (s : State) (n c : Nat) : Nat :=
  let w := wd (0x30000000 + chanIndex (.aesi n) c)
  let routed (f : Fade Word) : Bool := goesTo w (f.pending.getD f.new)
  match pN s (.aeso n) 0x104 with
  | 0 =>
    if pN s (.aeso n) (0x110 + c) = 0xFFFF && !(s.chans.any fun x => routed x.direct.route) &&
        !(s.buses.any fun b => b.dests.any fun d => routed d.route) then 2 else 0
  | 1 => 0
  | _ => 1

/-- The V codes of the channels of admitted AES3 outputs, of every sample of the frame. -/
def validOuts (s : State) : List (Word × List Int) :=
  (s.aesos.filter fun x => admitted s (.aeso x.n)).flatMap fun x =>
    (List.range 2).map fun c =>
      (wd (0x60000000 + chanIndex (.aesi x.n) c), List.replicate 16 ((validCode s x.n c : Nat) : Int))

/-- The inputs an instance or a tandem has met, kept for its bypass path. -/
def notePast (s : State) (seen : List (Node × List (List Int))) : State :=
  let keep (lat : Nat) (n : Node) (past : List (List Int)) : List (List Int) :=
    match findKey n seen with
    | none => past
    | some ins => ins.zipIdx.map fun x => pushAll x.1 (past.getD x.2 []) (lat + 16)
  { s with
    insts := s.insts.map fun x =>
      { x with past := keep (imageHdr (instImage s x.path)).latency (.inst x.path) x.past, byp := x.byp.advance },
    tandems := s.tandems.map fun x => { x with past := keep (latOf s 9 x.path) (.tandem x.path) x.past, byp := x.byp.advance } }

/-- A sensor that R217 does not count: its port DEAD, its block WARMUP, its source shed. -/
def deadSensor (s : State) (w : Word) : Bool :=
  let i := fld w 0 16
  s.snd.compWarm.contains w ||
  (match fld w 28 4 with
   | 2 | 4 => (portOfIndex i).any fun p => ((s.portAt p).map fun x => x.state == 4).getD true
   | _ => false) ||
  (sourceNode s w).any s.ladder.silent.contains

/-- The signal delivered to a zone (R218). -/
def deliveredTo (s : State) (bs : List BusRun) (os : List ObjRun) (z : Nat) : List Int :=
  let direct := busParts s false bs fun w => fld w 28 4 == 1 && fld w 0 16 == z
  let objs := (os.filter fun o => let k := pN s (.object o.obj.n) 0x113; decide (k < 256) && zoneUsed s k == z).map fun o =>
    o.line.map fun (x : Int) => (x : Rat)
  (sumParts (direct ++ objs)).map fun r => (reduceRat r).1

/-- Ambient tracking of every zone, with AMB_HELD where HELD changes to or from 2 (R217 to R219). -/
def ambAll (b : Nat) (bs : List BusRun) (os : List ObjRun) (s : State) : State :=
  s.zones.foldl (fun s z =>
    if sensorCount s z.n = 0 then s
    else
      let r := ambFrame s (deadSensor s) (deliveredTo s bs os z.n) z
      let s := s.updZone z.n fun _ => r.1
      if (z.held == 2) == (r.2 == 2) then s else raiseOwn 0x3007 .detect b (some (.zone z.n)) (b2n (r.2 == 2)) s) s

/-- The clipping events of strips and feeds (R152, R196). -/
def clipEvents (b : Nat) (cs : List ChanRun) (bs : List BusRun) (fs : List FeedRun) (s : State) : State :=
  let s := cs.foldl (fun s c => raiseLimited 0x3006 .boundary b (some (.channel c.chan.n)) c.clip [] s) s
  let s := bs.foldl (fun s c => raiseLimited 0x3006 .boundary b (some (.bus c.old.n)) c.clip [] s) s
  fs.foldl (fun s f => raiseLimited 0x1006 .boundary b (some (.feed f.feed.n)) f.clip [] s) s

/-! ### What depends on nodes (R511) -/

/-- A fade concerns a form that a test accepts. -/
def fadeHas {α : Type} (f : Fade α) (p : α → Bool) : Bool := p f.new || (f.running && p f.old)

/-- The channels, buses, objects and feeds whose value depends on nodes, by number. -/
structure Touched where
  chans : List Nat
  buses : List Nat
  objs  : List Nat
  feeds : List Nat

/-- The hosts of the instances among nodes. -/
def hostsOf (s : State) (ns : List Node) : List Node :=
  ns.filterMap fun n => match n with
    | .inst p => hostOf s p
    | _ => none

/-- What depends on nodes in the present frame (R157, R194, R210). -/
def touchedBy (s : State) (ns0 : List Node) : Touched :=
  let ns := ns0 ++ hostsOf s ns0
  let cs := (s.chans.filter fun c => ns.contains (.channel c.n)).map Channel.n
  let bs := (s.buses.filter fun b => ns.contains (.bus b.n) || s.chans.any fun c =>
    cs.contains c.n && c.sends.any fun d => fadeHas d.route (sendsTo b.n)).map Bus.n
  let os := (s.render.objs.filter fun o => ns.contains (.object o.n) ||
    fadeHas o.src fun w => fld w 28 4 == 1 && bs.contains (fld w 0 16)).map Obj.n
  let byBus (f : Nat) : Bool := s.buses.any fun b => b.dests.any fun d =>
    fadeHas d.route (reachesFeed s f) && (bs.contains b.n || ns.contains (.zone d.zone))
  let byObj (f : Nat) : Bool := s.render.objs.any fun o => os.contains o.n &&
    (o.slots.any (fun x => (x.map fun y => y.feed == f).getD false) || (monoParts s o []).any fun p => p.1 == f)
  let fs := (s.feeds.filter fun f => ns.contains (.feed f.n) || byBus f.n || byObj f.n).map Feed.n
  { chans := cs, buses := bs, objs := os, feeds := fs }

/-- The channels of the output block that depend on nodes: feeds, port slots, stream channels and recorder taps. A pilot code follows
its feed. -/
def touchedWords (s : State) (ns : List Node) : List Word :=
  let t := touchedBy s ns
  let routed (w : Word) : Bool :=
    (s.chans.any fun c => t.chans.contains c.n && fadeHas c.direct.route (goesTo w)) ||
      s.buses.any fun b => b.dests.any fun d => fadeHas d.route (goesTo w) && (t.buses.contains b.n || ns.contains (.zone d.zone))
  (t.feeds.map fun f => wd (0x20000000 + f)) ++
    ((portOuts s).filter fun p => routed p.1 || fadeHas p.2 t.feeds.contains).map (·.1) ++
    (streamOuts s).filter routed ++
    ((tapOuts s).filter fun p => routed p.1 || t.feeds.contains p.2).map (·.1)

/-- The sources of the running frame that carry WARMUP, as the strips and objects that read them. -/
def warmNodes (s : State) : List Node :=
  (s.chans.filter fun c => fadeHas c.src s.snd.compWarm.contains).map (fun c => Node.channel c.n) ++
    (s.render.objs.filter fun o => fadeHas o.src s.snd.compWarm.contains).map fun o => Node.object o.n

/-- Compute the frame dispatched at `t` and put its output block in the hub, released at `t + 8192`. -/
def computeFrame (t : Nat) (s : State) : State :=
  let warm := touchedWords s (warmNodes s)
  let olds := s.chans
  let cs := s.chans.map (runChannel s t)
  let bs := s.buses.map (runBus s t cs olds)
  let os := s.render.objs.map (runObject s t bs)
  let fs := s.feeds.map (runFeed s t bs os)
  let sum (w : Word) (more : List Part) : List Int := (reducePart (sumParts (outParts s cs olds bs w ++ more))).map (·.1)
  let feedPart (n : Nat) : List Part := ((fs.find? fun x => x.feed.n == n).map fun x => x.out.map fun (v : Int) => (v : Rat)).toList
  let out := fs.map (fun f => (wd (0x20000000 + f.feed.n), f.out)) ++
    (portOuts s).map (fun p => (p.1, sum p.1 [txPart fs p.2])) ++ (streamOuts s).map (fun w => (w, sum w [])) ++
    (tapOuts s).map (fun p => (p.1, sum p.1 (feedPart p.2)))
  let out := out.map fun e => (e.1, e.2.zipIdx.map fun p =>
    let g := wordGain s e.1 (t + frameTicks) p.2 * ((wordNode s e.1).map fun n => outGain s n t p.2).getD 1
    if g = 1 then p.1 else (reduceRat ((p.1 : Rat) * g)).1)
  let s := ambAll (t + frameTicks) bs os s
  let s := clipEvents t cs bs fs s
  let s := notePast s (cs.flatMap ChanRun.seen ++ bs.flatMap BusRun.seen ++ fs.flatMap FeedRun.seen)
  { s with
    chans := cs.map ChanRun.chan, buses := bs.map BusRun.bus, feeds := fs.map FeedRun.feed,
    render := { s.render with objs := os.map ObjRun.obj },
    sais := s.sais.map fun x => { x with tx := x.tx.map Fade.advance },
    aesos := s.aesos.map fun x => { x with tx := x.tx.map Fade.advance },
    ladder := { s.ladder with mono := s.ladder.mono.advance },
    snd := { s.snd with out := out ++ validOuts s, outStamp := t + frameTicks, outWarm := warm } }

/-- The starting state of the next frame where exactly one copy of an ALARM instance has faulted, or a copy has lost: the other
copy's (R254, R304). -/
def takeState (s : State) (i : Inst) : Inst :=
  let place := (s.adm.place.find? fun e => e.1 == Node.inst i.path).map (·.2)
  let lost (c : Nat) : Bool := s.alarm.resync.any fun r => r.1 == Node.inst i.path &&
    (place.map fun p => if c = 0 then r.2 == p.1 else p.2 == some r.2).getD false
  let failed (c : Nat) : Bool := i.now.any fun f => f.1 == c
  let from_ (c : Nat) : Bool := lost c || (failed c && !failed (1 - c))
  match i.copies with
  | [a, b] =>
    let i := { i with copies := if from_ 0 && !from_ 1 then [{ a with state := b.state }, b]
                                else if from_ 1 then [a, { b with state := a.state }] else [a, b] }
    { i with now := [], ran := [] }
  | _ => { i with now := [], ran := [] }

/-- An instance is FAULTED from this boundary: its primary copy has faulted 3 times within 3000 frames (R303). -/
def becomesFaulted (i : Inst) : Bool := !i.faulted && decide (3 ≤ i.faultFrames.length)

/-- Instances at the end of the frame dispatched at `t` (R303, R304). -/
def closeInsts (t : Nat) (s : State) : State :=
  let split := s.insts.filter fun i => match i.now.find? (·.1 == 0), i.now.find? (·.1 == 1) with
    | some a, some b => a.2 != b.2
    | _, _ => false
  let s := split.foldl (fun s i => raiseOwn 0x4003 .boundary t (some (.inst i.path)) 3
    (s.updFault fun f => { f with code4At := some s.clk.tally })) s
  let s := (s.insts.filter becomesFaulted).foldl (fun s i => raiseOwn 0xA00B .boundary s.clk.tally (some (.inst i.path)) i.code s) s
  { s with
    insts := s.insts.map fun i => let j := takeState s i; if becomesFaulted i then { j with faulted := true } else j,
    alarm := { s.alarm with resync := [] } }

/-- The running frame ends at the boundary reached: it is computed and its output block released (R11, R15). -/
def closeRunning (s : State) : State :=
  match s.snd.running with
  | none => s
  | some t =>
    if s.clk.tally ≤ t then s
    else
      let s := closeInsts t (countAlarm (computeFrame t (lossFades (t + frameTicks) (closeMark t s))))
      { s with snd := { s.snd with running := none, complete := [], aborted := [], published := [] },
               alarm := { s.alarm with marked := false, open_ := [], outs := [], bad := false } }

/-- Sixteen samples, the missing ones zeros (R16). -/
def pad16 (xs : List Int) : List Int := (xs ++ List.replicate 16 0).take 16

/-- The input block of the frame that has been gathered is complete, with the blocks the gear unit makes of that frame (R11, R346). A
frame of which no sample came in has an empty block. -/
def rotateGather (s : State) : State :=
  let n := s.clk.tally / frameTicks
  if n ≤ s.snd.gatherN then s
  else
    let blk := if s.snd.gatherN + 1 = n then s.snd.gather.map fun e => (e.1, pad16 e.2) else []
    gearBlocks ((n - 1) * frameTicks) { s with snd := { s.snd with inBlk := blk, warm := [], gather := [], gatherN := n } }

/-- At a frame boundary, before anything of it changes a parameter: the running frame ends, and the next input block is complete. It
does so once. -/
def closeFrame (s : State) : State := if atFrame s then rotateGather (closeRunning s) else s

/-! ### The work of a boundary, in the order of R15, R181 and R251 -/

/-- Everything at a frame boundary up to and with the commits: fades and pending requests, the admission, the commits. Each part is
done once, whichever command comes first. -/
def boundaryWork (s : State) : State :=
  let b := s.clk.tally
  if !atFrame s then s else settleTill (applyDue b (applyAdmission b (settleFades b (closeFrame s))))

/-- COMMIT_APPLY (R96): the commits armed for the boundary. -/
def execCommitApply (s : State) : Host.Outcome State Fault Refusal := .next (boundaryWork s)

/-- ADMISSION_APPLY (R251): the admission that waits for the boundary, before its commits. -/
def execAdmissionApply (s : State) : Host.Outcome State Fault Refusal :=
  .next (if atFrame s then applyAdmission s.clk.tally (settleFades s.clk.tally (closeFrame s)) else s)

/-- SWAP_DONE. -/
def execSwapDone (u : SwapUnit) (s : State) : Host.Outcome State Fault Refusal :=
  .next (if atFrame s then settleUnit u (closeFrame s) else s)

/-- ROUTE_FADE_END. -/
def execRouteFadeEnd (n : Node) (tag : Nat) (s : State) : Host.Outcome State Fault Refusal :=
  .next (if atFrame s then endRouteFade n tag (closeFrame s) else s)

/-- SCENE_DONE (R231): the scene fade whose end has come ends, and the pending request starts. -/
def execSceneDone (s : State) : Host.Outcome State Fault Refusal :=
  .next (if atFrame s then settleScene s.clk.tally (closeFrame s) else s)

end Sys2Proof.Machine
end

