-- ==== Sys2Proof/Machine/Ladder.lean ====
section
/-! DEFINITION. The shedding ladder (R523 to R526): what a step does when it is taken and undone, LADDER_EVALUATE and
LADDER_UNDO. -/

namespace Sys2Proof.Machine

/-! ### Nodes a step sheds -/

/-- Every node with an output or an input of its own: the declared nodes and the gear channels. -/
def ladderNodes (s : State) : List Node := s.adm.cfg.nodes.map NodeRec.node ++ s.gears.map fun g => gearNode g.id

/-- A MEDIA strip, whose shed ramp R234 gives. -/
def mediaStrip (s : State) (n : Node) : Bool :=
  classOf s n == some 2 && match n with
    | .channel _ => true
    | .bus _ => true
    | _ => false

/-- The nodes that step `k` sheds by a fade of their own. -/
def stepNodes (s : State) (k : Nat) : List Node :=
  (ladderNodes s).filter fun n => shedOwn s k n && !shedOwn s (k - 1) n && !mediaStrip s n

/-- A node computed on spokes starts anew; instances go with their host. -/
def withInsts (s : State) (ns : List Node) : List Node :=
  (ns.filter fun n => match n with
    | .object _ => true
    | .feed _ => true
    | .channel _ => true
    | .bus _ => true
    | .zone _ => true
    | .inst _ => true
    | _ => false) ++
    ((instPaths s.adm.cfg).filter fun p => ((hostOf s p).map ns.contains).getD false).map Node.inst

/-- Nodes restart with cleared state, as at admission (R511). -/
def restartNodes (ns : List Node) (s : State) : State :=
  if ns.isEmpty then s else { admitNodes s ns s with gearTop := s.gearTop, till := s.till }

/-- Fade nodes out from the frame dispatched at `b`, over `k` frames. -/
def fadeNodesOut (b k : Nat) (ns : List Node) (s : State) : State :=
  let more := ns.map fun n => (n, b + frameTicks, k, false)
  { s with ladder := { s.ladder with fades := s.ladder.fades.filter (fun f => !ns.contains f.1) ++ more } }

/-- Fade nodes in from the frame dispatched at `b`, over `k` frames. -/
def fadeNodesIn (b k : Nat) (ns : List Node) (s : State) : State :=
  let more := ns.map fun n => (n, b + frameTicks, k, true)
  { s with ladder := { s.ladder with fades := s.ladder.fades.filter (fun f => !ns.contains f.1) ++ more } }

/-! ### Steps -/

/-- The feeds of a class lower than VOICE. -/
def lowFeed (s : State) (fd : Feed) : Bool := classOf s (.feed fd.n) == some 2 || classOf s (.feed fd.n) == some 3

/-- What step `k` does at boundary `b`. -/
def takeStep (b k : Nat) (s : State) : State :=
  match k with
  | 1 => fadeNodesOut b 2 (stepNodes s 1) s
  | 2 => shedStrips (fadeNodesOut b 2 (stepNodes s 2) s)
  | 3 => shedTails 3 (lowFeed s) s
  | 4 => shedTails 4 (fun _ => true) s
  | 5 => { s with render := { s.render with wanted := 2 } }
  | 6 => { s with ladder := { s.ladder with mono := s.ladder.mono.start 1 2 } }
  | 7 => fadeNodesOut b 2 (stepNodes s 7) s
  | _ => s

/-- What undoing step `k` does at boundary `b`: shed nodes restart and fade in as they faded out. DEDUCED, log 61. -/
def undoStep (b k : Nat) (s : State) : State :=
  let back (ns : List Node) (s : State) : State :=
    restartNodes (withInsts s ns) (fadeNodesIn b 2 (ns.filter fun n => !s.ladder.silent.contains n) s)
  match k with
  | 1 => back (stepNodes s 1) s
  | 2 => restoreStrips (back (stepNodes s 2) s)
  | 3 => restoreTails 3 (lowFeed s) s
  | 4 => restoreTails 4 (fun fd => !lowFeed s fd) s
  | 5 => { s with render := { s.render with wanted := 1 } }
  | 6 => { s with ladder := { s.ladder with mono := s.ladder.mono.start 0 2 } }
  | 7 => back (stepNodes s 7) s
  | _ => s

/-- The position moves to `n` at boundary `b`. -/
def moveTo (b n : Nat) (s : State) : State := { s with ladder := { s.ladder with pos := n, changed := b } }

/-- The steps above the position up to `n`, ascending, with LADDER_STEP for each; `unfit` marks the last. -/
def takeSteps (b n : Nat) (unfit : Bool) (s : State) : State :=
  let ks := (List.range 8).filter fun k => decide (s.ladder.pos < k) && decide (k ≤ n)
  let s' := ks.foldl (fun s k =>
    raiseOwn 0xA009 .boundary b none (k + 256 + (if unfit && k == n then 32768 else 0)) (moveTo b k (takeStep b k s))) s
  let s' := if unfit && ks.isEmpty then raiseOwn 0xA009 .boundary b none (s.ladder.pos + 32768) s' else s'
  if ks.isEmpty then s' else settleScale none s'

/-- The smallest position from the present one at which the check of R524 passes. -/
def neededStep (s : State) : Option Nat :=
  (List.range 8).find? fun n => decide (s.ladder.pos ≤ n) && (ladderFails s n false).isNone

/-- The evaluation of R524 at boundary `b`: the steps needed; all of them, marked, where ALARM work itself does not fit. -/
def evaluateLadder (b : Nat) (s : State) : State :=
  match neededStep s with
  | some n => takeSteps b n false s
  | none => takeSteps b 7 true s

/-- The ladder may move: the firmware serves (R518) and no re-placement is pending (R524). -/
def ladderFree (s : State) : Bool := s.serving && s.ladder.replacing.isNone && atFrame s

/-- LADDER_EVALUATE. -/
def execLadderEvaluate (s : State) : Host.Outcome State Fault Refusal :=
  .next (if ladderFree s then evaluateLadder s.clk.tally (closeFrame s) else s)

/-- One step undone at boundary `b` (R525). -/
def undoOne (b : Nat) (s : State) : State :=
  let k := s.ladder.pos
  let s := undoStep b k s
  settleScale none (raiseOwn 0xA009 .boundary b none (k - 1) (moveTo b (k - 1) s))

/-- The conditions of R525 for undoing the highest step: 30 000 frames since the last change, and the check passes without it with a
tenth of every limit to spare. -/
def mayUndo (s : State) : Bool :=
  s.ladder.pos != 0 && decide (s.ladder.changed + frames 30000 ≤ s.clk.tally) && (ladderFails s (s.ladder.pos - 1) true).isNone

/-- LADDER_UNDO, checked every 3000 frames. -/
def execLadderUndo (s : State) : Host.Outcome State Fault Refusal :=
  .next (if ladderFree s && decide (s.ladder.checked + frames 3000 ≤ s.clk.tally) then
      let s := closeFrame s
      let s := { s with ladder := { s.ladder with checked := s.clk.tally } }
      if mayUndo s then undoOne s.clk.tally s else s
    else s)

end Sys2Proof.Machine
end

