-- ==== Sys2Proof/Machine/Fault.lean ====
section
/-! DEFINITION. Retirement and spares (R509 to R515), the loss of a DRAM channel (R436, R519), gear faults (R540), teller pairs
(R516, R517) and the fault outputs (R521, R522). -/

namespace Sys2Proof.Machine

/-! ### Fades of a loss (R511) -/

/-- The fades of R511 around boundary `b`: the block released at `b` fades out, the next one in. -/
def fadeWords (b : Nat) (ws : List Word) (s : State) : State :=
  let faded (xs : List Int) : List Int := xs.zipIdx.map fun p => (reduceRat ((p.1 : Rat) * fadeOutAt 16 p.2)).1
  let out := if s.snd.outStamp = b then s.snd.out.map fun e => if ws.contains e.1 then (e.1, faded e.2) else e else s.snd.out
  let more := ws.map fun w => (w, b + frameTicks, 1, true)
  { s with snd := { s.snd with out := out }, ladder := { s.ladder with outFades := s.ladder.outFades ++ more } }

/-! ### Copies and auditors (R512) -/

/-- The instance copies that lived on spokes of a test take the other copy's state (R254). -/
def healCopies (dead : Nat → Bool) (s : State) : State :=
  { s with insts := s.insts.map fun i =>
      match copySpokes s (.inst i.path), i.copies with
      | some (a, b), [x, y] =>
        { i with copies := if dead a && !dead b then [{ x with state := y.state }, y]
                           else if dead b && !dead a then [x, { y with state := x.state }] else [x, y] }
      | _, _ => i }

/-- Auditors after spoke `x` has left the role AUDIT at boundary `b`. -/
def moveAuditors (b x : Nat) (s : State) : State :=
  let hit := s.adm.auditors.filter fun e => e.2 == x
  hit.foldl (fun s e =>
    let next := (copySpokes s e.1).bind fun p => auditorFor s p.1 p.2
    let rest := dropKey e.1 s.adm.auditors
    match next with
    | some y => { s with adm := { s.adm with auditors := rest ++ [(e.1, y)] } }
    | none => raiseOwn 0xA00E .boundary b (some e.1) x { s with adm := { s.adm with auditors := rest } }) s

/-! ### Retirement (R509 to R513) -/

def spokeNode (sp : Nat) : Node := .spoke (sp / 10) (sp % 10)

/-- The ROLE of a spoke. -/
def setRole (sp role : Nat) (s : State) : State := s.updSpoke sp fun x => { x with role := role }

/-- The spoke becomes RETIRED, and the mark persists. -/
def markRetired (sp : Nat) (s : State) : State :=
  (setRole sp 3 s).updFault fun f =>
    { f with retired := if f.retired.contains sp then f.retired else f.retired ++ [sp],
             doomed := f.doomed.filter fun d => d.1 != sp }

/-- The spare `x` takes the schedule of `sp` (R510, R515). -/
def takeSchedule (b sp x : Nat) (planned : Bool) (s : State) : State :=
  let dst (k : Nat) : Nat := if k = sp then x else k
  let s := setRole x 0 s
  let s := { s with adm := { s.adm with place := s.adm.place.map fun e => (e.1, dst e.2.1, e.2.2.map dst) } }
  let s := raiseOwn 0xA002 .boundary b (some (spokeNode x)) (sp + (if planned then 32768 else 0)) s
  moveAuditors b x s

/-- Retire one spoke at boundary `b`: its wheel's spare takes over, or its nodes fall silent until they are placed anew. -/
def retireSpoke (b sp : Nat) (s : State) : State :=
  let spare := if getsSpare s b sp then wheelSpare s b (sp / 10) else none
  let plain := plainOn s sp
  let ws := touchedWords s plain
  let s := raiseOwn 0xA001 .boundary b (some (spokeNode sp)) sp (markRetired sp s)
  let s := { s with plan := { s.plan with due := s.plan.due ||| 64 } }
  match spare with
  | some x => restartNodes plain (fadeWords b ws (healCopies (· == sp) s) |> takeSchedule b sp x false)
  | none =>
    { s with ladder := { s.ladder with silent := s.ladder.silent ++ plain, replacing := some (s.ladder.replacing.getD b) } }

/-- Every spoke to be retired at boundary `b`, in ascending order. -/
def retireAll (b : Nat) (s : State) : State := (doomedAt s b).foldl (fun s sp => retireSpoke b sp s) s

/-- SPOKE_RETIRED. -/
def execSpokeRetired (sp : Nat) (s : State) : Host.Outcome State Fault Refusal :=
  .next (if atFrame s && (doomedAt s s.clk.tally).contains sp then retireSpoke s.clk.tally sp (closeFrame s) else s)

/-- PLANNED_PROMOTION (R515): at its boundary P the spare takes the schedule and the state of a healthy spoke. -/
def execPlannedPromotion (sp : Nat) (s : State) : Host.Outcome State Fault Refusal :=
  if atFrame s && s.plan.promote.any fun e => e.1 == sp && decide (e.2 ≤ s.clk.tally) then
    let s := closeFrame s
    let s := { s with plan := { s.plan with promote := dropKey sp s.plan.promote } }
    match wheelSpare s s.clk.tally (sp / 10) with
    | some x => if isRetired s sp then .next s else .next (takeSchedule s.clk.tally sp x true (markRetired sp s))
    | none => .next s
  else .next s

/-! ### Placement after a retirement without a spare (R514) -/

/-- Where a node stays: its live spokes, and for a lost ALARM copy a spoke on another wheel than the copy that lives. -/
def keepLive (act : List Nat) (old : Nat × Option Nat) (new : Nat × Option Nat) : Nat × Option Nat :=
  let other (live : Nat) : Nat := if new.1 / 10 != live / 10 then new.1 else new.2.getD new.1
  match old.2 with
  | none => if act.contains old.1 then old else new
  | some b =>
    if act.contains old.1 && act.contains b then old
    else if act.contains old.1 then (old.1, some (other old.1))
    else if act.contains b then (other b, some b)
    else new

/-- The placement on the active spokes with the steps up to `n` taken. -/
def placeLive (s : State) (n : Nat) : Option Placement :=
  let act := activeSpokes s
  let peak (x : Node) : Nat := maxNat ((List.range 64).map fun p => cycAt s n p x)
  match Config.place ((placedNodes s).map fun x => (x, (purseOf s x).getD 0, peak x)) act with
  | none => none
  | some pl =>
    let pl' : Placement := pl.map fun e => match s.adm.place.find? fun o => o.1 == e.1 with
      | some o => (e.1, keepLive act o.2 e.2)
      | none => e
    if placementOk s pl' then some pl' else none

/-- The auditors of a placement: those that still serve stay. -/
def auditorsKept (s : State) (pl : Placement) : List (Node × Nat) :=
  (auditorsOf s pl).map fun e => match auditorOf s e.1, pl.find? fun o => o.1 == e.1 with
    | some x, some o =>
      if (auditSpokes s).contains x && o.2.1 / 10 != x / 10 && (o.2.2.map fun b => b / 10 != x / 10).getD true then (e.1, x) else e
    | _, _ => e

/-- A candidate: the AUDIT spoke promoted, if any, and the ladder position. -/
def tryPlace (s : State) (promo : Option Nat) (n : Nat) : Option (Placement × List (Node × Nat)) :=
  let s := match promo with
    | some x => setRole x 0 s
    | none => s
  match placeLive s n with
  | none => none
  | some pl =>
    let au := auditorsKept s pl
    if (ladderFails { s with adm := { s.adm with place := pl, auditors := au } } n false).isNone then some (pl, au) else none

/-- The first candidate that fits: the fewest steps, and no promotion where none is needed. -/
def findPlace (s : State) : Option (Option Nat × Nat × Placement × List (Node × Nat)) :=
  ((List.range 8).filter fun n => decide (s.ladder.pos ≤ n)).findSome? fun n =>
    (none :: (auditSpokes s).map some).findSome? fun p => (tryPlace s p n).map fun r => (p, n, r.1, r.2)

/-- Apply a new placement at boundary `b`. -/
def applyPlace (b : Nat) (promo : Option Nat) (n : Nat) (pl : Placement) (au : List (Node × Nat)) (s : State) : State :=
  let lost := (s.adm.place.filter fun e => e.2.2.isNone && isRetired s e.2.1).map (·.1)
  let gone := ((s.adm.place.find? fun e => isRetired s e.2.1).map fun e => e.2.1).getD 0
  let moved := (pl.filter fun e => !s.adm.place.contains e).length
  let s := match promo with
    | some x => raiseOwn 0xA002 .boundary b (some (spokeNode x)) gone (setRole x 0 s)
    | none => s
  let s := healCopies (isRetired s) s
  let s := { s with adm := { s.adm with place := pl, auditors := au },
                    ladder := { s.ladder with silent := s.ladder.silent.filter (fun x => !lost.contains x), replacing := none } }
  let s := match promo with
    | some x => moveAuditors b x s
    | none => s
  let s := takeSteps b n false s
  let back := lost.filter fun x => !shedWhole s n x
  let s := restartNodes lost (fadeNodesIn b 1 back s)
  raiseOwn 0xA003 .boundary b none (sat16 moved) s

/-- PLACEMENT_CHANGED. -/
def execPlacementChanged (s : State) : Host.Outcome State Fault Refusal :=
  if atFrame s && s.serving && s.ladder.replacing.isSome then
    let s := closeFrame s
    let b := s.clk.tally
    match findPlace s with
    | some (p, n, pl, au) => .next (applyPlace b p n pl au s)
    | none => .next (raiseOwn 0xA003 .boundary b none 0
        (takeSteps b 7 true { s with ladder := { s.ladder with replacing := none } }))
  else .next s

/-! ### Loss of a DRAM channel (R436, R519) -/

/-- Bytes of the DRAM store of a feed (R163, R165, R170): the master copies of both banks with their tail coefficients, the tail delay
line and the alignment delay line. -/
def feedStore (tapsMax alignMax : Nat) : Nat := 2 * (laneHub tapsMax + 8200 * pTail tapsMax) + 8200 * pTail tapsMax + 4 * alignMax

/-- Bytes of the store a node keeps in the normal space (R170, R205, R299). For a feed DEDUCED, log 62. -/
def storeBytes (s : State) (n : Node) : Nat :=
  match n with
  | .channel c => 4 * pN s (.channel c) 0x140
  | .feed f => feedStore (pN s (.feed f) 0x104) (pN s (.feed f) 0x105)
  | .inst p => (imageHdr (instImage s p)).dram
  | _ => 0

/-- The nodes with a store in the normal space, in placement order. -/
def storeNodes (s : State) : List Node := (placedNodes s).filter fun n => classOf s n != some 0 && decide (0 < storeBytes s n)

/-- The stores that fit a space, in order, and those that do not. -/
def fitStores (s : State) : Nat → List Node → List Node × List Node
  | _, [] => ([], [])
  | room, n :: r =>
    let b := storeBytes s n
    if b ≤ room then let q := fitStores s (room - b) r; (n :: q.1, q.2) else let q := fitStores s room r; (q.1, n :: q.2)

/-- What of a READY bank stands in hub SRAM (R170, R184): head and middle of the resident bank, of both banks of a fade, and of a bank
that fills a lane. -/
def bankInHub (s : State) (b : Bank) : Bool :=
  match s.feedAt b.feed with
  | none => false
  | some fd => b.bank == fd.corr.new || (fd.corr.running && b.bank == fd.corr.old) ||
      (fd.lane.map fun l => l.filled && l.bank == b.bank).getD false

/-- A READY bank after its DRAM copy is lost: only the taps that hub SRAM holds remain (R165, R170). DEDUCED, log 62. -/
def loseBank (s : State) (b : Bank) : Bank :=
  if b.state = 3 then { b with taps := b.taps.zipIdx.map fun x => if bankInHub s b && decide (x.2 < 1024) then x.1 else 0 } else b

/-- The stores of nodes restart from zeros. -/
def restartStores (ns : List Node) (s : State) : State :=
  { s with
    chans := s.chans.map fun c => if ns.contains (.channel c.n) then { c with line := [], raw := [] } else c,
    feeds := s.feeds.map fun fd =>
      if ns.contains (.feed fd.n) then { fd with raw := [], line := [], tail := { fd.tail with have_ := 0 } } else fd,
    fw := { s.fw with banks := s.fw.banks.map fun b => if ns.contains (.feed b.feed) then loseBank s b else b },
    insts := s.insts.map fun i =>
      if classOf s (.inst i.path) != some 0 then { i with copies := i.copies.map fun c => { c with dram := [] } } else i }

/-- Channel `ch` has failed from boundary `b`. -/
def failChannel (b ch reason : Nat) (s : State) : State :=
  let s := s.updCh ch fun c => { c with failed := true, failing := none }
  let s := raiseMem 0x8009 .boundary b 0 (ch * 256 + reason) [] s
  let s := takeSteps b 4 false s
  let r := fitStores s (normalBytes s) (storeNodes s)
  let ws := touchedWords s (r.1 ++ r.2)
  let s := fadeWords b ws (restartStores (r.1 ++ r.2) s)
  let s := r.2.foldl (fun s n => raiseOwn 0xA00F .boundary b (some n) 0 s)
    { s with ladder := { s.ladder with silent := s.ladder.silent ++ r.2 } }
  let slot (n : Node) : Bool := match n with
    | .slot _ => true
    | _ => false
  { s with vals := s.vals.filter fun w => !slot w.node,
           fw := { s.fw with scenes := s.fw.scenes.filter fun x => isChip x.node },
           dram := { s.dram with normal := [] } }

/-- The channels found failing since the last boundary fail at this one. -/
def failPending (b : Nat) (s : State) : State :=
  (List.range 2).foldl (fun s ch => match (s.chAt ch).failing with
    | some r => if (s.chAt ch).failed then s else failChannel b ch r s
    | none => s) s

/-- CHANNEL_FAILED. Loss of the command or clock path (reason 2) is the command's own; the other reasons are found by training, by
reads and by retraining. Away from a boundary the channel fails at the next one. -/
def execChannelFailed (ch reason : Nat) (s : State) : Host.Outcome State Fault Refusal :=
  if 2 ≤ ch || (s.chAt ch).failed then .next s
  else
    let s := if reason = 2 && (s.chAt ch).failing.isNone then s.updCh ch fun c => { c with failing := some 2 } else s
    match (s.chAt ch).failing with
    | some r => if atFrame s then .next (failChannel s.clk.tally ch r (closeFrame s)) else .next s
    | none => .next s

/-! ### Gear faults (R354, R540) -/

/-- A disagreement of gear passes counts; three within 3000 frames are a gear fault. -/
def gearCount (o : GearObs) (s : State) : State :=
  let now := s.clk.tally
  let ds := (now :: s.ladder.gearDis).filter fun t => decide (now < t + frames 3000)
  if 3 ≤ ds.length then
    raiseOwn 0xA00C .block (lastBoundary s - 8192) (some o.node) 0
      { s with ladder := { s.ladder with gearDis := [], gearFaultAt := some now }, plan := { s.plan with due := s.plan.due ||| 65536 } }
  else { s with ladder := { s.ladder with gearDis := ds } }

/-- GEAR_FAULT_CLEAR. -/
def execGearFaultClear (s : State) : Host.Outcome State Fault Refusal :=
  match s.ladder.gearFaultAt with
  | some t => if t + frames 30000 ≤ s.clk.tally then .next { s with ladder := { s.ladder with gearFaultAt := none } } else .next s
  | none => .next s

/-! ### Fault outputs (R521, R522) -/

/-- A redundant pair of R257 has lost a member: code 3. -/
def pairLost (s : State) : Bool :=
  (s.adm.place.any fun e => match e.2.2 with
    | some b => isRetired s e.2.1 || isRetired s b || vaultLost s e.1 0 || vaultLost s e.1 1
    | none => false) ||
  s.dram.channels.any (·.failed) ||
  (s.net.rxs.any fun x => x.cb.lost.isSome && classOf s (.rx x.mac x.s) == some 0) ||
  s.fault.pairs.any fun p => p.state == 3 || p.testing

/-- An ALARM node is without an auditor: code 9. -/
def unaudited (s : State) : Bool := s.adm.place.any fun e => e.2.2.isSome && (auditorOf s e.1).isNone

/-- Whether a condition of R521 holds. -/
def condition (s : State) (code : Nat) : Bool :=
  let now := s.clk.tally
  match code with
  | 1 => !s.boot.ready
  | 2 => !s.serving && decide (s.fault.idleSince + frames 60 ≤ now)
  | 3 => pairLost s
  | 4 => match s.fault.code4At with
    | some t => decide (now ≤ t + frameTicks)
    | none => false
  | 5 => decide (4 ≤ s.ladder.pos)
  | 6 => s.clk.holdover
  | 7 => s.fault.code7
  | 8 => s.ladder.gearFaultAt.isSome || !s.bell.imageOk
  | 9 => unaudited s
  | _ => false

/-- The lowest condition that holds. -/
def lowestCondition (s : State) : Option Nat := ((List.range 9).map (· + 1)).find? (condition s)

/-- Logic `k` (0 A, 1 B) asserts its own output: test, clock stopped, or no release word for 60 frames. -/
def ownCause (s : State) (k : Nat) : Bool :=
  let f := s.fault
  f.test.getLsbD k || (if k = 0 then f.stopA else f.stopB) || decide ((if k = 0 then f.relA else f.relB) + frames 60 ≤ s.clk.tally)

/-- The outputs as R521 and R522 give them now, with FAULT_OUTPUT where one changes. -/
def settleFaults (s : State) : State :=
  let now := s.clk.tally
  let low := lowestCondition s
  let s := if low.isSome then s.updFault fun f => { f with lastBad := now } else s
  let clean := low.isNone && decide (s.fault.lastBad + frames 3000 ≤ now) && !ownCause s 0 && !ownCause s 1
  let next (was : Bool) (k : Nat) : Bool := ownCause s k || low.isSome || (was && !clean)
  let a := next s.fault.outA 0
  let b := next s.fault.outB 1
  if a == s.fault.outA && b == s.fault.outB then s
  else
    let rise := (a && !s.fault.outA) || (b && !s.fault.outB)
    raiseVec 20 (raiseOwn 0xA008 .detect now none (b2n rise * 32768 + low.getD 0) (s.updFault fun f => { f with outA := a, outB := b }))

/-- FAULT_OUTPUT: a condition arises or 3000 clean frames pass. -/
def execFaultOutput (s : State) : Host.Outcome State Fault Refusal := .next (settleFaults s)

/-- RELEASE_WORD_TIMEOUT: a logic that has had no release word for 60 frames asserts its output. -/
def execReleaseWordTimeout (logic : Nat) (s : State) : Host.Outcome State Fault Refusal :=
  .next (if logic < 2 && decide ((if logic = 0 then s.fault.relA else s.fault.relB) + frames 60 ≤ s.clk.tally) then settleFaults s else s)

/-- FAULT_CLOCK_STOP: the clock of a logic has stopped for 4 periods. -/
def execFaultClockStop (logic : Nat) (s : State) : Host.Outcome State Fault Refusal :=
  .next (match logic with
    | 0 => settleFaults (s.updFault fun f => { f with stopA := true })
    | 1 => settleFaults (s.updFault fun f => { f with stopB := true })
    | _ => s)

/-! ### Teller pairs (R516, R517) -/

def pairAt (s : State) (k : Nat) : TellerPair := s.fault.pairs.getD k TellerPair.reset

def updPair (k : Nat) (f : TellerPair → TellerPair) (s : State) : State :=
  s.updFault fun x => { x with pairs := x.pairs.modify k f }

/-- A pair's STATE, with TELLER_PAIR_STATE where it changes. -/
def setPairState (k st : Nat) (s : State) : State :=
  if (pairAt s k).state = st then s
  else raiseOwn 0xA005 .teller s.clk.tally none (k * 256 + st) (updPair k (fun p => { p with state := st }) s)

/-- The active pair's failure is detected, once. -/
def detectFailure (s : State) : State :=
  if s.serving && s.fault.detected.isNone && (pairAt s s.fault.active).state = 1 then
    s.updFault fun f => { f with detected := some s.clk.tally }
  else s

/-- TELLER_DIVERGENCE and HEARTBEAT_TIMEOUT. -/
def execTellerDivergence (s : State) : Host.Outcome State Fault Refusal := .next (detectFailure s)
def execHeartbeatTimeout (s : State) : Host.Outcome State Fault Refusal := .next (detectFailure s)

/-- STATE and PAIR of HUB_MB_STATE; vector 23 is raised when one changes (R62, R456). -/
def setService (st pair : Nat) (s : State) : State :=
  raiseVecIf (s.svc.state != st || s.svc.pair != pair) 23 { s with svc := { s.svc with state := st, pair := pair } }

/-- The first boundary after detection: STATE becomes FAILOVER, PAIR names the new pair, and the failed pair goes into reset; its
third failure within 86 400 operating seconds marks it FAILED. -/
def enterFailover (s : State) : State :=
  match s.fault.detected with
  | none => s
  | some d =>
    if !atFrame s || s.clk.tally ≤ d then s
    else
      let k := s.fault.active
      let now := s.ledg.opSec
      let fails := (now :: (pairAt s k).fails).filter fun t => decide (now < t + 86400)
      let dead := decide (3 ≤ fails.length)
      let next := if (pairAt s (1 - k)).state = 2 then 1 - k else k
      let s := updPair k (fun p => { p with fails := fails, marked := p.marked || dead, testing := true }) s
      let s := setPairState k (if dead then 3 else 0) s
      (setService 2 next s).updFault fun f => { f with detected := none, idleSince := s.clk.tally }

/-- FAILOVER_ENTER. -/
def execFailoverEnter (s : State) : Host.Outcome State Fault Refusal := .next (enterFailover s)

/-- TELLER_SELF_TEST_DONE: a pair that passes and carries no FAILED mark is STANDBY, another FAILED. -/
def execTellerSelfTestDone (pair : Nat) (pass : Bool) (s : State) : Host.Outcome State Fault Refusal :=
  if 2 ≤ pair || !(pairAt s pair).testing then .next s
  else
    let ok := pass && !(pairAt s pair).marked
    .next (setPairState pair (if ok then 2 else 3) (updPair pair (fun p => { p with testing := false, marked := !ok }) s))

end Sys2Proof.Machine
end

