-- ==== Sys2Proof/Machine/Replan.lean ====
section
/-! DEFINITION. The recorder (R527 to R529) and host DMA completions (R480, R481), the re-plan (R530 to R532), the ledgers (R533 to
R537) and the requests LEDGER_READ and LEDGER_CLEAR. -/

namespace Sys2Proof.Machine

/-! ### Host DMA queues (R480, R481, R529) -/

def State.updHd (s : State) (q : Nat) (f : HdQueue → HdQueue) : State := s.updRegs fun r => { r with hd := r.hd.modify q f }
def State.hdAt (s : State) (q : Nat) : HdQueue := s.regs.hd.getD q HdQueue.reset

/-- K in force: values outside 4 to 12 act as 4. -/
def HdQueue.kEff (h : HdQueue) : Nat := if 4 ≤ h.k ∧ h.k ≤ 12 then h.k else 4

/-- The T1024 writes bytes into host memory. -/
def hostWrite (addr : Nat) (bs : List Byte) (s : State) : State :=
  s.updRegs fun r => { r with hostWrites := (addr % 2 ^ 64, bs) :: r.hostWrites }

/-- The ring address of a queue's descriptor `i`. -/
def descAddr (h : HdQueue) (i : Nat) : Nat := h.baseLo.toNat + h.baseHi.toNat * 2 ^ 32 + 16 * (i % 2 ^ h.kEff)

/-- A completion: word 3 is written, RD moves on, DONE of the queue is set, and vector 21 is raised when it is asked for. -/
def completeDesc (q status bytes : Nat) (irq : Bool) (s : State) : State :=
  let h := s.hdAt q
  let s := hostWrite (descAddr h h.rd + 12) (bytesOf (wd (2 ^ 31 + status * 2 ^ 28 + b2n irq * 2 ^ 27 + bytes))) s
  let s := s.updHd q fun h => { h with rd := (h.rd + 1) % 2 ^ (h.kEff + 1), cur := none }
  let s := s.updRegs fun r => { r with hdDone := (wd r.hdDone ||| wd (2 ^ q)).toNat }
  raiseVecIf irq 21 s

/-- The bytes of a record. -/
def recBytes (ws : List Word) : List Byte := ws.flatMap bytesOf

/-- Drain staged records into the descriptor being filled; it completes when the next record does not fit. `k` bounds the records
moved. -/
def drainRing (r : Nat) : Nat → State → State
  | 0, s => s
  | k + 1, s =>
    let h := s.hdAt r
    let g := s.recs.getD r RecRing.reset
    match h.cur, g.recs with
    | some c, x :: rest =>
      if c.fill + 80 ≤ c.len then
        let s := hostWrite (c.addr + c.fill) (recBytes x) s
        let s := s.updHd r fun h => { h with cur := some { c with fill := c.fill + 80 } }
        drainRing r k { s with recs := s.recs.set r { g with recs := rest, since := if c.fill = 0 then some s.clk.tally else g.since } }
      else
        let s := completeDesc r 0 c.fill c.irq s
        { s with recs := s.recs.set r { g with since := none } }
    | _, _ => s

/-- HOST_DMA_DESCRIPTOR: the queue takes its next descriptor. One whose length or address breaks the table is rejected and the queue
stops; the others are filled by the recorder, the only producer of queues 0 to 7. Queues 8 to 15 take none. -/
def execHostDmaDescriptor (q : Nat) (desc : List Word) (s : State) : Host.Outcome State Fault Refusal :=
  let h := s.hdAt q
  let w (i : Nat) : Word := desc.getD i 0#32
  let len := (w 2).toNat
  if 8 ≤ q || !h.enable || h.cur.isSome || posted (2 ^ h.kEff) h.wr h.rd = 0 || desc.length ≠ 4 then .next s
  else if len < 64 || 65536 < len || len % 64 != 0 || (w 0).toNat % 64 != 0 then
    let s := completeDesc q 1 0 ((w 3).getLsbD 27) s
    let s := if (w 3).getLsbD 27 then s else raiseVec 21 s
    .next (s.updHd q fun h => { h with enable := false })
  else
    let c : HdCur := { addr := (w 0).toNat + (w 1).toNat * 2 ^ 32, len := len, irq := (w 3).getLsbD 27, fill := 0 }
    let s := s.updHd q fun h => { h with cur := some c }
    .next (drainRing q (len / 80 + 1) s)

/-! ### Recorder (R527, R528) -/

/-- Records a ring stages: 8 MB of 80-byte records. -/
def recRoom : Nat := 8388608 / 80

/-- The record of a tap for the block released. -/
def recordOf (s : State) (i : Nat) (warm : Bool) (lost : Nat) : List Word :=
  let smp := (findKey (wd (0x50000000 + i)) s.snd.out).getD []
  [wd (b2n (lost != 0) * 2 ^ 17 + b2n warm * 2 ^ 16 + i), wd s.snd.outStamp, wd (s.snd.outStamp / 2 ^ 32), wd lost] ++
    (List.range 16).map fun k => wi (smp.getD k 0)

/-- Stage a tap's record in its ring, or lose it. -/
def stageRecord (warm : List Word) (i : Nat) (s : State) : State :=
  let w := pW s .ledgerEvent (0x200 + i) 0
  let r := fld w 24 3
  let g := s.recs.getD r RecRing.reset
  if g.recs.length < recRoom then
    { s with recs := s.recs.set r { g with recs := g.recs ++ [recordOf s i (warm.contains (wd (0x50000000 + i))) g.lost], lost := 0 } }
  else { s with recs := s.recs.set r { g with lost := satAdd32 g.lost 1, total := satAdd32 g.total 1 } }

/-- The taps that record: ON, and MANDATORY once step 1 is taken. -/
def liveTaps (s : State) : List Nat :=
  (List.range 64).filter fun i =>
    let w := pW s .ledgerEvent (0x200 + i) 0
    w.getLsbD 31 && (s.ladder.pos == 0 || w.getLsbD 30)

/-- The records of the block released; `warm` names the channels of it that a WARMUP source reached. -/
def recordBlock (warm : List Word) (s : State) : State :=
  let s := (liveTaps s).foldl (fun s i => stageRecord warm i s) s
  (List.range 8).foldl (fun s r => drainRing r 832 s) s

/-- RECORDER_FLUSH: the descriptor being filled completes 300 frames after its first record, or when the next does not fit. -/
def execRecorderFlush (r : Nat) (s : State) : Host.Outcome State Fault Refusal :=
  let g := s.recs.getD r RecRing.reset
  match (s.hdAt r).cur with
  | none => .next s
  | some c =>
    let late := match g.since with
      | some t => decide (t + frames 300 ≤ s.clk.tally)
      | none => false
    let full := !g.recs.isEmpty && decide (c.len < c.fill + 80)
    if 8 ≤ r || !(late || full) then .next s
    else
      let s := completeDesc r 0 c.fill c.irq s
      .next { s with recs := s.recs.set r { g with since := none } }

/-! ### Margin records (R535) -/

/-- A signed value in the low 16 bits. -/
def lo16 (z : Int) : Nat := (z % 65536).toNat

/-- The smallest slack of a wheel's spokes. -/
def wheelSlack (m : SensorSet) (w : Nat) : Int := minInt ((List.range 10).map fun k => m.slack.getD (10 * w + k) 0)

def packBytes (l : List Nat) : Word :=
  wd (l.getD 0 0 % 256 + 256 * (l.getD 1 0 % 256) + 65536 * (l.getD 2 0 % 256) + 16777216 * (l.getD 3 0 % 256))

/-- The margin record of the present plan. -/
def marginRecord (s : State) (reason actions : Nat) : List Word :=
  let m := s.plan.last
  let eye (ch : Nat) : Word := packBytes ((List.range 4).map fun i => min 255 (m.eyes.getD (4 * ch + i) 0 / 4))
  let pil (f : Pilot → Nat) : Word := packBytes (s.pilots.map f)
  let gone (sp : Nat) : Nat := b2n (isRetired s sp)
  [wd s.ledg.mgNext, wd s.ledg.opSec, wd (reason % 65536 * 65536 + actions % 65536),
    wd (s.plan.vcore * 2 ^ 22 + s.clk.mhzTarget / 25 * 2 ^ 16 + s.plan.sp * 2 ^ 14 +
      (if s.plan.scale = 1 then 0 else if s.plan.scale = 2 then 1 else 2) * 2 ^ 12 + s.plan.retrain % 4096),
    wd (lo16 (wheelSlack m 1) * 65536 + lo16 (wheelSlack m 0)), wd (lo16 (wheelSlack m 3) * 65536 + lo16 (wheelSlack m 2)),
    wd (lo16 m.slackTlr * 65536 + lo16 m.slackHub), wd (m.sramVmin % 65536 * 65536 + lo16 m.tempMax),
    eye 0, eye 1, wd s.ledg.ce, wd s.ledg.ue, pil Pilot.matchMax, pil Pilot.retired,
    wd (sumNat ((List.range 32).map fun sp => gone sp * 2 ^ sp)),
    wd (s.ladder.pos * 2 ^ 28 + b2n ((pairAt s 1).state = 3) * 2 ^ 9 + b2n ((pairAt s 0).state = 3) * 2 ^ 8 +
      sumNat ((List.range 8).map fun k => gone (32 + k) * 2 ^ k))]

/-- Entries a region holds, and those of a sector (R533). Event entries of 128 bytes: DESIGN CHOICE, log 63. -/
def marginRoom : Nat := 262144 / 64
def eventRoom : Nat := 1048576 / 128

/-- Write a margin record. A full region loses its oldest sector, the baseline apart. -/
def writeMargin (reason actions : Nat) (s : State) : State :=
  let ms := s.ledg.margins
  let ms := if marginRoom ≤ ms.length then ms.take 1 ++ (ms.drop 1).drop 64 else ms
  { s with ledg := { s.ledg with margins := ms ++ [marginRecord s reason actions], mgNext := (s.ledg.mgNext + 1) % 2 ^ 32,
                                 ce := 0, ue := 0 } }

/-! ### The re-plan (R531, R532) -/

/-- The smallest slack anywhere. -/
def slackMin (m : SensorSet) : Int := min (min m.slackHub m.slackTlr) (minInt m.slack)

/-- The admitted work fits at a spoke clock, with nothing shed. -/
def capacityFits (s : State) (f : Nat) : Bool :=
  (ladderFails { s with clk := { s.clk with mhz := f, mhzTarget := f } } 0 false).isNone

/-- The vault condition at another set point (R427, R428). -/
def vaultFitsAt (s : State) (sp : Nat) : Bool := vaultFits { s with dram := { s.dram with sp := sp, spNext := none } }

/-- Voltage: the value after, in mV. -/
def planVcore (daily : Bool) (m : SensorSet) (v : Nat) : Nat :=
  let ps : Nat := (60 - slackMin m).toNat
  let mv : Nat := ((50 : Int) - ((v : Int) - m.sramVmin)).toNat
  if ps ≠ 0 || mv ≠ 0 then min 900 (v + 5 * ceilDiv (max (10 * ceilDiv ps 10) mv) 5)
  else if daily && decide (120 < slackMin m) && decide ((80 : Int) < (v : Int) - m.sramVmin) then max 650 (v - 5)
  else v

/-- Spoke clock after, in MHz; `v` is the voltage already decided. -/
def planClock (s : State) (daily : Bool) (m : SensorSet) (v f : Nat) : Nat :=
  if 1040 < m.tempMax || (v == 900 && decide (slackMin m < 60)) then max 600 (f - 25)
  else if daily && decide (f < 750) && decide (100 < slackMin m) && decide (v ≤ 880) then f + 25
  else if !capacityFits s f && decide (f < 800) && decide (100 < slackMin m) then f + 25
  else f

def planScale (daily : Bool) (m : SensorSet) (k : Nat) : Nat :=
  if 256 < m.ceRate then 4
  else if 16 < m.ceRate then max k 2
  else if daily && decide (m.ceRate < 4) && decide (1 < k) then k / 2
  else k

def planRetrain (s : State) (daily : Bool) (m : SensorSet) (t : Nat) : Nat :=
  if m.eyeMin < 40 || 10 < m.eyeDrop then max 10 (t / 2)
  else if daily && decide (50 ≤ m.eyeMin) then min s.boot.dramCfg.retrain (t * 2)
  else t

/-- Healthy spokes below 40 ps whose wheel has an AUDIT spoke, the first of each wheel. -/
def planPromotions (s : State) (m : SensorSet) : List Nat :=
  (List.range 4).filterMap fun w =>
    if (wheelSpare s s.clk.tally w).isNone || s.plan.promote.any (fun e => e.1 / 10 == w) then none
    else (List.range 10).map (10 * w + ·) |>.find? fun sp =>
      ((s.spokeAt sp).map fun x => x.role == 0).getD false && decide (m.slack.getD sp 1000 < 40)

/-- What a re-plan at READY restores from the last margin record (R531). -/
def restorePlan (s : State) : State :=
  match s.ledg.margins.getLast? with
  | none => s
  | some ws =>
    let w := ws.getD 3 0#32
    let sp := fld w 14 2
    { s with
      plan := { s.plan with vcore := fld w 22 10, scale := 2 ^ fld w 12 2, retrain := fld w 0 12, sp := sp },
      clk := { s.clk with mhzTarget := 25 * fld w 16 6 },
      dram := { s.dram with spNext := if sp = s.dram.sp then none else some sp } }

/-- ACTIONS of R535 from what changed. -/
def planActions (a b : State) (promos : List Nat) (step : Bool) : Nat :=
  let bit (i : Nat) (c : Bool) : Nat := b2n c * 2 ^ i
  bit 0 (decide (a.plan.vcore < b.plan.vcore)) + bit 1 (decide (b.plan.vcore < a.plan.vcore)) +
    bit 2 (decide (b.clk.mhzTarget < a.clk.mhzTarget)) + bit 3 (decide (a.clk.mhzTarget < b.clk.mhzTarget)) +
    bit 4 (decide (a.plan.scale < b.plan.scale)) + bit 5 (decide (b.plan.scale < a.plan.scale)) +
    bit 6 (decide (b.plan.retrain < a.plan.retrain)) + bit 7 (decide (a.plan.retrain < b.plan.retrain)) +
    bit 8 (decide (a.plan.sp < b.plan.sp)) + bit 9 (!promos.isEmpty) + bit 10 step

/-- The decisions of one re-plan, in the order of R532. -/
def decidePlan (daily : Bool) (m : SensorSet) (s : State) : State :=
  let v := planVcore daily m s.plan.vcore
  let f := planClock s daily m v s.clk.mhzTarget
  let k := planScale daily m s.plan.scale
  let t := planRetrain s daily m s.plan.retrain
  let lower := t == 10 && decide (m.eyeMin < 25) && decide (s.plan.sp < 3) && vaultFitsAt s (s.plan.sp + 1)
  let s := { s with plan := { s.plan with vcore := v, scale := k, retrain := t }, clk := { s.clk with mhzTarget := f } }
  if lower then
    { s with plan := { s.plan with sp := s.plan.sp + 1 }, dram := { s.dram with spNext := some (s.plan.sp + 1) } }
  else s

/-- A re-plan is due daily after 86 400 operating seconds. -/
def dailyDue (s : State) : Bool := decide (s.plan.dailyAt + 86400 ≤ s.ledg.opSec)

/-- REPLAN. The daily one runs when it is due; the others on the readings that call for them. No re-plan runs while no pair serves
(R518). The evaluation of the ladder is made at this boundary, or asked for at the next. -/
def execReplan (daily : Bool) (reason : Nat) (m : SensorSet) (s : State) : Host.Outcome State Fault Refusal :=
  if !s.serving || (daily && !dailyDue s) then .next s
  else
    let s0 := if bitOf reason 10 then restorePlan s else s
    let s1 := decidePlan daily m { s0 with plan := { s0.plan with last := m } }
    let promos := planPromotions s1 m
    let p := boundaryFrom (s.clk.tally + frameTicks)
    let s2 := { s1 with
      plan := { s1.plan with promote := s1.plan.promote ++ promos.map (fun sp => (sp, p)), due := 0,
                             dailyAt := if daily then s.ledg.opSec else s.plan.dailyAt },
      fault := { s1.fault with code7 := decide (1080 < m.tempMax) } }
    let free := s2.ladder.replacing.isNone
    let step := free && (match neededStep s2 with
      | some n => decide (s2.ladder.pos < n)
      | none => decide (s2.ladder.pos < 7))
    let s3 := if !free then s2
      else if atFrame s2 then evaluateLadder s2.clk.tally (closeFrame s2)
      else { s2 with ladder := { s2.ladder with asked := true } }
    let why := (wd reason ||| wd s.plan.due ||| wd (b2n daily)).toNat
    let acts := planActions s0 s1 promos step
    let num := s3.ledg.mgNext
    .next (raiseNode 0xA00A .teller s.clk.tally none 0xF acts [{ tag := 0xE1, vals := w1 num }] (writeMargin why acts s3))

/-! ### Ledger entries (R533, R534) -/

/-- Write an event as the next entry. A full region loses its oldest sector. -/
def writeEntry (e : Event) (repeats : Nat) (s : State) : State :=
  let l := s.ledg
  let ws := e.words s l.evNext ++ itemWords [{ tag := 0x73, vals := [wd l.opSec, wd (l.resets % 65536 * 65536 + sat16 repeats)] }]
  let n := 3 * 2 ^ 20
  let head := wd ((ws.headD 0#32).toNat + n)
  let entry : LedgerEntry :=
    { num := l.evNext, ev := e, opSec := l.opSec, resets := l.resets, repeats := repeats, words := head :: ws.drop 1 }
  let old := if eventRoom ≤ l.events.length then l.events.drop 32 else l.events
  { s with ledg := { l with events := old ++ [entry], evNext := (l.evNext + 1) % 2 ^ 32 } }

/-- LEDGER_ENTRY_WRITE: the firmware writes the oldest event that waits, while it serves (R518). -/
def execLedgerEntryWrite (s : State) : Host.Outcome State Fault Refusal :=
  match s.ledg.queue with
  | [] => .next s
  | (e, n) :: r => if s.serving then .next (writeEntry e n { s with ledg := { s.ledg with queue := r } }) else .next s

/-- OP_SECONDS_SAVE: every 600 s. -/
def execOpSecondsSave (s : State) : Host.Outcome State Fault Refusal :=
  if s.serving && decide (s.ledg.opSaved + 600 ≤ s.ledg.opSec) then .next { s with ledg := { s.ledg with opSaved := s.ledg.opSec } }
  else .next s

/-! ### LEDGER_READ and LEDGER_CLEAR (R536, R537) -/

/-- Whether a handle names the margin ledger, where it names a ledger. -/
def ledgerOf (s : State) (w : Word) : Option Bool :=
  match nodeOfHandle s w with
  | some .ledgerEvent => some false
  | some .ledgerMargin => some true
  | _ => none

/-- The entries held, with their numbers, ascending; and the next number. -/
def ledgerHeld (s : State) (margin : Bool) : List (Nat × List Word) :=
  if margin then s.ledg.margins.map fun ws => ((ws.headD 0#32).toNat, ws) else s.ledg.events.map fun e => (e.num, e.words)
def ledgerNext (s : State) (margin : Bool) : Nat := if margin then s.ledg.mgNext else s.ledg.evNext

/-- As many whole items as fit the words left. -/
def fitItems : Nat → List Item → List Item
  | _, [] => []
  | room, i :: r => if 1 + i.vals.length ≤ room then i :: fitItems (room - 1 - i.vals.length) r else []

def opLedgerRead (r : Request) (s : State) : State × Reply :=
  match ledgerOf s r.handle with
  | none => (s, .fail stBadHandle 0)
  | some margin =>
    match itemsBad r.items [(0x70, (· == 2))] (realItems r.items) with
    | some i => (s, .fail stType i)
    | none =>
      let it := ((realItems r.items).head?.map (·.2.vals)).getD []
      let first := (it.getD 0 0#32).toNat
      let most := (it.getD 1 0#32).toNat
      if most = 0 || 255 < most then (s, .fail stRange (((realItems r.items).head?.map (·.1)).getD 0))
      else
        let held := ledgerHeld s margin
        let from_ := (if first = 0xFFFFFFFF then held else held.filter fun e => decide (first ≤ e.1)).take most
        let room := (if isNmb r.mb then 368 else 1023) - 4 - 4
        let is := fitItems room (from_.map fun e => { tag := 0x71, vals := e.2 })
        let next := wd (ledgerNext s margin)
        match held.head?, held.getLast? with
        | some a, some b => (s, .ok (is ++ [{ tag := 0x72, vals := [next, wd a.1, wd b.1] }]))
        | _, _ =>
          let x := drawFree s
          let y := drawFree x.2
          (y.2, .ok [{ tag := 0x72, vals := [next, x.1, y.1] }])

/-- LEDGER_CLEARED about a ledger. -/
def clearedEvent (s : State) (mb : Nat) (margin : Bool) (v : Nat) : Event :=
  let n : Node := if margin then .ledgerMargin else .ledgerEvent
  { code := 0xA010, kind := .teller, stamp := s.clk.tally, node := some { node := n, tag := none }, source := mb,
    cls := eventClass s (some n) mb, detail := v, items := [] }

def opLedgerClear (r : Request) (s : State) : State × Reply :=
  match ledgerOf s r.handle with
  | none => (s, .fail stBadHandle 0)
  | some margin =>
    match itemsBad r.items [(0x110, (· == 1))] (realItems r.items) with
    | some i => (s, .fail stType i)
    | none =>
      let v := ((realItems r.items).head?.map fun i => i.2.vals.getD 0 0#32).getD 0#32
      if !onlyBits (if margin then 7 else 1) v then (s, .fail stRange (((realItems r.items).head?.map (·.1)).getD 0))
      else if v = 0#32 then (s, .ok [])
      else
        let e := clearedEvent s r.mb margin v.toNat
        if margin then
          let s := if v.getLsbD 1 then s.updFault fun f => { f with release := true } else s
          let s := if v.getLsbD 2 then { s with plan := { s.plan with eyeRef := s.plan.last.eyeMin } } else s
          let s := if v.getLsbD 0 then writeMargin 512 0 { s with ledg := { s.ledg with margins := [] } } else s
          (raiseEvent e s, .ok [])
        else
          let wait := s.ledg.queue
          let s := raiseEvent e { s with ledg := { s.ledg with events := [], queue := [], suppressed := [] } }
          (writeEntry e 0 { s with ledg := { s.ledg with queue := wait } }, .ok [])

end Sys2Proof.Machine
end

