-- ==== Sys2Proof/Machine/Update.lean ====
section
/-! DEFINITION. Authorisation (R542 to R545), updates of the boot flash (R546 to R550), NMB_CONFIG (R60, R61), EVENT_RING_SET (R110),
and the lines the monitor prints. -/

namespace Sys2Proof.Machine

/-! ### Authorisation (R544) -/

/-- 0 authorised, 1 key absent, 2 seal broken (R48 step 5). -/
def authFault (s : State) : Nat := if !s.maint.key then 1 else if !s.maint.loop then 2 else 0

/-- AUTH_REFUSED (R554). -/
def raiseRefused (mb why : Nat) (s : State) : State := raiseNode 0xB003 .teller s.clk.tally none mb why [] s

/-! ### Monitor lines (R552, R553) -/

/-- Print a line. Its first word is its kind: 0 ok, 1 err, 2 trace, 3 words read, 4 response, 5 ledger entry, 6 state, 7 key. The
last 256 lines are kept. -/
def printLine (ws : List Word) (s : State) : State := { s with maint := { s.maint with lines := (ws :: s.maint.lines).take 256 } }

/-- A trace line: tally, mailbox, direction (0 request, 1 response), header. -/
def traceLine (mb dir : Nat) (msg : List Word) (s : State) : State :=
  if bitOf s.maint.trace mb then printLine ([wd 2] ++ words64 s.clk.tally ++ [wd mb, wd dir] ++ msg.take 4) s else s

/-! ### The boot flash configuration (R60, R499) -/

/-- The valid copy of higher generation, copy A where they are equal: its index and content. -/
def cfgBest (s : State) : Option (Nat × FlashCfg) :=
  match s.flash.cfgs with
  | [some a, some b] => if b.gen ≤ a.gen then some (0, a) else some (1, b)
  | [some a, none] => some (0, a)
  | [none, some b] => some (1, b)
  | _ => none

/-- The copy an update or an NMB_CONFIG writes. -/
def cfgSpare (s : State) : Nat :=
  match cfgBest s with
  | some (k, _) => 1 - k
  | none => 0

/-- The defaults of R499. -/
def FlashCfg.default : FlashCfg :=
  { gen := 0, dram := DramCfg.default, ids := [], bar2En := false, nmbLo := 0#32, nmbHi := 0#32,
    nets := List.replicate 4 NetBoot.zero, pmbus := 0 }

def setCfg (k : Nat) (c : Option FlashCfg) (s : State) : State :=
  { s with flash := { s.flash with cfgs := s.flash.cfgs.set k c } }

/-- A configuration copy from its fields: the six settings of R438, BAR2_EN, the two words of NMB_CONFIG, the PMBus address, seven
words for each MAC, and the identifiers. -/
def cfgOfFields (gen : Nat) (ws : List Word) : FlashCfg :=
  let n (i : Nat) : Nat := (ws.getD i 0#32).toNat
  { gen := gen,
    dram := { maxSp := n 0, vaultRows := n 1, scrub := n 2, retrain := n 3, hammer := n 4, ueLimit := n 5 },
    bar2En := n 6 == 1, nmbLo := ws.getD 7 0#32, nmbHi := ws.getD 8 0#32, pmbus := n 9,
    nets := (List.range 4).map fun m =>
      let k := 10 + 7 * m
      { mode := n k, speed := n (k + 1), macHi := ws.getD (k + 2) 0#32, macLo := ws.getD (k + 3) 0#32,
        ipv4 := ws.getD (k + 4) 0#32, prefix_ := n (k + 5), vlan := n (k + 6) },
    ids := ws.drop 38 }

/-! ### Network mailboxes (R60, R61) -/

/-- Apply an NMB_CONFIG setting: listening MACs and ports, the NET domain where a MAC is to come up. -/
def applyNmb (lo hi : Word) (s : State) : State :=
  let set (i : Nat) (b : Nmb) : Nmb := { b with macs := fld lo (4 * i) 4, port := fld hi (16 * i) 16 }
  let nmbs := s.nmbs.zipIdx.map fun e => set e.2 e.1
  let up := nmbs.any fun b => b.macs != 0 && b.port != 0
  { s with nmbs := nmbs,
           boot := { s.boot with domains := if up then (wd s.boot.domains ||| wd 256).toNat else s.boot.domains } }

/-- The setting held in the boot flash configuration. -/
def applyFlashNmb (s : State) : State :=
  match cfgBest s with
  | some (_, c) => applyNmb c.nmbLo c.nmbHi s
  | none => applyNmb 0#32 0#32 s

/-- The index of the first item that is no padding. -/
def firstItem (r : Request) : Nat := ((realItems r.items).head?.map (·.1)).getD 0

/-- The ledger entry that status INTERNAL names; the spec gives its event no code. Log 64. -/
def internalEntry (mb : Nat) (s : State) : State × Nat :=
  let x := drawFree s
  let n := x.2.ledg.evNext + x.2.ledg.queue.length
  let e : Event := { code := x.1.toNat % 65536, kind := .teller, stamp := s.clk.tally, node := none, source := mb,
                     cls := eventClass s none mb, detail := 0, items := [] }
  ({ x.2 with ledg := { x.2.ledg with queue := x.2.ledg.queue ++ [(e, 0)] } }, n)

/-- NMB_CONFIG (R60). `flashOk`: the flash write succeeds. -/
def opNmbConfig (flashOk : Bool) (r : Request) (s : State) : State × Reply :=
  match itemsBad r.items [(0x120, (· == 2))] (realItems r.items) with
  | some i => (s, .fail stType i)
  | none =>
    let v := ((realItems r.items).head?.map fun i => i.2.vals).getD []
    let lo := v.getD 0 0#32
    let hi := v.getD 1 0#32
    let on (i : Nat) : Bool := fld lo (4 * i) 4 != 0 && fld hi (16 * i) 16 != 0
    if !onlyBits 0xFF lo || (on 0 && on 1 && fld hi 0 16 == fld hi 16 16) then (s, .fail stRange (firstItem r))
    else if (s.flash.update.map fun u => u.target == 2).getD false then (s, .fail stInProgress 0)
    else if !flashOk then let x := internalEntry r.mb s; (x.1, .fail stInternal (low16 x.2))
    else
      let c := ((cfgBest s).map (·.2)).getD FlashCfg.default
      let s := setCfg (cfgSpare s) (some { c with gen := (c.gen + 1) % 2 ^ 32, nmbLo := lo, nmbHi := hi }) s
      (s, { Reply.ok [] with after := .nmb })

/-! ### Updates (R546 to R550) -/

/-- FW_STARTED, FW_COMMITTED, FW_CANCELLED. -/
def raiseFw (code mb detail : Nat) (s : State) : State := raiseNode code .teller s.clk.tally none mb detail [] s

/-- Cancel the update under way. -/
def cancelUpdate (cause : Nat) (s : State) : State :=
  match s.flash.update with
  | none => s
  | some u => raiseFw 0xB006 u.mb (u.target * 256 + cause) { s with flash := { s.flash with update := none } }

/-- The target is invalid to the boot ROM (R546). -/
def eraseTarget (t : Nat) (s : State) : State :=
  if t = 2 then setCfg (cfgSpare s) none s else { s with flash := { s.flash with images := s.flash.images.set t none } }

def opFwBegin (r : Request) (s : State) : State × Reply :=
  match itemsBad r.items [(0x100, (· == 3))] (realItems r.items) with
  | some i => (s, .fail stType i)
  | none =>
    let v := ((realItems r.items).head?.map fun i => i.2.vals).getD []
    let t := (v.getD 0 0#32).toNat
    let len := (v.getD 1 0#32).toNat
    if s.flash.update.isSome then (s, .fail stInProgress 0)
    else if 2 < t || (t < 2 && s.boot.image == t) then (s, .fail stRange (firstItem r))
    else if len = 0 || (if t = 2 then 65536 else 16777216) < len then (s, .fail stTooLong (firstItem r))
    else if len % 4 != 0 then (s, .fail stRange (firstItem r))
    else
      let u : Update := { mb := r.mb, target := t, length := len, crc := v.getD 2 0#32, words := [], last := s.clk.tally }
      let s := eraseTarget t s
      (raiseFw 0xB004 r.mb t { s with flash := { s.flash with update := some u } }, .ok [])

def opFwData (r : Request) (s : State) : State × Reply :=
  match itemsBad r.items [(0x101, fun n => decide (2 ≤ n) && decide (n ≤ 1014))] (realItems r.items) with
  | some i => (s, .fail stType i)
  | none =>
    let v := ((realItems r.items).head?.map fun i => i.2.vals).getD []
    match s.flash.update with
    | none => (s, .fail stRange (firstItem r))
    | some u =>
      if u.mb != r.mb then (s, .fail stInProgress 0)
      else if (v.getD 0 0#32).toNat != 4 * u.words.length || decide (u.length < 4 * (u.words.length + v.length - 1)) then
        (s, .fail stRange (firstItem r))
      else
        let u := { u with words := u.words ++ v.drop 1, last := s.clk.tally }
        ({ s with flash := { s.flash with update := some u } }, .ok [{ tag := 0x101, vals := w1 (4 * u.words.length) }])

/-- The generations of what is valid of a kind. -/
def validGens (s : State) (t : Nat) : List Nat :=
  if t = 2 then s.flash.cfgs.filterMap fun c => c.map FlashCfg.gen else s.flash.images.filterMap fun c => c.map FlashImage.gen

/-- The checks of FW_END on the content: CRC, and the checks of R500. -/
def contentGood (u : Update) : Bool :=
  crc32Words u.words == u.crc && (if u.target = 2 then Config.configGood u.words else Config.imageGood u.words)

def contentGen (u : Update) : Nat := if u.target = 2 then Config.configGen u.words else Config.imageGen u.words

/-- The first sector is written: the target holds the content. -/
def commitUpdate (u : Update) (s : State) : State :=
  let s := if u.target = 2 then setCfg (cfgSpare s) (some (cfgOfFields (contentGen u) (Config.configFields u.words))) s
    else
      let img : FlashImage :=
        { gen := contentGen u, bell := some (Mem.putBytes [] 0 ((Config.imageBell u.words).flatMap bytesOf)), fwGood := true }
      { s with flash := { s.flash with images := s.flash.images.set u.target (some img), failed := s.flash.failed.set u.target false } }
  raiseFw 0xB005 u.mb u.target { s with flash := { s.flash with update := none } }

def opFwEnd (r : Request) (s : State) : State × Reply :=
  match anyItem r with
  | some i => (s, .fail stType i)
  | none =>
    match s.flash.update with
    | none => (s, .fail stRange 0)
    | some u =>
      if u.mb != r.mb then (s, .fail stInProgress 0)
      else if 4 * u.words.length < u.length then (s, .fail stRange 0)
      else if !contentGood u then (cancelUpdate 5 s, .fail stFormat 0)
      else if (validGens s u.target).any fun g => decide (contentGen u ≤ g) then (s, .fail stFormat 0)
      else (commitUpdate u s, .ok [])

/-- FW_UPDATE_TIMEOUT (R550). -/
def execFwUpdateTimeout (s : State) : Host.Outcome State Fault Refusal :=
  match s.flash.update with
  | none => .next s
  | some u => if u.last + frames 30000 ≤ s.clk.tally then .next (cancelUpdate 3 s) else .next s

/-! ### Event rings (R110) -/

def opEventRingSet (r : Request) (s : State) : State × Reply :=
  match nodeOfHandle s r.handle with
  | some (.ring e) =>
    match itemsBad r.items [(0x60, (· == 3))] (realItems r.items) with
    | some i => (s, .fail stType i)
    | none =>
      let v := ((realItems r.items).head?.map fun i => i.2.vals).getD []
      let w (i : Nat) : Word := v.getD i 0#32
      if !onlyBits 0xFFFF (w 0) || !onlyBits 0xF (w 1) || (w 1).toNat < 10 || 14 < (w 1).toNat || !onlyBits 3 (w 2) then
        (s, .fail stRange 0)
      else
        let set : RingSet := { mask := (w 0).toNat, log2S := (w 1).toNat, enable := (w 2).getLsbD 0, irqEn := (w 2).getLsbD 1 }
        (s, { Reply.ok [] with after := .evRing e set })
  | _ => (s, .fail stBadHandle 0)

/-- The setting takes effect (R110). -/
def applyRing (e : Nat) (x : RingSet) (s : State) : State :=
  { s with rings := s.rings.modify e fun r =>
      let r' := { r with mask := x.mask, log2S := x.log2S, enable := x.enable, irqEn := x.irqEn }
      if x.log2S != r.log2S || (x.enable && !r.enable) then { r' with wr := 0, rd := 0, lost := 0, run := none } else r' }

/-- A write of a read index (R112). -/
def writeEvRd (e : Nat) (v : Word) (s : State) : State :=
  match s.rings[e]? with
  | none => s
  | some r =>
    let n := fld v 0 15
    let two := 2 * r.size
    let ok := decide (n < two) && decide ((n + two - r.rd) % two ≤ (r.wr + two - r.rd) % two)
    { s with rings := s.rings.set e (if ok then { r with rd := n } else { r with rdErr := true }) }

/-- HUB_EV_RD_WRITE. -/
def execHubEvRdWrite (e : Nat) (v : Word) (s : State) : Host.Outcome State Fault Refusal := .next (writeEvRd e v s)

/-! ### Key and seal (R542, R543) -/

/-- Withdrawn authorisation cancels an update and clears the fault test (R482, R545, R550). -/
def withdraw (cause : Nat) (s : State) : State := settleFaults ((cancelUpdate cause s).updFault fun f => { f with test := 0#32 })

/-- KEY_CHANGED: the debounced state of MAINT_KEY_N. -/
def execKeyChanged (asserted : Bool) (s : State) : Host.Outcome State Fault Refusal :=
  if s.maint.key = asserted then .next s
  else
    let s := raiseOwn 0xB001 .detect s.clk.tally none (b2n asserted) { s with maint := { s.maint with key := asserted } }
    .next (if asserted then s else withdraw 1 s)

/-- One step of x^15 + x^14 + 1: the bit sent is the last one, the new bit the sum of the last two. -/
def sealStep (x : BitVec 15) : BitVec 15 := (x <<< 1) ||| (if x.getLsbD 14 != x.getLsbD 13 then 1#15 else 0#15)

/-- SEAL_BIT_SAMPLE: the sample of SEAL_SNS against the bit sent. -/
def execSealBitSample (sns : Bool) (s : State) : Host.Outcome State Fault Refusal :=
  if s.boot.porst || !s.boot.sealDriven then .next s
  else
    let m := s.maint
    let same := sns == m.lfsr.getLsbD 14
    let n := if same then min (m.matched + 1) 256 else 0
    let loop := same && (m.loop || n == 256)
    let s' := { s with maint := { m with lfsr := sealStep m.lfsr, matched := n, loop := loop } }
    if loop = m.loop then .next s'
    else
      let s' := raiseOwn 0xB002 .detect s.clk.tally none (b2n loop) s'
      .next (if loop then s' else withdraw 2 s')

end Sys2Proof.Machine
end

