-- ==== Sys2Proof/Machine/Mailbox.lean ====
section
/-! DEFINITION. Mailboxes (R31 to R64): doorbells, taking and checking requests, responses, the hub's answers and the takeover of a
teller pair, and the meaning of every request. -/

namespace Sys2Proof.Machine

/-! ### Doorbells (R38) -/

/-- A write of an inbound write index. -/
def writeInWr (m : Nat) (v : Word) (s : State) : State :=
  let b := s.mboxAt m
  let n := fld v 0 11
  let new := posted 1024 n b.inRd
  let old := posted 1024 b.inWr b.inRd
  if new ≤ 1024 && old ≤ new then
    s.updMbox m fun b => { b with inWr := n, headAt := if old < 4 then s.clk.tally else b.headAt }
  else s.updMbox m fun b => { b with wrErr := true }

/-- A write of an outbound read index. -/
def writeOutRd (m : Nat) (v : Word) (s : State) : State :=
  let b := s.mboxAt m
  let n := fld v 0 11
  if posted 1024 n b.outRd ≤ posted 1024 b.outWr b.outRd then s.updMbox m fun b => { b with outRd := n }
  else s.updMbox m fun b => { b with rdErr := true }

/-- HUB_MB_IN_WR_WRITE. -/
def execHubMbInWrWrite (m : Nat) (v : Word) (s : State) : Host.Outcome State Fault Refusal :=
  .next (if m < 8 then writeInWr m v s else s)

/-- HUB_MB_OUT_RD_WRITE. -/
def execHubMbOutRdWrite (m : Nat) (v : Word) (s : State) : Host.Outcome State Fault Refusal :=
  .next (if m < 8 then writeOutRd m v s else s)

/-! ### Reading a request (R42, R44) -/

/-- Words posted on an inbound ring, and its front words. -/
def inPosted (s : State) (m : Nat) : Nat := posted 1024 (s.mboxAt m).inWr (s.mboxAt m).inRd
def inFront (s : State) (m n : Nat) : List Word := ringGet 1024 (s.mboxAt m).inRing (s.mboxAt m).inRd n

/-- LEN of the request at the front. -/
def frontLen (s : State) (m : Nat) : Nat := fld ((inFront s m 1).getD 0 0#32) 20 12

def badLen (n : Nat) : Bool := n < 4 || 1023 < n

/-- The items of a payload that starts at word `off` of its message, or the offset of the item that overruns. -/
def parseItems : Nat → Nat → List Word → Except Nat (List Item)
  | _, _, [] => .ok []
  | 0, off, _ => .error off
  | k + 1, off, w :: ws =>
    let n := fld w 0 16
    if ws.length < n then .error off
    else
      match parseItems k (off + 1 + n) (ws.drop n) with
      | .ok is => .ok ({ tag := fld w 16 16, vals := ws.take n } :: is)
      | .error o => .error o

/-- Advance IN_RD by `n` words; what follows becomes the front. -/
def consume (m n : Nat) (s : State) : State :=
  s.updMbox m fun b => { b with inRd := (b.inRd + n) % 2048, headAt := s.clk.tally }

/-! ### Responses (R40, R43) -/

/-- The header word 0 of a response, and all its words. -/
def Resp.words (p : Resp) : List Word :=
  let body := itemWords p.items
  [wd ((4 + body.length) * 2 ^ 20 + 2 ^ 19 + b2n p.quiet * 2 ^ 18 + p.opcode), p.seq, p.handle,
    wd (low16 p.detail * 65536 + p.status)] ++ body

/-- A response waits to be written. -/
def park (m : Nat) (p : Resp) (s : State) : State := { s with svc := { s.svc with out := s.svc.out ++ [(m, p)] } }

/-- A header-only response to the request whose header stands in `h`. -/
def respOf (h : List Word) (status detail : Nat) : Resp :=
  { opcode := fld (h.getD 0 0#32) 0 16, quiet := (h.getD 0 0#32).getLsbD 18, seq := h.getD 1 0#32, handle := h.getD 2 0#32,
    detail := detail, status := status, items := [], after := .none }

/-- What takes effect with a response (R60, R110). -/
def applyAfter (a : After) (s : State) : State :=
  match a with
  | .none => s
  | .evRing e x => applyRing e x s
  | .nmb => applyFlashNmb s
  | .adm => s

/-- The boundary A of an admission is the first one at least 6 frames after its response is written (R250): A is fixed, and the
response carries it. -/
def fixAdmission (m : Nat) (s : State) : State :=
  match findKey m s.svc.out with
  | none => s
  | some p =>
    if p.after = .adm then
      let a := boundaryFrom (s.clk.tally + frames 6)
      let items : List Item := if p.quiet then [] else [{ tag := 0x30, vals := words64 a }]
      let p' : Resp := { p with items := items, after := .none }
      { s with svc := { s.svc with out := s.svc.out.map fun e => if e.1 = m then (m, p') else e },
               adm := { s.adm with waiting := s.adm.waiting.map fun w => { w with at_ := a } } }
    else s

/-- Take the front response of a mailbox off the list. -/
def unpark (m : Nat) : List (Nat × Resp) → List (Nat × Resp)
  | [] => []
  | e :: r => if e.1 = m then r else e :: unpark m r

/-- Send a response on a network mailbox: it goes to the sender of the request taken, and is kept (R57, R58). -/
def answerNet (m : Nat) (ws : List Word) (s : State) : State :=
  match (s.nmbs[m - 8]?).bind Nmb.taken with
  | none => s
  | some key =>
    let s := sendDatagram m key ws s
    { s with nmbs := s.nmbs.modify (m - 8) fun b => { b with taken := none, stored := ((key, ws) :: b.stored).take 16 } }

/-- Write the response that waits at the front of a mailbox, or hold it while its ring has no room (R40, R41). -/
def writeResp (m : Nat) (s0 : State) : State :=
  let s := fixAdmission m s0
  match findKey m s.svc.out with
  | none => s
  | some p =>
    let ws := p.words
    let b := s.mboxAt m
    if 1024 < posted 1024 b.outWr b.outRd + ws.length then s0.updMbox m fun b => { b with held := true }
    else
      let next := (b.outWr + ws.length) % 2048
      let s := s.updMbox m fun b =>
        { b with outRing := ringPut 1024 b.outRing b.outWr ws, outWr := next, held := false,
                 outRd := if m < 8 then b.outRd else next }
      let s := { s with svc := { s.svc with out := unpark m s.svc.out } }
      let s := raiseVecIf (decide (m < 8) && b.irqEn) m s
      let s := traceLine m 1 ws s
      let s := if isNmb m then answerNet m ws s else s
      let s := if m = 10 && s.maint.awaiting then
          printLine [wd 0] (printLine (wd 4 :: ws) { s with maint := { s.maint with awaiting := false } })
        else s
      applyAfter p.after s

/-- RESPONSE_WRITE. -/
def execResponseWrite (m : Nat) (s : State) : Host.Outcome State Fault Refusal := .next (writeResp m s)

/-! ### Executing a request (R48, R49) -/

/-- The opcodes. -/
inductive Op where
  | ping | lookup | release | query | read | stage | commit | discard | admitConfig | sceneStore | sceneRecall | filterLoad
  | eventRingSet | ledgerRead | fwBegin | fwData | fwEnd | ledgerClear | nmbConfig
deriving DecidableEq, Repr

/-- The opcode table (R49). -/
def opTable : List (Nat × Op) :=
  [(0x0001, .ping), (0x0002, .lookup), (0x0003, .release), (0x0010, .query), (0x0011, .read), (0x0020, .stage), (0x0021, .commit),
    (0x0022, .discard), (0x0030, .admitConfig), (0x0040, .sceneStore), (0x0041, .sceneRecall), (0x0050, .filterLoad),
    (0x0060, .eventRingSet), (0x0070, .ledgerRead), (0x0100, .fwBegin), (0x0101, .fwData), (0x0102, .fwEnd),
    (0x0110, .ledgerClear), (0x0120, .nmbConfig)]

def opOfCode (c : Nat) : Option Op := findKey c opTable
def codeOfOp (o : Op) : Nat := ((opTable.find? fun e => e.2 == o).map (·.1)).getD 0

/-- The opcodes that need key and seal, and those that take a boundary. -/
def keyGated (o : Op) : Bool := decide (0x100 ≤ codeOfOp o)
def takesBoundary (o : Op) : Bool := o == .commit || o == .sceneRecall

/-- What an opcode's own chapter does. -/
def runOp (o : Op) (flashOk : Bool) (r : Request) (s : State) : State × Reply :=
  match o with
  | .ping => opPing r s
  | .lookup => opLookup r s
  | .release => opRelease r s
  | .query => opQuery r s
  | .read => opRead r s
  | .stage => opStage r s
  | .commit => opCommit r s
  | .discard => opDiscard r s
  | .admitConfig => opAdmit r s
  | .sceneStore => opSceneStore r s
  | .sceneRecall => opSceneRecall r s
  | .filterLoad => opFilterLoad r s
  | .eventRingSet => opEventRingSet r s
  | .ledgerRead => opLedgerRead r s
  | .fwBegin => opFwBegin r s
  | .fwData => opFwData r s
  | .fwEnd => opFwEnd r s
  | .ledgerClear => opLedgerClear r s
  | .nmbConfig => opNmbConfig flashOk r s

/-- Steps 4 to 7 of R48, then R59: the state after, and the reply. -/
def answer (o : Op) (flashOk : Bool) (r : Request) (s : State) : State × Reply :=
  if keyGated o && isNmb r.mb then (s, .fail 5 r.mb)
  else if keyGated o && authFault s != 0 then (raiseRefused r.mb (authFault s) s, .fail (5 + authFault s) 0)
  else if r.commitAt != 0#32 && !(takesBoundary o && boundaryWord r.commitAt) then (s, .fail 8 0)
  else
    let x := runOp o flashOk r s
    let items := if r.quiet && x.2.status = 0 then [] else x.2.items
    if isNmb r.mb && decide (368 < replyWords items) then (s, .fail stNetSize (replyWords items))
    else (x.1, { x.2 with items := items })

/-- A reply as a response to a request. -/
def Reply.resp (p : Reply) (o : Op) (r : Request) : Resp :=
  { opcode := codeOfOp o, quiet := r.quiet, seq := r.seq, handle := p.handle.getD r.handle, detail := p.detail, status := p.status,
    items := p.items, after := p.after }

/-- A request of a mailbox is executed and its response parked; the journal keeps the firmware's memory before and after it (R516).
While STATE is not SERVING it is answered with TELLER_BUSY. A mailbox whose response waits takes no request (R40). -/
def serve (o : Op) (flashOk : Bool) (r : Request) (s : State) : State :=
  if 11 ≤ r.mb || (s.svc.out.any fun e => e.1 == r.mb) then s
  else if !s.serving then park r.mb ((Reply.fail stTellerBusy 0).resp o r) s
  else
    let x := answer o flashOk r s
    park r.mb (x.2.resp o r) { x.1 with svc := { x.1.svc with journal := some (r.mb, s.fw, x.1.fw) } }

/-! ### Taking a request (R39, R46, R54) -/

/-- The mailbox has a request complete at its front, or one whose LEN is out of range. -/
def frontReady (s : State) (m : Nat) : Bool :=
  if isNmb m then ((s.nmbs[m - 8]?).map fun b => !b.queued.isEmpty).getD false
  else 4 ≤ inPosted s m && (badLen (frontLen s m) || frontLen s m ≤ inPosted s m)

/-- A response of the mailbox waits. -/
def waiting (s : State) (m : Nat) : Bool := s.svc.out.any fun e => e.1 == m

/-- The mailbox taken from next: MB0 first, then the others in turn. -/
def nextMbox (s : State) : Option Nat :=
  (0 :: (List.range 10).map fun k => 1 + (s.svc.last + k) % 10).find? fun m => frontReady s m && !waiting s m

/-- The request of checked words (R48 steps 1 to 3), executed; or the status that ends it. -/
def checkAndServe (m : Nat) (ws : List Word) (flashOk : Bool) (s : State) : State :=
  let h := ws.take 4
  let w0 := h.getD 0 0#32
  if w0.getLsbD 19 || fld w0 16 2 != 0 then park m (respOf h 3 0) s
  else
    match parseItems (ws.length) 4 (ws.drop 4) with
    | .error off => park m (respOf h stFormat off) s
    | .ok is =>
      match opOfCode (fld w0 0 16) with
      | none => park m (respOf h 4 0) s
      | some o => serve o flashOk { mb := m, quiet := w0.getLsbD 18, seq := h.getD 1 0#32, handle := h.getD 2 0#32,
                                    commitAt := h.getD 3 0#32, items := is } s

/-- Reject the front with LENGTH, `n` words consumed (R46). -/
def rejectLength (m n detail : Nat) (h : List Word) (s : State) : State :=
  park m (respOf h 1 (low16 detail)) ((consume m n s).updMbox m fun b => { b with lenErrs := sat16 (b.lenErrs + 1) })

/-- Take the front request of a mailbox. The result of a flash write is the flash's own: a free value. -/
def takeFrom (m : Nat) (s : State) : State :=
  let p := inPosted s m
  let h := inFront s m 4
  let n := frontLen s m
  let s := traceLine m 0 h s
  if isNmb m then
    match (s.nmbs[m - 8]?).bind fun b => b.queued.head? with
    | none => s
    | some (key, bytes) =>
      let k := min 368 (bytes / 4)
      let ws := inFront s m k
      let s := { s with nmbs := s.nmbs.modify (m - 8) fun b => { b with queued := b.queued.drop 1, taken := some key } }
      if bytes ≠ 4 * n then rejectLength m k 0 h s else checkAndServe m ws true (consume m k s)
  else if badLen n then rejectLength m p p h s
  else
    let ws := inFront s m n
    let x := drawFree s
    let s := if opOfCode (fld (h.getD 0 0#32) 0 16) == some .nmbConfig then x.2 else s
    checkAndServe m ws (x.1.getLsbD 0) (consume m n s)

/-- REQUEST_TAKE, while STATE is SERVING. -/
def execRequestTake (s : State) : Host.Outcome State Fault Refusal :=
  if !s.serving then .next s
  else
    match nextMbox s with
    | none => .next s
    | some m => .next (takeFrom m { s with svc := { s.svc with last := if m = 0 then s.svc.last else m } })

/-- REQUEST_TIMEOUT (R47): a request not complete 3000 frames after its front was posted. -/
def execRequestTimeout (m : Nat) (s : State) : Host.Outcome State Fault Refusal :=
  let p := inPosted s m
  if 11 ≤ m || isNmb m || p = 0 || frontReady s m || waiting s m || s.clk.tally < (s.mboxAt m).headAt + frames 3000 then .next s
  else
    let h := inFront s m 4
    let h := if p < 4 then ((h.getD 0 0#32) &&& 0xFFFF0000#32) :: h.drop 1 else h
    .next (rejectLength m p p h s)

/-- HUB_BUSY_ANSWER (R62, R64): while STATE is not SERVING the hub answers a complete request itself. -/
def execHubBusyAnswer (m : Nat) (s : State) : Host.Outcome State Fault Refusal :=
  let n := frontLen s m
  if s.serving || 11 ≤ m || waiting s m then .next s
  else if isNmb m then
    match (s.nmbs[m - 8]?).bind fun b => b.queued.head? with
    | none => .next s
    | some (key, bytes) =>
      let h := inFront s m 4
      let s := { s with nmbs := s.nmbs.modify (m - 8) fun b => { b with queued := b.queued.drop 1, taken := some key } }
      .next (writeResp m (park m (respOf h stTellerBusy 0) (consume m (min 368 (bytes / 4)) s)))
  else if badLen n || inPosted s m < n then .next s
  else .next (writeResp m (park m (respOf (inFront s m 4) stTellerBusy 0) (consume m n s)))

/-! ### Takeover (R63, R516) -/

/-- A request in progress is undone: its response becomes TELLER_BUSY, header only. A COMMIT or SCENE_RECALL that has been armed
stands, and so does a request that has written flash; log 66. -/
def undoRequest (s : State) : State :=
  match s.svc.journal with
  | none => s
  | some (m, before, after_) =>
    match findKey m s.svc.out with
    | none => s
    | some p =>
      let o := opOfCode p.opcode
      let stands := p.status ≠ 0 || o == some .commit || o == some .sceneRecall || o == some .ledgerClear || o == some .fwBegin ||
        o == some .fwData || o == some .fwEnd || o == some .nmbConfig
      if stands then s
      else
        let busy : Resp := { p with status := stTellerBusy, detail := 0, items := [], after := .none }
        let s := { s with fw := if s.fw = after_ then before else s.fw,
                          svc := { s.svc with out := s.svc.out.map fun e => if e.1 = m then (m, busy) else e } }
        if o == some .admitConfig && (s.adm.waiting.map fun w => w.mb == m).getD false then
          { s with adm := { s.adm with waiting := none, fadeOut := [] } }
        else s

/-- TELLER_TAKEOVER: a STANDBY pair takes over. Loads under way and an update are lost (R174, R550). -/
def execTellerTakeover (s : State) : Host.Outcome State Fault Refusal :=
  if s.svc.state ≠ 2 then .next s
  else
    match (List.range 2).find? fun k => (pairAt s k).state == 2 with
    | none => .next s
    | some k =>
      let s := undoRequest s
      let s := setService 1 k { s with svc := { s.svc with journal := none } }
      let s := setPairState k 1 (s.updFault fun f => { f with active := k })
      let s := raiseOwn 0xA004 .teller s.clk.tally none k s
      let s := (s.feeds.map Feed.n).foldl (fun s f => abandonLoads f 1 s.clk.tally .teller s) s
      .next (cancelUpdate 4 (updPair k (fun p => { p with beat := s.clk.tally }) s))

/-! ### One command for each request -/

def execPing (r : Request) (s : State) : Host.Outcome State Fault Refusal := .next (serve .ping true r s)
def execLookup (r : Request) (s : State) : Host.Outcome State Fault Refusal := .next (serve .lookup true r s)
def execRelease (r : Request) (s : State) : Host.Outcome State Fault Refusal := .next (serve .release true r s)
def execQuery (r : Request) (s : State) : Host.Outcome State Fault Refusal := .next (serve .query true r s)
def execRead (r : Request) (s : State) : Host.Outcome State Fault Refusal := .next (serve .read true r s)
def execStage (r : Request) (s : State) : Host.Outcome State Fault Refusal := .next (serve .stage true r s)
def execCommit (r : Request) (s : State) : Host.Outcome State Fault Refusal := .next (serve .commit true r s)
def execDiscard (r : Request) (s : State) : Host.Outcome State Fault Refusal := .next (serve .discard true r s)
def execAdmitConfig (r : Request) (s : State) : Host.Outcome State Fault Refusal := .next (serve .admitConfig true r s)
def execSceneStore (r : Request) (s : State) : Host.Outcome State Fault Refusal := .next (serve .sceneStore true r s)
def execSceneRecall (r : Request) (s : State) : Host.Outcome State Fault Refusal := .next (serve .sceneRecall true r s)
def execFilterLoad (r : Request) (s : State) : Host.Outcome State Fault Refusal := .next (serve .filterLoad true r s)
def execEventRingSet (r : Request) (s : State) : Host.Outcome State Fault Refusal := .next (serve .eventRingSet true r s)
def execLedgerRead (r : Request) (s : State) : Host.Outcome State Fault Refusal := .next (serve .ledgerRead true r s)
def execLedgerClear (r : Request) (s : State) : Host.Outcome State Fault Refusal := .next (serve .ledgerClear true r s)
def execFwBegin (r : Request) (s : State) : Host.Outcome State Fault Refusal := .next (serve .fwBegin true r s)
def execFwData (r : Request) (s : State) : Host.Outcome State Fault Refusal := .next (serve .fwData true r s)
def execFwEnd (r : Request) (s : State) : Host.Outcome State Fault Refusal := .next (serve .fwEnd true r s)

/-- NMB_CONFIG, with the outcome of its flash write. -/
def execNmbConfig (r : Request) (flashOk : Bool) (s : State) : Host.Outcome State Fault Refusal :=
  .next (serve .nmbConfig flashOk r s)

end Sys2Proof.Machine
end

