-- ==== Sys2Proof/Machine/Stage.lean ====
section
/-! DEFINITION. Running user stages on spokes (R281, R299 to R306): INSTANCE_ENTRY, EXIT and INSTANCE_DRAIN_DONE. -/

namespace Sys2Proof.Machine

/-- The inputs that tandems and their members meet in the frame dispatched at `t`, as computed so far. -/
def frameInputs (s : State) (t : Nat) : List (Node × List (List Int)) :=
  let olds := s.chans
  let cs := s.chans.map (runChannel s t)
  let bs := s.buses.map (runBus s t cs olds)
  let os := s.render.objs.map (runObject s t bs)
  let fs := s.feeds.map (runFeed s t bs os)
  cs.flatMap ChanRun.seen ++ bs.flatMap BusRun.seen ++ fs.flatMap FeedRun.seen

/-- Which copy of a node a spoke runs: 0 primary, 1 secondary. -/
def copyOn (s : State) (n : Node) (sp : Nat) : Option Nat :=
  (s.adm.place.find? fun e => e.1 == n).bind fun e => if e.2.1 = sp then some 0 else if e.2.2 = some sp then some 1 else none

/-- The areas of an instance on a spoke, with the size of each (R281). -/
def areasOf (sp : Nat) (p : List Name) (h : ImageHdr) : List Area :=
  let a (code size : Nat) (rw : Bool) : Area := { code := code, base := Config.areaBase sp p code, size := size, rw := rw }
  [a 1 (64 * h.inputs) false, a 2 (64 * h.outputs) true, a 3 (4 * h.params) false, a 4 h.state false, a 5 h.state true,
    a 6 h.scratch true, a 7 h.data false]

/-- The code and the DATA words of an image (R305). -/
def imageCode (ws : List Word) : List Word := (ws.drop (32 + 3 * (imageHdr ws).params)).take ((imageHdr ws).code / 4)
def imageData (ws : List Word) : List Word :=
  (ws.drop (32 + 3 * (imageHdr ws).params + (imageHdr ws).code / 4)).take ((imageHdr ws).data / 4)

/-- p, n, rl and rb of pointer `i` from the entry table (R306). -/
def entryRegs (sp : Nat) (p : List Name) (ws : List Word) (i : Nat) : Word × Word × Word × Word :=
  let a := ws.getD (12 + 2 * i) 0#32
  let b := ws.getD (13 + 2 * i) 0#32
  let ptr : Word := if fld a 28 4 = 0 then 0#32 else wd (Config.areaBase sp p (fld a 28 4) + fld a 0 20)
  let rim := fld b 0 16
  (ptr, (b.extractLsb' 16 16).signExtend 32, wd (4 * rim), if rim = 0 then 0#32 else ptr)

/-- The areas filled at entry. -/
def fillAreas (s : State) (sp copy : Nat) (p : List Name) (ws : List Word) (ins : List (List Int)) (m : Mem) : Mem :=
  let h := imageHdr ws
  let base := Config.areaBase sp p
  let st := (((s.instAt p).bind fun x => x.copies[copy]?).map InstCopy.state).getD []
  let words (m : Mem) (a : Nat) (l : List Word) : Mem := m.putBytes a (l.flatMap bytesOf)
  let m := words m (base 8) (imageCode ws)
  let m := words m (base 7) (imageData ws)
  let m := words m (base 1) ((List.range h.inputs).flatMap fun i => (List.range 16).map fun k => wi ((ins.getD i []).getD k 0))
  let m := words m (base 3) ((List.range h.params).map (instParam s p))
  let m := (m.putBytes (base 4) st).putBytes (base 5) st
  m.putBytes (base 2) (List.replicate (64 * h.outputs) 0#8)

/-- The core of a spoke that enters an instance (R300). -/
def enterCore (s : State) (sp copy : Nat) (p : List Name) (ins : List (List Int)) (c : Core) : Core :=
  let ws := instImage s p
  let h := imageHdr ws
  let e := (List.range 8).map (entryRegs sp p ws)
  { c with
    regs := { Regs.zero with p := e.map (·.1), n := e.map (·.2.1), rl := e.map (·.2.2.1), rb := e.map (·.2.2.2) },
    snap := Regs.zero, flights := [], loops := [], pc := Config.areaBase sp p 8 + h.entryPc, rank := 0, written := [],
    cmac := false, setA := false, setR := false, undo := [], issue := 0, extra := 0, next := 1,
    sram := fillAreas s sp copy p ws ins c.sram, areas := areasOf sp p h, inst := some p, copy := copy, fence := h.cycles,
    mode := .body, stall := none }

/-- INSTANCE_ENTRY (R300): a spoke that carries a copy of the instance starts it, once in a frame; a FAULTED instance is not run
(R303). -/
def execInstanceEntry (sp : Nat) (path : List Name) (s : State) : Host.Outcome State Fault Refusal :=
  match s.coreAt sp, s.snd.running, s.instAt path, copyOn s (.inst path) sp with
  | some c, some t, some x, some k =>
    if c.inst.isSome || x.faulted || x.ran.contains k || s.snd.complete.contains sp || s.snd.aborted.contains sp then .next s
    else
      let ins := (findKey (Node.inst path) (frameInputs s t)).getD []
      .next ((s.setCore sp (enterCore s sp k path ins c)).updInst path fun x => { x with ran := k :: x.ran })
  | _, _, _, _ => .next s

/-- The outputs in an instance's OUTPUTS area. -/
def outputsOf (c : Core) (sp : Nat) (p : List Name) (count : Nat) : List (List Int) :=
  (List.range count).map fun i =>
    (c.sram.words (Config.areaBase sp p 2 + 64 * i) 16).map fun w => w.toInt

/-- What `exit` does to the instance (R300, R308): OV_FRAMES and PEAK of the primary copy, its outputs, and the state the copy
keeps. -/
def exitInst (sp : Nat) (p : List Name) (c : Core) (s : State) : State :=
  let h := imageHdr (instImage s p)
  let outs := outputsOf c sp p h.outputs
  let has := s.snd.published.any fun e => e.1 == Node.inst p
  let pub := if c.copy = 0 || !has then (Node.inst p, outs) :: dropKey (Node.inst p) s.snd.published else s.snd.published
  let ov := c.regs.ova || c.regs.ovr
  { s.updInst p fun x =>
      { x with
        ovFrames := if c.copy = 0 && ov then satAdd32 x.ovFrames 1 else x.ovFrames,
        peak := if c.copy = 0 then max x.peak c.issue else x.peak,
        copies := x.copies.modify c.copy fun k => { k with state := c.sram.bytes (Config.areaBase sp p 5) h.state } }
    with snd := { s.snd with published := pub } }

/-- `exit` (R290, R300): its bundle retires; an instance then drains. In the firmware's own code it only ends the bundle. -/
def execExit (sp : Nat) (s : State) : Host.Outcome State Fault Refusal :=
  match s.coreAt sp with
  | none => .next s
  | some c =>
    match c.inst with
    | none => ctlSlot sp (ctlSpec true [] []) (fun c => if atLoopEnd c then (c, some 1) else (c, none)) s
    | some p =>
      let r := runSlot sp (ctlSpec true [] []) (fun c =>
        if atLoopEnd c then (c, some 1) else ({ endBundle 0 c with mode := .drain }, none)) s
      match r with
      | .next s' =>
        match s'.coreAt sp with
        | some d => if c.mode == .body && d.mode == .drain then .next (exitInst sp p d s') else .next s'
        | none => .next s'
      | o => o

/-- INSTANCE_DRAIN_DONE (R300): every DMA of the instance has completed; the spoke is free for the next instance. Its cycles count
entry, body and exit. -/
def execInstanceDrainDone (sp : Nat) (s : State) : Host.Outcome State Fault Refusal :=
  match s.coreAt sp with
  | none => .next s
  | some c =>
    match c.inst with
    | none => .next s
    | some p =>
      if (c.mode == .drain || c.mode == .stopped) && c.dmaq.isEmpty then
        let h := imageHdr (instImage s p)
        .next (s.updSpoke sp fun x =>
          { x with used := x.used + entryCycles h + c.issue + (if c.mode == .drain then 8 else 0),
                   core := { c with inst := none, areas := [], mode := .firmware } })
      else .next s

end Sys2Proof.Machine
end

