-- ==== Sys2Proof/Machine/HostRegs.lean ====
section
/-! DEFINITION. Host access and registers (spec/14_host_interface_registers.md): the address maps, the register map with its access
codes, paired writes, snapshots, the indirect space, the PCIe endpoint and the SPI slave. A host names BAR0 offsets, and PCIe names
BAR2 offset x as 2^24 + x; a teller names internal addresses. -/

namespace Sys2Proof.Machine

/-! ### Masters and errors (R466, R468) -/

def isTeller : Master → Bool
  | .tellerA => true
  | .tellerB => true
  | .pcie => false
  | .spi => false

/-- STRAP_HOST lets the master work (R497). -/
def hostOn (s : State) : Master → Bool
  | .pcie => s.boot.hostStrap == 0 || s.boot.hostStrap == 2
  | .spi => s.boot.hostStrap == 0 || s.boot.hostStrap == 1
  | _ => true

/-- A register's address as a master gives it (R453). -/
def regAddr (m : Master) (r : Nat) : Nat := if isTeller m then 0x10000000 + r else r

/-- KIND of SYS_BUS_ERR_INFO. -/
def kUndecoded : Nat := 0
def kNoPath : Nat := 1
def kUnaligned : Nat := 2
def kOff : Nat := 3

/-- Power domain `i` is on (R488). -/
def domainOn (s : State) (i : Nat) : Bool := bitOf s.boot.domains i

/-! ### Paired writes (R475) -/

/-- Offsets A of the PW registers. -/
def pairedRegs : List Nat := [0x60, 0x68, 0x70, 0xA008, 0xF008]

def pairErr (s : State) : State := s.updErr fun e => { e with pairErr := true }

def dropHalf (a : Nat) (s : State) : State := s.updRegs fun r => { r with halves := r.halves.filter fun h => !(h.off == a) }

def halfAt (s : State) (a : Nat) : Option PairHalf := s.regs.halves.find? fun h => h.off == a

/-- A write at A. -/
def writeHalf (m : Master) (a : Nat) (v : Word) (s : State) : State :=
  let s := if (halfAt s a).isSome then pairErr s else s
  (dropHalf a s).updRegs fun r => { r with halves := { off := a, master := m, value := v, at_ := s.clk.tally } :: r.halves }

/-- The 160 ns of the pair in whole ticks: four ticks later they have passed. -/
def pairTicks : Nat := 3

/-- The value of a completed pair takes effect. -/
def pairEffect (a : Nat) (v : Word) (s : State) : State :=
  if a = 0x60 then s.updRegs fun r => { r with remap := v &&& 3#32 }
  else if a = 0x68 then s.updRegs fun r => { r with bar2Base := v &&& 0x3F#32 }
  else if a = 0x70 then s.updRegs fun r => { r with dramWin := v &&& 0x3F#32 }
  else if a = 0xA008 then bellLookAll { s with bell := { s.bell with sw := v &&& 15#32 } }
  else settleFaults (s.updFault fun f => { f with test := v &&& 3#32 })

/-- The committed value of a PW register. -/
def pairValue (s : State) (a : Nat) : Word :=
  if a = 0x60 then s.regs.remap
  else if a = 0x68 then s.regs.bar2Base
  else if a = 0x70 then s.regs.dramWin
  else if a = 0xA008 then s.bell.sw
  else s.fault.test

/-- A write at A + 0x4. A broken seal also makes a ledger entry, for the monitor where it writes, else for no mailbox. -/
def writeComplement (m : Master) (a : Nat) (v : Word) (s : State) : State :=
  match halfAt s a with
  | none => pairErr s
  | some h =>
    let s := dropHalf a s
    if h.master ≠ m || v != ~~~h.value || decide (h.at_ + pairTicks < s.clk.tally) then pairErr s
    else if a == 0xF008 && authFault s != 0 then
      let s := s.updErr fun e => { e with keyErr := true }
      if s.maint.loop then s else raiseRefused (if isTeller m then 10 else 0xF) 2 s
    else pairEffect a h.value s

/-! ### Snapshot (R476) -/

def snapBusy (s : State) : Bool := decide (s.clk.tally < s.regs.snapUntil)

/-- SYS_SNAPSHOT. The copies are taken in the tick of the write. DESIGN CHOICE, log 73. -/
def writeSnapshot (v : Word) (s : State) : State :=
  if snapBusy s then s.updErr fun e => { e with snapLost := true }
  else
    let sel := (List.range 4).filter fun n => v.getLsbD n
    if sel.isEmpty then s
    else if !domainOn s 8 then s.updRegs fun r => { r with snapOff := r.snapOff ||| fld v 0 4 }
    else
      let t := s.clk.tally
      let s := sel.foldl (fun s n => s.updMac n fun x => { x with hold := x.cnt, holdTick := t }) s
      s.updRegs fun r => { r with snapUntil := t + 1 }

/-! ### The indirect space (R22, R477, R478) -/

/-- Power domain of an indirect address, where some register lies. -/
def indDomain (a : Nat) : Option Nat :=
  if 0x02000000 ≤ a ∧ a < 0x02000100 then some 7
  else if 0x03000000 ≤ a ∧ a < 0x03040000 ∧ a % 0x10000 < 0x300 then some 8
  else if (0x04000000 ≤ a ∧ a < 0x04040000) ∨ (0x04100000 ≤ a ∧ a < 0x04120000) then some 6
  else none

/-- NETn_STATUS. -/
def netStatus (x : Mac) : Word :=
  wd (b2n x.pause.isSome * 128 + b2n x.gateNext.isSome * 64 + b2n x.gate.isSome * 32 + x.rate * 8 + x.link)

/-- Read an NETn register at offset `o`. -/
def netRead (n o : Nat) (s : State) : Option (Word × State) :=
  let x := s.macAt n
  if o = 0 then some (netStatus x, s)
  else if o = 0x10 then some (x.halfEn, s)
  else if o = 0x14 then some (x.halfStat, s.updMac n fun y => { y with halfStat := 0#32 })
  else if 0x100 ≤ o ∧ o < 0x180 then some (x.cnt.getD ((o - 0x100) / 4) 0#32, s)
  else if 0x200 ≤ o ∧ o < 0x280 then some (x.hold.getD ((o - 0x200) / 4) 0#32, s)
  else if o = 0x280 then some (wd x.holdTick, s)
  else if o = 0x284 then some (wd (x.holdTick / 2 ^ 32), s)
  else none

/-- Read an indirect address whose domain is on. -/
def indRead (a : Nat) (s : State) : Option (Word × State) :=
  if a < 0x03000000 then ddrRead a s
  else if a < 0x04000000 then netRead (a / 0x10000 % 4) (a % 0x10000) s
  else some (Config.gearMemory a, s)

/-- The bank of a master, or the monitor's. -/
def bankOf (s : State) (bank : Option Master) : IndBank :=
  match bank with
  | some m => s.regs.ind.getD (masterCode m) IndBank.reset
  | none => s.regs.mind

def updBank (bank : Option Master) (f : IndBank → IndBank) (s : State) : State :=
  match bank with
  | some m => s.updRegs fun r => { r with ind := r.ind.modify (masterCode m) f }
  | none => s.updRegs fun r => { r with mind := f r.mind }

/-- Every access moves the address on by 4. -/
def stepBank (b : IndBank) : IndBank := { b with addr := b.addr + 4#32 }

/-- A read of SYS_IND_DATA or SYS_MIND_DATA. -/
def indDataRead (bank : Option Master) (s : State) : Word × State :=
  let a := (bankOf s bank).addr.toNat
  let s := updBank bank stepBank s
  let undec : Word × State := (0#32, updBank bank (fun b => { b with undec := true }) s)
  match indDomain a with
  | none => undec
  | some d =>
    if !domainOn s d then (0xFFFFFFFF#32, updBank bank (fun b => { b with off := true }) s)
    else (indRead a s).getD undec

/-- A write of SYS_IND_DATA or SYS_MIND_DATA: NETn_HALF_EN is the one location that takes it. -/
def indDataWrite (bank : Option Master) (v : Word) (s : State) : State :=
  let a := (bankOf s bank).addr.toNat
  let s := updBank bank stepBank s
  let undec : State := updBank bank (fun b => { b with undec := true }) s
  match indDomain a with
  | none => undec
  | some d =>
    if !domainOn s d then updBank bank (fun b => { b with off := true }) s
    else if d = 8 ∧ a % 0x10000 = 0x10 then s.updMac (a / 0x10000 % 4) fun x => { x with halfEn := v }
    else if (indRead a s).isSome then updBank bank (fun b => { b with wrIgn := true }) s
    else undec

/-- The words of a bank's STATUS, and the bank with it cleared. -/
def bankStatus (b : IndBank) : Word := wd (b2n b.wrIgn * 4 + b2n b.undec * 2 + b2n b.off)
def clearBank (b : IndBank) : IndBank := { b with off := false, undec := false, wrIgn := false }

/-! ### Registers (R471, R472, R482) -/

/-- Registers that only a teller reaches. -/
def tellerOnly (r : Nat) : Bool :=
  (0x60 ≤ r && r < 0x68) || (0x70 ≤ r && r < 0x78) || (0x80 ≤ r && r < 0x8C) || (0xE100 ≤ r && r < 0xF000)

def errWord (e : SysErr) : Word :=
  wd (b2n e.snapLost * 32 + b2n e.busErr * 16 + b2n e.keyErr * 8 + b2n e.collide * 4 + b2n e.accErr * 2 + b2n e.pairErr)

/-- A mailbox's registers, `k` the word in its block. -/
def mboxRead (m k : Nat) (s : State) : Option (Word × State) :=
  let b := s.mboxAt m
  match k with
  | 0 => some (wd b.inWr, s)
  | 1 => some (wd b.inRd, s)
  | 2 => some (wd b.outWr, s)
  | 3 => some (wd b.outRd, s)
  | 4 => some (wd (b2n b.irqEn), s)
  | 5 => some (wd (b.lenErrs * 65536 + b2n b.held * 4 + b2n b.rdErr * 2 + b2n b.wrErr),
      s.updMbox m fun b => { b with lenErrs := 0, rdErr := false, wrErr := false })
  | _ => none

/-- An event ring's registers. -/
def evRead (e k : Nat) (s : State) : Option (Word × State) :=
  match s.rings[e]? with
  | none => none
  | some r =>
    match k with
    | 0 => some (wd r.wr, s)
    | 1 => some (wd r.rd, s)
    | 2 => some (wd (r.lost * 65536 + b2n r.enable * 4 + b2n r.rdErr * 2 + b2n r.run.isSome),
        { s with rings := s.rings.set e { r with lost := 0, rdErr := false } })
    | _ => none

/-- A host DMA queue's registers. -/
def hdRead (q k : Nat) (s : State) : Option (Word × State) :=
  let h := s.hdAt q
  match k with
  | 0 => some (h.baseLo, s)
  | 1 => some (h.baseHi, s)
  | 2 => some (wd (h.k * 16 + b2n h.enable), s)
  | 3 => some (wd h.wr, s)
  | 4 => some (wd h.rd, s)
  | _ => none

/-- WHLw_ROLE and WHLw_HEALTH. -/
def wheelRead (w k : Nat) (s : State) : Option (Word × State) :=
  match k with
  | 0 => some (wd (sumNat ((List.range 10).map fun i => spokeRole s (10 * w + i) * 8 ^ i)), s)
  | 1 => some (wd (sumNat ((List.range 10).map fun i => spokeHealth s (10 * w + i) * 4 ^ i)), s)
  | _ => none

/-- SAIn_STATUS, AESIn_STATUS, AESOn_STATUS and PDM_STATUS; those of a port that no configuration has read their reset values. -/
def portRead (o : Nat) (s : State) : Option (Word × State) :=
  let core (p : PortSt) : Nat := b2n p.late * 4096 + p.phase * 8 + p.state
  if o < 0x100 ∧ o % 16 = 0 then
    let n := o / 16
    match s.saiAt n with
    | none => some (0#32, s)
    | some x => some (wd (x.bcnt * 65536 + b2n x.slip * 32768 + core x.st), s.updSai n fun y => { y with slip := false })
  else if 0x100 ≤ o ∧ o < 0x140 ∧ o % 16 = 0 then
    let n := o / 16 % 16
    match s.aesiAt n with
    | none => some (0#32, s)
    | some x =>
      let v := sumNat (x.chans.zipIdx.map fun c => b2n c.1.v * 2 ^ c.2)
      some (wd (x.flags * 65536 + v * 8192 + core x.st), s.updAesi n fun y => { y with flags := 0 })
  else if 0x140 ≤ o ∧ o < 0x180 ∧ o % 16 = 0 then
    let n := o / 16 % 4
    match s.aesos[n]? with
    | none => none
    | some x => some (wd (sumNat (x.v.zipIdx.map fun c => b2n c.1 * 2 ^ c.2) * 8192 +
        (if admitted s (.aeso n) then 2 else 0)), s)
  else if o = 0x180 then
    let bits (f : Pdm → Bool) : Nat := sumNat (s.pdms.map fun x => if f x then 2 ^ x.n else 0)
    some (wd (bits Pdm.flag * 65536 + bits fun x => x.state == 2), { s with pdms := s.pdms.map fun x => { x with flag := false } })
  else none

/-- The registers at offset `r` that are neither banked nor paired, with the effect of the read. -/
def plainRead (r : Nat) (s : State) : Option (Word × State) :=
  if r = 0x0 then some (0x10240100#32, s)
  else if r = 0x4 then
    some (wd (b2n s.boot.pcieLink * 32 + b2n s.boot.bar2En * 16 + s.boot.image * 4 + b2n s.clk.holdover * 2 + b2n s.boot.ready), s)
  else if r = 0x8 then some (errWord s.regs.err, s.updErr fun _ => SysErr.reset)
  else if r = 0x10 then some (s.regs.busAddr, s)
  else if r = 0x14 then
    some ((if s.regs.busValid then 0x80000000#32 else 0#32) ||| s.regs.busInfo, s.updRegs fun x => { x with busValid := false })
  else if r = 0x30 then some (0#32, s)
  else if r = 0x34 then some (wd (b2n (snapBusy s) * 256 + s.regs.snapOff), s.updRegs fun x => { x with snapOff := 0 })
  else if r = 0x50 then some (s.regs.irqPend, s.updRegs fun x => { x with irqPend := 0#32 })
  else if r = 0x54 then some (s.regs.irqMask, s)
  else if 0x4000 ≤ r ∧ r < 0x4100 then mboxRead ((r - 0x4000) / 32) (r % 32 / 4) s
  else if r = 0x4100 then some (wd (s.svc.pair * 4 + s.svc.state), s)
  else if 0x4200 ≤ r ∧ r < 0x4280 then evRead ((r - 0x4200) / 16) (r % 16 / 4) s
  else if 0x4400 ≤ r ∧ r < 0x4600 then hdRead ((r - 0x4400) / 32) (r % 32 / 4) s
  else if r = 0x4600 then some (wd s.regs.hdDone, s.updRegs fun x => { x with hdDone := 0 })
  else if 0x5000 ≤ r ∧ r < 0x5400 then wheelRead ((r - 0x5000) / 256) (r % 256 / 4) s
  else if r = 0xA000 then some (bellStatus s, { s with bell := { s.bell with storeErr := false } })
  else if 0xB000 ≤ r ∧ r < 0xB184 then portRead (r - 0xB000) s
  else if r = 0xC000 then some (wd s.gearTop.load, s)
  else if r = 0xC004 then
    some (wd (b2n s.gearTop.unresolved * 4 + b2n s.gearTop.mismatch * 2 + b2n (s.gears.any fun g => g.warmTo.isSome)),
      { s with gearTop := { s.gearTop with unresolved := false, mismatch := false } })
  else if 0xD000 ≤ r ∧ r < 0xD040 ∧ r % 16 = 0 then
    let n := r / 16 % 4
    some (pilotStatus (s.pilotAt n), s.updPilot n fun p => { p with flags := 0 })
  else if r = 0xE000 then some (wd (s.fault.active * 256 + (pairAt s 1).state * 4 + (pairAt s 0).state), s)
  else if r = 0xF000 then
    some (wd (b2n s.fault.outB * 8 + b2n s.fault.outA * 4 + b2n s.maint.loop * 2 + b2n s.maint.key), s)
  else if r = 0xF004 then some (wd s.boot.domains, s)
  else none

/-- A 32-bit read of the register at offset `r`; none where none decodes. The tally is read through its mirror, and the
teller-private block holds what the firmware likes: a free value. -/
def regRead (m : Master) (r : Nat) (s : State) : Option (Word × State) :=
  let k := masterCode m
  if r = 0x20 then
    some (wd s.clk.tally, s.updRegs fun x => { x with tallyHi := x.tallyHi.set k (wd (s.clk.tally / 2 ^ 32)) })
  else if r = 0x24 then some (s.regs.tallyHi.getD k 0#32, s)
  else if r = 0x40 then some ((bankOf s (some m)).addr, s)
  else if r = 0x44 then some (indDataRead (some m) s)
  else if r = 0x48 then some (bankStatus (bankOf s (some m)), updBank (some m) clearBank s)
  else if r = 0x80 then some (s.regs.mind.addr, s)
  else if r = 0x84 then some (indDataRead none s)
  else if r = 0x88 then some (bankStatus s.regs.mind, updBank none clearBank s)
  else if 0xE100 ≤ r ∧ r < 0xF000 then some (drawFree s)
  else if pairedRegs.contains r then some (pairValue s r, s)
  else if 4 ≤ r ∧ pairedRegs.contains (r - 4) then some (~~~(pairValue s (r - 4)), s)
  else plainRead r s

/-- HUB_HDq_WR (R38, R480): ignored where it breaks the index rule. -/
def writeHdWr (q : Nat) (v : Word) (s : State) : State :=
  let h := s.hdAt q
  let size := 2 ^ h.kEff
  let n := fld v 0 13
  let new := posted size n h.rd
  if n < 2 * size ∧ new ≤ size ∧ posted size h.wr h.rd ≤ new then s.updHd q fun h => { h with wr := n } else s

/-- Writes of a host DMA queue: BASE and K only while ENABLE is 0 (R482). -/
def hdWrite (q k : Nat) (v : Word) (s : State) : State :=
  match k with
  | 0 => s.updHd q fun h => if h.enable then h else { h with baseLo := v &&& 0xFFFFFFC0#32 }
  | 1 => s.updHd q fun h => if h.enable then h else { h with baseHi := v }
  | 2 => s.updHd q fun h => { h with k := if h.enable then h.k else fld v 4 4, enable := v.getLsbD 0 }
  | 3 => writeHdWr q v s
  | _ => s

/-- A 32-bit write of the register at offset `r`; none where none decodes. Read-only fields ignore it (R471, R472). -/
def regWrite (m : Master) (r : Nat) (v : Word) (s : State) : Option State :=
  if pairedRegs.contains r then some (writeHalf m r v s)
  else if 4 ≤ r ∧ pairedRegs.contains (r - 4) then some (writeComplement m (r - 4) v s)
  else if r = 0x30 then some (writeSnapshot v s)
  else if r = 0x40 then some (updBank (some m) (fun b => { b with addr := v &&& 0xFFFFFFFC#32 }) s)
  else if r = 0x44 then some (indDataWrite (some m) v s)
  else if r = 0x80 then some (updBank none (fun b => { b with addr := v &&& 0xFFFFFFFC#32 }) s)
  else if r = 0x84 then some (indDataWrite none v s)
  else if r = 0x54 then some (s.updRegs fun x => { x with irqMask := v })
  else if 0x4000 ≤ r ∧ r < 0x4100 ∧ r % 32 = 0 then some (writeInWr ((r - 0x4000) / 32) v s)
  else if 0x4000 ≤ r ∧ r < 0x4100 ∧ r % 32 = 12 then some (writeOutRd ((r - 0x4000) / 32) v s)
  else if 0x4000 ≤ r ∧ r < 0x4100 ∧ r % 32 = 16 then
    some (s.updMbox ((r - 0x4000) / 32) fun b => { b with irqEn := v.getLsbD 0 })
  else if 0x4200 ≤ r ∧ r < 0x4280 ∧ r % 16 = 4 then some (writeEvRd ((r - 0x4200) / 16) v s)
  else if 0x4400 ≤ r ∧ r < 0x4600 ∧ r % 32 < 20 then some (hdWrite ((r - 0x4400) / 32) (r % 32 / 4) v s)
  else (regRead m r s).map fun _ => s

/-! ### Ring windows and memories (R35, R107, R452, R453) -/

/-- A host access to the window at offsets 0x0010_0000 to 0x002F_FFFF: mailbox m inbound, mailbox m outbound, or event ring e,
with the byte position. -/
inductive RingPart where
  | inb (m p : Nat) | outb (m p : Nat) | ev (e p : Nat) | hole
deriving DecidableEq, Repr

def ringPart (a : Nat) : RingPart :=
  if 0x100000 ≤ a ∧ a < 0x110000 then
    let m := (a - 0x100000) / 0x2000
    let p := a % 0x2000
    if p < 0x1000 then .inb m p else .outb m (p - 0x1000)
  else if 0x200000 ≤ a ∧ a < 0x280000 then .ev ((a - 0x200000) / 0x10000) (a % 0x10000)
  else .hole

/-- A word of an event ring: 0 from position S up; undefined outside the posted range. -/
def evWord (r : EvRing) (p : Nat) (s : State) : Word × State :=
  let w := p / 4
  if r.size ≤ w then (0#32, s)
  else if (w + r.size - r.rd % r.size) % r.size < posted r.size r.wr r.rd then (r.words.word (4 * w), s)
  else drawFree s

/-- A word of an outbound ring: undefined outside the posted range (R37). -/
def outWord (b : Mbox) (p : Nat) (s : State) : Word × State :=
  if (p / 4 + 1024 - b.outRd % 1024) % 1024 < posted 1024 b.outWr b.outRd then (b.outRing.word p, s) else drawFree s

/-- Read a ring word. -/
def ringRead (x : RingPart) (s : State) : Option (Word × State) :=
  match x with
  | .inb m p => some ((s.mboxAt m).inRing.word p, s)
  | .outb m p => some (outWord (s.mboxAt m) p s)
  | .ev e p => (s.rings[e]?).map fun r => evWord r p s
  | .hole => none

/-- The DRAM window and BAR2 (R408, R452, R455): a BULK request of identity 43 on the normal space, with the word it reads; or the
kind of the error. -/
def windowAccess (x : Nat) (write : Bool) (data : List Byte) (s : State) : Except Nat (List Byte × State) :=
  if !domainOn s 7 || !s.dram.ready then .error kOff
  else if normalBytes s < x + 4 then .error kUndecoded
  else
    let old := if (s.chAt (normalPlace s.dram (x / 512)).1).failed then List.replicate 4 0#8 else s.dram.normal.bytes x 4
    .ok (old, acceptReq { requester := 43, cls := 3, space := .normal, addr := x, bytes := 4, write := write, data := data } s)

/-- Where a teller's address leads. -/
inductive CtlPart where
  | rom (p : Nat) | sram (k p : Nat) | reg (r : Nat) | hub (p : Nat) | win (x : Nat) | hole
deriving DecidableEq, Repr

def ctlPart (s : State) (m : Master) (a : Nat) : CtlPart :=
  let k := masterCode m
  let low (map : Bool) (p : Nat) : CtlPart := if map then .sram k p else if p < 0x40000 then .rom p else .hole
  if a < 0x200000 then low (s.regs.remap.getLsbD k) a
  else if 0x04000000 ≤ a ∧ a < 0x04200000 then low (!s.regs.remap.getLsbD k) (a - 0x04000000)
  else if 0x10000000 ≤ a ∧ a < 0x10100000 then .reg (a - 0x10000000)
  else if 0x20000000 ≤ a ∧ a < 0x22000000 then .hub (a - 0x20000000)
  else if 0x80000000 ≤ a ∧ a < 0x100000000 then .win (s.regs.dramWin.toNat * 2 ^ 28 + (a - 0x80000000))
  else .hole

/-- The word of four bytes. -/
def bytesWord (bs : List Byte) : Word := wordOfBytes (bs.getD 0 0#8) (bs.getD 1 0#8) (bs.getD 2 0#8) (bs.getD 3 0#8)

/-! ### A 32-bit access by a master -/

/-- An error response to a read or a write. -/
def refuse (m : Master) (a kind : Nat) (write : Bool) (s : State) : State :=
  let window := m == .pcie && decide (2 ^ 24 ≤ a)
  busError m (if window then a - 2 ^ 24 else a) kind write window s

/-- The MSI-X table and its pending bits, which answer PCIe only. -/
def msixPart (a : Nat) : Bool := decide (0x300000 ≤ a ∧ a < 0x300200) || a == 0x301000 || a == 0x301004

/-- Read the word at an aligned address; none with an error response. -/
def busRead (m : Master) (a : Nat) (s : State) : Option Word × State :=
  let bad (k : Nat) : Option Word × State := (none, refuse m a k false s)
  let good (x : Option (Word × State)) : Option Word × State :=
    match x with
    | some y => (some y.1, y.2)
    | none => bad kUndecoded
  let window (x : Nat) : Option Word × State :=
    match windowAccess x false [] s with
    | .ok y => (some (bytesWord y.1), y.2)
    | .error k => bad k
  if isTeller m then
    match ctlPart s m a with
    | .rom p => (some (Config.bootRom p), s)
    | .sram k p => (some ((s.regs.tsram.getD k []).word p), s)
    | .reg r => good (regRead m r s)
    | .hub p => if domainOn s 6 then (some (s.regs.hubSram.word p), s) else bad kOff
    | .win x => window x
    | .hole => bad kUndecoded
  else if a < 0x100000 then (if tellerOnly a then bad kNoPath else good (regRead m a s))
  else if a < 0x300000 then
    if ringPart a ≠ .hole && !domainOn s 6 then bad kOff else good (ringRead (ringPart a) s)
  else if a < 2 ^ 24 then
    if m = .pcie ∧ 0x300000 ≤ a ∧ a < 0x300200 then (some (s.regs.msixTable.word (a - 0x300000)), s)
    else if m = .pcie ∧ a = 0x301000 then (some s.regs.msixPba, s)
    else if m = .pcie ∧ a = 0x301004 then (some 0#32, s)
    else bad (if msixPart a then kNoPath else kUndecoded)
  else if m = .pcie && s.boot.bar2En && decide (a < 2 ^ 24 + 2 ^ 28) then window (s.regs.bar2Base.toNat * 2 ^ 28 + (a - 2 ^ 24))
  else bad kUndecoded

/-- A write of the MSI-X table: a vector whose mask is lifted loses its pending bit. PRESUMED, log 71. -/
def msixWrite (p : Nat) (v : Word) (s : State) : State :=
  s.updRegs fun r =>
    { r with msixTable := r.msixTable.putWord p v,
             msixPba := if p % 16 = 12 ∧ !v.getLsbD 0 then r.msixPba &&& ~~~(wd (2 ^ (p / 16))) else r.msixPba }

/-- Write the word at an aligned address; the flag says that it got an error response. -/
def busWrite (m : Master) (a : Nat) (v : Word) (s : State) : Bool × State :=
  let bad (k : Nat) : Bool × State := (true, refuse m a k true s)
  let good (x : Option State) : Bool × State :=
    match x with
    | some t => (false, t)
    | none => bad kUndecoded
  let window (x : Nat) : Bool × State :=
    match windowAccess x true (bytesOf v) s with
    | .ok y => (false, y.2)
    | .error k => bad k
  if isTeller m then
    match ctlPart s m a with
    | .rom _ => (false, s)
    | .sram k p => (false, s.updRegs fun r => { r with tsram := r.tsram.modify k fun x => x.putWord p v })
    | .reg r => good (regWrite m r v s)
    | .hub p => if domainOn s 6 then (false, s.updRegs fun r => { r with hubSram := r.hubSram.putWord p v }) else bad kOff
    | .win x => window x
    | .hole => bad kUndecoded
  else if a < 0x100000 then (if tellerOnly a then bad kNoPath else good (regWrite m a v s))
  else if a < 0x300000 then
    match ringPart a with
    | .inb k p =>
      if domainOn s 6 then (false, s.updMbox k fun b => { b with inRing := b.inRing.putWord p v }) else bad kOff
    | _ => bad kUndecoded
  else if a < 2 ^ 24 then
    if m = .pcie ∧ 0x300000 ≤ a ∧ a < 0x300200 then (false, msixWrite (a - 0x300000) v s)
    else if m = .pcie ∧ (a = 0x301000 ∨ a = 0x301004) then (false, s)
    else bad (if msixPart a then kNoPath else kUndecoded)
  else if m = .pcie && s.boot.bar2En && decide (a < 2 ^ 24 + 2 ^ 28) then window (s.regs.bar2Base.toNat * 2 ^ 28 + (a - 2 ^ 24))
  else bad kUndecoded

/-! ### Widths and alignment (R473) -/

/-- The addressed bytes of a word. -/
def narrowWord (off size : Nat) (w : Word) : Word := wd (w.toNat / 2 ^ (8 * (off % 4)) % 2 ^ (8 * size))

/-- Read `n` words from an address up, `step` bytes apart. -/
def readRun (m : Master) (step : Nat) : Nat → Nat → State → List (Option Word) × State
  | 0, _, s => ([], s)
  | n + 1, a, s =>
    let x := busRead m a s
    let y := readRun m step n (a + step) x.2
    (x.1 :: y.1, y.2)

/-- Write words from an address up; the flag says that one of them got an error response. -/
def writeRun (m : Master) (step : Nat) : List Word → Nat → State → Bool × State
  | [], _, s => (false, s)
  | w :: ws, a, s =>
    let x := busWrite m a w s
    let y := writeRun m step ws (a + step) x.2
    (x.1 || y.1, y.2)

/-- An access of a size that the matrix carries. -/
def sizeOk (size : Nat) : Bool := size == 1 || size == 2 || (decide (0 < size) && size % 4 == 0)

/-- Read at an address with a size. -/
def access (m : Master) (off size : Nat) (s : State) : List (Option Word) × State :=
  if off % (min size 4) ≠ 0 then ([none], refuse m off kUnaligned false s)
  else if size < 4 then
    let x := busRead m (off / 4 * 4) s
    ([x.1.map (narrowWord off size)], x.2)
  else readRun m 4 (size / 4) off s

/-- An address to which a narrow write is ignored: the host window and the registers. -/
def narrowIgnored (m : Master) (off : Nat) : Bool :=
  if isTeller m then decide (0x10000000 ≤ off) && decide (off < 0x10100000) else decide (off < 2 ^ 24)

/-- A narrow write into a memory: the addressed bytes of its word. -/
def narrowWrite (m : Master) (off size v : Nat) (s : State) : State :=
  let x := busRead m (off / 4 * 4) s
  match x.1 with
  | none => x.2
  | some w =>
    let sh := 2 ^ (8 * (off % 4))
    (busWrite m (off / 4 * 4) (wd (w.toNat - w.toNat / sh % 2 ^ (8 * size) * sh + v % 2 ^ (8 * size) * sh)) x.2).2

/-- Write at an address with a size. -/
def accessWrite (m : Master) (off size v : Nat) (s : State) : State :=
  if off % (min size 4) ≠ 0 then refuse m off kUnaligned true s
  else if size < 4 then
    if narrowIgnored m off then s.updErr fun e => { e with accErr := true } else narrowWrite m off size v s
  else (writeRun m 4 ((List.range (size / 4)).map fun i => wd (v / 2 ^ (32 * i))) off s).2

/-- A read by a master, with what it returned. -/
def masterRead (m : Master) (off size : Nat) (s : State) : State :=
  if !hostOn s m || !sizeOk size then s
  else
    let x := access m off size s
    x.2.updRegs fun r => { r with readData := x.1 }

/-- A write by a master. -/
def masterWrite (m : Master) (off size v : Nat) (s : State) : State :=
  if !hostOn s m || !sizeOk size then s else accessWrite m off size v s

/-! ### Register commands -/

/-- REGISTER_WRITE. -/
def execRegisterWrite (m : Master) (off size : Nat) (v : Nat) (s : State) : Host.Outcome State Fault Refusal :=
  .next (masterWrite m off size v s)

/-- RC_READ. -/
def execRcRead (m : Master) (off size : Nat) (s : State) : Host.Outcome State Fault Refusal := .next (masterRead m off size s)

/-- SYS_TALLY_LO_READ. -/
def execSysTallyLoRead (m : Master) (s : State) : Host.Outcome State Fault Refusal := .next (masterRead m (regAddr m 0x20) 4 s)

/-- SYS_SNAPSHOT_WRITE. -/
def execSysSnapshotWrite (v : Word) (s : State) : Host.Outcome State Fault Refusal := .next (writeSnapshot v s)

/-- SYS_IND_DATA_ACCESS. -/
def execSysIndDataAccess (m : Master) (write : Bool) (v : Word) (s : State) : Host.Outcome State Fault Refusal :=
  .next (if write then masterWrite m (regAddr m 0x44) 4 v.toNat s else masterRead m (regAddr m 0x44) 4 s)

/-- PAIRED_WRITE_HALF: a write at A of a PW register. -/
def execPairedWriteHalf (m : Master) (off : Nat) (v : Word) (s : State) : Host.Outcome State Fault Refusal :=
  .next (if pairedRegs.contains off then masterWrite m (regAddr m off) 4 v.toNat s else s)

/-- PAIR_WINDOW_EXPIRE: 64 control cycles have passed with no write at A + 0x4. -/
def execPairWindowExpire (off : Nat) (s : State) : Host.Outcome State Fault Refusal :=
  .next (if (halfAt s off).isSome then pairErr (dropHalf off s) else s)

/-- SYS_REMAP_WRITE: the write at A + 0x4. -/
def execSysRemapWrite (m : Master) (v : Word) (s : State) : Host.Outcome State Fault Refusal :=
  .next (masterWrite m (regAddr m 0x64) 4 v.toNat s)

/-- SYS_BAR2_BASE_WRITE. -/
def execSysBar2BaseWrite (m : Master) (v : Word) (s : State) : Host.Outcome State Fault Refusal :=
  .next (masterWrite m (regAddr m 0x6C) 4 v.toNat s)

/-- SYS_DRAM_WIN_BASE_WRITE. -/
def execSysDramWinBaseWrite (m : Master) (v : Word) (s : State) : Host.Outcome State Fault Refusal :=
  .next (masterWrite m (regAddr m 0x74) 4 v.toNat s)

/-- BELL_SWTRIG_WRITE. -/
def execBellSwtrigWrite (m : Master) (v : Word) (s : State) : Host.Outcome State Fault Refusal :=
  .next (masterWrite m (regAddr m 0xA00C) 4 v.toNat s)

/-- AON_FAULT_TEST_WRITE. -/
def execAonFaultTestWrite (m : Master) (v : Word) (s : State) : Host.Outcome State Fault Refusal :=
  .next (masterWrite m (regAddr m 0xF00C) 4 v.toNat s)

/-- HUB_HD_WR_WRITE. -/
def execHubHdWrWrite (q : Nat) (v : Word) (s : State) : Host.Outcome State Fault Refusal := .next (writeHdWr q v s)

/-! ### Masters reset in mid-burst (R479) -/

/-- Pairs pending from the master are discarded, and its indirect bank returns to its reset values. -/
def resetMaster (m : Master) (s : State) : State :=
  let s := if s.regs.halves.any fun h => h.master == m then pairErr s else s
  let s := s.updRegs fun r => { r with halves := r.halves.filter fun h => !(h.master == m) }
  updBank (some m) (fun _ => IndBank.reset) s

/-! ### SPI slave (R459 to R465) -/

/-- SPI_IRQ_N is low. -/
def spiIrq (s : State) : Bool := s.regs.irqPend &&& s.regs.irqMask != 0#32

/-- Header of a transaction: CMD, COUNT, ADDR, and whether HCRC matches. -/
def spiCmd (bs : List Byte) : Nat := (bs.getD 0 0#8).toNat
def spiCount (bs : List Byte) : Nat := (bs.getD 1 0#8).toNat + 1
def spiAddr (bs : List Byte) : Nat := (bs.getD 2 0#8).toNat * 65536 + (bs.getD 3 0#8).toNat * 256 + (bs.getD 4 0#8).toNat
def spiHead (bs : List Byte) : Bool := crc8 (bs.take 5) == bs.getD 5 0#8

def setSpi (stat : Nat) (out : List Byte) (s : State) : State := s.updRegs fun r => { r with spiStat := stat, spiOut := out }

/-- The words of data bytes. -/
def dataWords : List Byte → List Word
  | a :: b :: c :: d :: r => wordOfBytes a b c d :: dataWords r
  | _ => []

/-- Status bits after a transaction: bit 0, then CRC_ERR, FRAME_ERR and BUS_ERR gathered. -/
def spiFlags (s : State) (good crc frame bus : Bool) : Nat :=
  let old := s.regs.spiStat / 2 * 2
  b2n good ||| old ||| (b2n crc * 2) ||| (b2n frame * 4) ||| (b2n bus * 8)

/-- A write transaction (R462): all its conditions, then its words. -/
def spiWriteTx (fixed : Bool) (bs : List Byte) (s : State) : State :=
  if !hostOn s .spi || spiCmd bs != (if fixed then 0x12 else 0x02) then s
  else
    let n := spiCount bs
    let lenOk := decide (n ≤ 64) && bs.length == 7 + 4 * n
    let data := (bs.drop 6).take (4 * n)
    let crcBad := (decide (6 ≤ bs.length) && !spiHead bs) || (lenOk && crc8 data != bs.getD (6 + 4 * n) 0#8)
    let frameBad := !lenOk || spiAddr bs % 4 != 0
    if crcBad || frameBad then setSpi (spiFlags s false crcBad frameBad false) [] s
    else
      let x := writeRun .spi (if fixed then 0 else 4) (dataWords data) (spiAddr bs) s
      setSpi (spiFlags x.2 true false false x.1) [] x.2

/-- A read transaction (R463), without its wait bytes: the marker 0xE1, or 0xA5 with data and DCRC. -/
def spiReadTx (fixed discard : Bool) (bs : List Byte) (s : State) : State :=
  if !hostOn s .spi || bs.length < 6 then s
  else
    let crcBad := !spiHead bs
    let frameBad := spiAddr bs % 4 != 0 || decide (64 < spiCount bs)
    if crcBad || frameBad then setSpi (spiFlags s false crcBad frameBad false) (if discard then [] else [0xE1#8]) s
    else
      let x := readRun .spi (if fixed then 0 else 4) (spiCount bs) (spiAddr bs) s
      let data := x.1.flatMap fun w => bytesOf (w.getD 0xFFFFFFFF#32)
      let bus := x.1.any Option.isNone
      setSpi (spiFlags x.2 (!bus && !discard) false false bus) (if discard then [] else 0xA5#8 :: data ++ [crc8 data]) x.2

/-- SPI_WRITE. -/
def execSpiWrite (bytes : List Byte) (s : State) : Host.Outcome State Fault Refusal := .next (spiWriteTx false bytes s)
/-- SPI_WRITE_FIXED. -/
def execSpiWriteFixed (bytes : List Byte) (s : State) : Host.Outcome State Fault Refusal := .next (spiWriteTx true bytes s)
/-- SPI_READ. -/
def execSpiRead (bytes : List Byte) (s : State) : Host.Outcome State Fault Refusal :=
  .next (if spiCmd bytes = 0x03 then spiReadTx false false bytes s else s)
/-- SPI_READ_FIXED. -/
def execSpiReadFixed (bytes : List Byte) (s : State) : Host.Outcome State Fault Refusal :=
  .next (if spiCmd bytes = 0x13 then spiReadTx true false bytes s else s)

/-- SPI_STATUS (R464). -/
def execSpiStatus (s : State) : Host.Outcome State Fault Refusal :=
  .next (if hostOn s .spi then
      setSpi (s.regs.spiStat % 2) [BitVec.ofNat 8 (s.regs.spiStat + 16 * b2n (spiIrq s))] s
    else s)

/-- SPI_READ_ABANDON (R463, R479). -/
def execSpiReadAbandon (bytes : List Byte) (s : State) : Host.Outcome State Fault Refusal :=
  .next (if spiCmd bytes = 0x03 || spiCmd bytes = 0x13 then
      resetMaster .spi (spiReadTx (spiCmd bytes == 0x13) true bytes s)
    else s)

/-! ### PCIe endpoint (R454, R458, R506) -/

/-- PCIE_RESET: the MSI-X table and its pending bits, the master's bank and pairs, its reads in the controller; the link but for a
function-level reset. -/
def execPcieReset (cause : PcieCause) (s : State) : Host.Outcome State Fault Refusal :=
  let s := resetMaster .pcie s
  let s := s.updRegs fun r => { r with msixTable := msixReset, msixPba := 0#32 }
  let s := dropReads 43 (dropReads 42 s)
  .next { s with boot := { s.boot with pcieLink := s.boot.pcieLink && cause == .flr } }

/-- PCIE_LINK_UP. -/
def execPcieLinkUp (s : State) : Host.Outcome State Fault Refusal :=
  .next (if hostOn s .pcie && domainOn s 9 then { s with boot := { s.boot with pcieLink := true } } else s)

/-- CONFIGURATION_REQUEST. -/
def execConfigurationRequest (s : State) : Host.Outcome State Fault Refusal :=
  .next (if hostOn s .pcie then { s with boot := { s.boot with crs := !s.boot.cfgRead } } else s)

end Sys2Proof.Machine
end

