-- ==== Sys2Proof/Machine/Power.lean ====
section
/-! DEFINITION. Power domains, resets and boot (spec/15_power_clocks_boot.md). The boot flow takes no ticks: its times are bounds, and
time is not modelled below the commands that mark its end. -/

namespace Sys2Proof.Machine

/-! ### What a reset clears (R495) -/

/-- Pairs, marks and outputs after a reset (R509, R517, R537): what LEDGER_CLEAR released is free again. -/
def resetFaults (s : State) : FaultSt :=
  let f := s.fault
  let pairs := f.pairs.map fun p =>
    { TellerPair.reset with fails := if f.release then [] else p.fails, marked := p.marked && !f.release }
  { FaultSt.reset with
    retired := if f.release then [] else f.retired, pairs := pairs, idleSince := s.clk.tally, outA := f.outA, outB := f.outB,
    lastBad := s.clk.tally, relA := s.clk.tally, relB := s.clk.tally }

/-- The ledgers after a reset (R533, R534): OP_SECONDS resumes from the value written last, and what had not been written is lost. -/
def resetLedgers (l : Ledgers) : Ledgers :=
  { l with queue := [], suppressed := [], opSec := l.opSaved, opTicks := 0, resets := (l.resets + 1) % 65536, ce := 0, ue := 0 }

/-- Spokes after a reset: those retired stay so (R509). -/
def resetSpokes (retired : List Nat) : List SpokeSt :=
  (List.range 40).map fun i => if retired.contains i then { SpokeSt.reset i with role := 3 } else SpokeSt.reset i

/-- What every reset clears: all but the tally, the AON domain, the flash, the ledgers and marks that persist, and what the host
holds. Ring contents stay (R36). -/
def resetCore (s : State) : State :=
  let z := State.reset
  let f := resetFaults s
  let keep (n : Node) : Bool := match n with
    | .bellTrig _ => true
    | .bellRoute _ => true
    | _ => false
  { z with
    clk := { s.clk with mhz := 750, mhzTarget := 750, nextSample := ceilDiv s.clk.tally sampleTicks * sampleTicks,
                        nextFrame := boundaryFrom s.clk.tally },
    boot := { Boot.reset with hostStrap := s.boot.hostStrap, monStrap := s.boot.monStrap, pcieLink := s.boot.pcieLink,
                              domains := (wd s.boot.domains &&& 0xC03#32).toNat },
    flash := { s.flash with update := none },
    regs := { HostRegs.reset with hostWrites := s.regs.hostWrites },
    mbox := s.mbox.map fun b => { Mbox.reset with inRing := b.inRing, outRing := b.outRing },
    rings := s.rings.zipIdx.map fun r => { EvRing.reset r.2 with words := r.1.words },
    vals := s.vals.filter fun w => keep w.node,
    fault := f,
    ladder := { LadderSt.reset with changed := s.clk.tally, checked := s.clk.tally, alarmFrames := s.ladder.alarmFrames,
                                    alarmBad := s.ladder.alarmBad, excluded := s.ladder.excluded },
    plan := { Plan.reset with vcore := s.plan.vcore, eyeRef := s.plan.eyeRef, dailyAt := s.plan.dailyAt },
    ledg := resetLedgers s.ledg,
    maint := { s.maint with baud := 115200, baudAt := none, trace := 0, awaiting := false },
    spokes := resetSpokes f.retired,
    dram := { Dram.reset with density := s.dram.density },
    pilots := s.pilots, bell := s.bell, free := s.free, pending := s.pending }

/-! ### The boot flow (R499 to R502) -/

/-- The better of two indexed images: higher generation, image A where they are equal. -/
def pickImage (fs : List (Option FlashImage)) (ok : Nat → FlashImage → Bool) : Option (Nat × FlashImage) :=
  let good (k : Nat) : Option (Nat × FlashImage) := match fs.getD k none with
    | some i => if ok k i then some (k, i) else none
    | none => none
  match good 0, good 1 with
  | some a, some b => if a.2.gen < b.2.gen then some b else some a
  | some a, none => some a
  | none, x => x

/-- The bell image that boot step 3 selects. -/
def bootBell (s : State) : Option FlashImage := (pickImage s.flash.images fun _ i => i.bell.isSome).map (·.2)

/-- The firmware that boot step 4 selects: CRC and signature good, no failure mark. -/
def bootFirmware (s : State) : Option Nat :=
  (pickImage s.flash.images fun k i => i.fwGood && !(s.flash.failed.getD k false)).map (·.1)

/-- Boot step 2: the configuration in use and its domains. -/
def bootConfig (s : State) : State :=
  let c := ((cfgBest s).map (·.2)).getD FlashCfg.default
  let doms := wd s.boot.domains ||| 0x083#32 ||| (if hostOn s .pcie then 0x200#32 else 0#32)
  { s with
    boot := { s.boot with dramCfg := c.dram, nets := c.nets, ids := c.ids, bar2En := c.bar2En, cfgRead := true, domains := doms.toNat },
    plan := { s.plan with retrain := c.dram.retrain } }

/-- Channels that a Bell route names and no admission has configured are enabled (R447). -/
def bellPilots (s : State) : State :=
  if !s.bell.imageOk then s
  else (List.range 4).foldl (fun s n =>
    if (List.range 64).any fun i => routeDest s i == bellPilot n then
      bellEnablePilot n (fld (s.bell.store.word (0x980 + 16 * n)) 0 2) s
    else s) s

/-- A Bell route names the channel. -/
def bellNames (s : State) (n : Nat) : Bool := s.bell.imageOk && (List.range 64).any fun i => routeDest s i == bellPilot n

/-- Boot step 3: the bell image, and the AUDIO and ANALOG domains. -/
def bootLoadBell (s : State) : State :=
  let i := bootBell s
  let sw := s.bell.sw
  let s := bellLoad (i.bind FlashImage.bell) ((i.map FlashImage.gen).getD 0) { s with vals := [] }
  bellLookAll (bellPilots { s with bell := { s.bell with sw := sw },
                                   boot := { s.boot with domains := (wd s.boot.domains ||| 0xC00#32).toNat } })

/-- The reset cause: a record on the rings, and an entry that the boot ROM writes before step 4 (R494, R533, R541). -/
def recordCause (cause image : Nat) (s : State) : State :=
  let e : Event := { code := 0xA00D, kind := .teller, stamp := s.clk.tally, node := none, source := 0xF, cls := eventClass s none 0xF,
                     detail := cause, items := [{ tag := 0xE2, vals := w1 (image * 4) }] }
  writeEntry e 0 ((List.range 8).foldl (raiseOn e) s)

/-- Boot steps 4 and 5: the firmware is chosen, MAP is set and both pairs jump; or the boot ROM stays in the monitor. -/
def bootJump (s : State) : State :=
  match if s.boot.monStrap then none else bootFirmware s with
  | some k =>
    (s.updRegs fun r => { r with remap := 3#32 }) |> fun s =>
      { s with boot := { s.boot with image := k, jumpAt := some s.clk.tally } }
  | none => { s with boot := { s.boot with image := 2 } }

/-! ### Resets -/

/-- What PORST_N low leaves: everything in its reset state, the AON domain with it; AON_DOMAINS shows AON alone. -/
def porstState (s : State) : State :=
  let s' := resetCore { s with clk := Clk.reset, fault := { s.fault with outA := true, outB := true } }
  { s' with
    boot := { Boot.reset with porst := true, sealDriven := false },
    flash := { s'.flash with failed := [false, false] },
    vals := [], plan := { s'.plan with vcore := 800 },
    maint := { s'.maint with key := false, loop := false, matched := 0 },
    pilots := (List.range 4).map Pilot.reset, bell := Bell.reset,
    dram := { s'.dram with density := s.dram.density } }

/-- MEMc_RESET_N and CKE: low from power-up until boot step 2 reads the configuration and starts DRAM bring-up (R501, R567). -/
def memResetN (s : State) : Bool := !s.boot.porst && s.boot.cfgRead

/-- PORST_ASSERT. -/
def execPorstAssert (s : State) : Host.Outcome State Fault Refusal := .next (porstState s)

/-- COLD_RESET: the release of PORST_N. `mclk`: MCLK has been present for 1 ms (R492). The seal LFSR takes a seed that is not zero. -/
def execColdReset (hostStrap : Nat) (monStrap mclk : Bool) (s : State) : Host.Outcome State Fault Refusal :=
  let s := if s.boot.porst then s else porstState s
  let seed := BitVec.ofNat 15 (Config.sealSeed s.free % 32767 + 1)
  let s := { s with
    clk := { s.clk with mclkPresent := mclk, onHoldover := !mclk, holdover := !mclk },
    boot := { Boot.reset with hostStrap := hostStrap % 4, monStrap := monStrap },
    maint := { s.maint with lfsr := seed }, free := s.free + 1 }
  .next (settleFaults (bootJump (recordCause 1 0 (bootLoadBell (bootConfig s)))))

/-- Pilot channels at a warm reset (R496): one that a Bell route names keeps its range, state and code; every other goes to HIZ. -/
def warmPilots (named : Nat → Bool) (s : State) : State :=
  (List.range 4).foldl (fun s n =>
    if named n then s.updPilot n fun p => { p with due := [], stored := none, source := 0, hold := p.code }
    else (pilotHiz n s).updPilot n fun _ => Pilot.reset n) s

/-- A warm reset (R495, R496): the bell store is reloaded only when the image selected has another CRC. -/
def warmReset (cause : Nat) (s : State) : State :=
  let image := s.boot.image
  let named := bellNames s
  let s := bootConfig (warmPilots named (resetCore s))
  let crc := ((bootBell s).bind FlashImage.bell).map fun m => m.word 0x1FFFFC
  let s := if s.bell.imageOk && crc == some s.bell.imageCrc then s else bootLoadBell s
  settleFaults (bootJump (recordCause cause image s))

/-- WARM_RESET. -/
def execWarmReset (cause : WarmCause) (s : State) : Host.Outcome State Fault Refusal :=
  if s.boot.porst then .next s
  else .next (warmReset (match cause with | .sysrst => 2 | .watchdog => 3) s)

/-- BOOT_WATCHDOG_EXPIRE: STATE has not become SERVING within 2 s of the jump. -/
def execBootWatchdogExpire (s : State) : Host.Outcome State Fault Refusal :=
  if s.boot.jumpAt.isNone || s.boot.served then .next s
  else .next (warmReset 3 { s with flash := { s.flash with failed := s.flash.failed.set s.boot.image true } })

/-! ### Bring-up (R503, R504) -/

/-- DRAM_BRINGUP_DONE: zeros everywhere, at MAX_SP; a channel whose training has failed fails at the next frame boundary (R436). -/
def execDramBringupDone (ok0 ok1 : Bool) (s : State) : Host.Outcome State Fault Refusal :=
  if !domainOn s 7 || s.dram.ready then .next s
  else
    let bad (k : Nat) (ok : Bool) (s : State) : State := if ok then s else s.updCh k fun c => { c with failing := some 1 }
    let sp := s.boot.dramCfg.maxSp
    .next (bad 1 ok1 (bad 0 ok0 { s with
      dram := { s.dram with ready := true, sp := sp, spNext := none, normal := [], vaults := [[], []] },
      plan := { s.plan with sp := sp } }))

/-- FIRST_SERVING: HUB and the wheels are on, the pairs ACTIVE and STANDBY where no mark forbids it, READY is raised, the network
mailbox setting of the flash applies, and a re-plan is due. -/
def execFirstServing (s : State) : Host.Outcome State Fault Refusal :=
  if s.boot.jumpAt.isNone || s.boot.served || s.svc.state ≠ 0 || !s.dram.ready then .next s
  else
    let now := s.clk.tally
    let dead (k : Nat) : Bool := (pairAt s k).marked
    if dead 0 && dead 1 then .next (setPairState 1 3 (setPairState 0 3 s))
    else
      let k := if dead 0 then 1 else 0
      let s := { s with
        boot := { s.boot with domains := (wd s.boot.domains ||| 0x7C#32).toNat, served := true, ready := true, readyAt := now },
        clk := { s.clk with nextSample := ceilDiv now sampleTicks * sampleTicks, nextFrame := boundaryFrom now },
        plan := { s.plan with due := (wd s.plan.due ||| 1024#32).toNat },
        ladder := { s.ladder with changed := now, checked := now } }
      let s := s.updFault fun f => { f with active := k, relA := now, relB := now }
      let s := setPairState (1 - k) (if dead (1 - k) then 3 else 2) (setPairState k 1 (setService 1 k s))
      .next (settleFaults (applyFlashNmb (updPair k (fun p => { p with beat := now }) s)))

/-! ### Power domains (R488, R489) -/

/-- The firmware may switch the domain off. -/
def mayTurnOff (s : State) (dom : Nat) : Bool :=
  let busy (w : Nat) : Bool := (List.range 10).any fun i => spokeRole s (10 * w + i) == 0 || spokeRole s (10 * w + i) == 2
  let named (kinds : List Nat) : Bool :=
    s.bell.imageOk && (List.range 64).any fun i => kinds.contains (fld (routeDest s i) 28 4)
  if 2 ≤ dom && dom ≤ 5 then !busy (dom - 2)
  else if dom = 8 then !((List.range 4).any fun n => macAdmitted s n || macBoot s n)
  else if dom = 10 then s.sais.isEmpty && s.aesis.isEmpty && s.pdms.isEmpty && !((List.range 4).any fun n => admitted s (.aeso n)) &&
    !named [1, 2]
  else if dom = 11 then !((List.range 4).any fun n => admitted s (.pilot n)) && !named [3]
  else false

/-- The firmware may switch the domain on: HUB and the wheels after the jump, NET where R488 gives it a use. -/
def mayTurnOn (s : State) (dom : Nat) : Bool :=
  if (2 ≤ dom && dom ≤ 6) then s.boot.jumpAt.isSome
  else if dom = 8 then (List.range 4).any fun n => macAdmitted s n || macBoot s n
  else dom == 10 || dom == 11

/-- Spokes of a wheel change their role with its domain; a retired spoke stays so. -/
def wheelRoles (w : Nat) (f : Nat → SpokeSt) (s : State) : State :=
  { s with spokes := s.spokes.zipIdx.map fun x => if x.2 / 10 = w && x.1.role != 3 then f x.2 else x.1 }

/-- A domain that is switched off loses its state; one switched on starts from its reset state. -/
def setDomain (dom : Nat) (on : Bool) (s : State) : State :=
  let d := wd s.boot.domains
  let bit := wd (2 ^ dom)
  let s := { s with boot := { s.boot with domains := (if on then d ||| bit else d &&& ~~~bit).toNat } }
  if 2 ≤ dom && dom ≤ 5 then
    wheelRoles (dom - 2) (fun i => if on then SpokeSt.reset i else { SpokeSt.reset i with role := 4 }) s
  else if on then s
  else if dom = 8 then { s with net := { s.net with macs := List.replicate 4 Mac.reset } }
  else if dom = 10 then { s with aesos := (List.range 4).map AesOut.reset }
  else if dom = 11 then { pilotsOff s with pilots := (List.range 4).map Pilot.reset }
  else s

/-- DOMAIN_SWITCH: while the frame pipeline runs, at a frame boundary only. -/
def execDomainSwitch (dom : Nat) (on : Bool) (s : State) : Host.Outcome State Fault Refusal :=
  if domainOn s dom == on || (s.serving && !atFrame s) || !(if on then mayTurnOn s dom else mayTurnOff s dom) then .next s
  else .next (setDomain dom on (closeFrame s))

end Sys2Proof.Machine
end

