-- ==== Sys2Proof/Machine/Maint.lean ====
section
/-! DEFINITION. The Melso monitor (spec/17_monitor_maintenance_key.md) and the JTAG port (spec/18_package_electrical.md, R565). A
line the monitor prints is kept as its words: kind first (0 ok, 1 err, 2 trace, 3 words read, 4 response, 5 ledger entry, 6 state,
7 key), and after err 1 SYNTAX, 2 KEY, 3 SEAL, 4 BUS or 5 NOFW. -/

namespace Sys2Proof.Machine

/-! ### Lines (R552) -/

def printOk (s : State) : State := printLine [wd 0] s
def printErr (e : Nat) (s : State) : State := printLine [wd 1, wd e] s

/-- The monitor takes a command: out of reset, and after the last line of the command before. -/
def monReady (s : State) : Bool := !s.boot.porst && !s.maint.awaiting

/-- A complete line has come. -/
def lineTaken (s : State) : State := { s with maint := { s.maint with baudAt := none } }

/-- Run a command. -/
def monitor (f : State → State) (s : State) : State := if monReady s then f (lineTaken s) else s

/-- The master whose accesses the monitor makes: the active pair. -/
def monMaster (s : State) : Master := if s.fault.active = 1 then .tellerB else .tellerA

/-- The monitor's own events: through the firmware, or written to the ledger by the monitor where none runs (R554). -/
def monEvent (code detail : Nat) (s : State) : State :=
  if s.boot.jumpAt.isSome then raiseNode code .teller s.clk.tally none 10 detail [] s
  else writeEntry { code := code, kind := .teller, stamp := s.clk.tally, node := none, source := 10, cls := eventClass s none 10,
                    detail := detail, items := [] } 0 s

/-- A command that needs key and seal (R544): refused, or MONITOR_WRITE and its effect, which says whether an error response came. -/
def monGated (f : State → Bool × State) (s : State) : State :=
  let why := authFault s
  if why ≠ 0 then printErr (1 + why) (monEvent 0xB003 why s)
  else
    let x := f (monEvent 0xB007 0 s)
    if x.1 then printErr 4 x.2 else printOk x.2

/-- A half of a pair that the monitor has left is discarded (R475, R553). -/
def dropOwnHalves (m : Master) (s : State) : State :=
  if s.regs.halves.any fun h => h.master == m then
    pairErr (s.updRegs fun r => { r with halves := r.halves.filter fun h => !(h.master == m) })
  else s

/-- Write words as the monitor does. -/
def monWrite (step a : Nat) (ws : List Word) (s : State) : Bool × State :=
  let m := monMaster s
  if a % 4 ≠ 0 then (true, refuse m a kUnaligned true s) else writeRun m step ws a s

/-- Read `n` words; the words before the first error response, and whether one came. -/
def monReadRun (m : Master) : Nat → Nat → State → List Word × Bool × State
  | 0, _, s => ([], false, s)
  | n + 1, a, s =>
    let x := busRead m a s
    match x.1 with
    | none => ([], true, x.2)
    | some w => let y := monReadRun m n (a + 4) x.2; (w :: y.1, y.2)

/-! ### Commands -/

/-- MON_RD. -/
def execMonRd (a n : Nat) (s : State) : Host.Outcome State Fault Refusal :=
  .next (monitor (fun s =>
    let m := monMaster s
    if a % 4 ≠ 0 then printErr 4 (refuse m a kUnaligned false s)
    else
      let x := monReadRun m n a s
      let s := printLine (wd 3 :: wd a :: x.1) x.2.2
      if x.2.1 then printErr 4 s else printOk s) s)

/-- MON_WR. A write of half a pair does not stand. -/
def execMonWr (a : Nat) (v : Word) (s : State) : Host.Outcome State Fault Refusal :=
  .next (monitor (monGated fun s => let x := monWrite 4 a [v] s; (x.1, dropOwnHalves (monMaster s) x.2)) s)

/-- MON_FILL. -/
def execMonFill (a n : Nat) (v : Word) (s : State) : Host.Outcome State Fault Refusal :=
  .next (monitor (monGated fun s =>
    let x := monWrite 4 a (List.replicate n v) s
    (x.1, dropOwnHalves (monMaster s) x.2)) s)

/-- MON_WRP: the value, then its complement, back to back. -/
def execMonWrp (a : Nat) (v : Word) (s : State) : Host.Outcome State Fault Refusal :=
  .next (monitor (monGated (monWrite 4 a [v, ~~~v])) s)

/-- Set SYS_MIND_ADDR. -/
def setMind (a : Nat) (s : State) : State := updBank none (fun b => { b with addr := wd a &&& 0xFFFFFFFC#32 }) s

/-- Read `n` words through the monitor's own indirect set. -/
def mindRun : Nat → State → List Word × State
  | 0, s => ([], s)
  | n + 1, s =>
    let x := indDataRead none s
    let y := mindRun n x.2
    (x.1 :: y.1, y.2)

/-- MON_RDI: a domain that is off gives an error response (R22). -/
def execMonRdi (a n : Nat) (s : State) : Host.Outcome State Fault Refusal :=
  .next (monitor (fun s =>
    let x := mindRun n (setMind a s)
    let s := printLine (wd 3 :: wd a :: x.1) x.2
    if s.regs.mind.off then printErr 4 s else printOk s) s)

/-- MON_WRI. -/
def execMonWri (a : Nat) (v : Word) (s : State) : Host.Outcome State Fault Refusal :=
  .next (monitor (monGated fun s =>
    let s := indDataWrite none v (setMind a s)
    (s.regs.mind.off, s)) s)

/-- MON_MB: the words go into the MMB ring while the firmware serves, and the `ok` line follows the response; else the response
TELLER_BUSY is printed. -/
def execMonMb (ws : List Word) (s : State) : Host.Outcome State Fault Refusal :=
  .next (monitor (fun s =>
    if ws.isEmpty then printErr 1 s
    else if !s.serving then printOk (printLine (wd 4 :: (respOf ws stTellerBusy 0).words) s)
    else
      let b := s.mboxAt 10
      if 1024 < posted 1024 b.inWr b.inRd + ws.length then printErr 4 s
      else
        let first := posted 1024 b.inWr b.inRd == 0
        let s := s.updMbox 10 fun b =>
          { b with inRing := ringPut 1024 b.inRing b.inWr ws, inWr := (b.inWr + ws.length) % 2048,
                   headAt := if first then s.clk.tally else b.headAt }
        { s with maint := { s.maint with awaiting := true } }) s)

/-- MON_TRACE. -/
def execMonTrace (mask : Nat) (s : State) : Host.Outcome State Fault Refusal :=
  .next (monitor (fun s => printOk { s with maint := { s.maint with trace := mask % 2048 } }) s)

/-- MON_LEDGER: `n` entries from entry `first` of the event or the margin ledger, those that are held. -/
def execMonLedger (margin : Bool) (first n : Nat) (s : State) : Host.Outcome State Fault Refusal :=
  .next (monitor (fun s =>
    let es := (ledgerHeld s margin).filter fun e => decide (first ≤ e.1) && decide (e.1 < first + n)
    printOk (es.foldl (fun s e => printLine (wd 5 :: e.2) s) s)) s)

/-- MON_STATE: the operating point while the firmware runs, and the last margin record. -/
def execMonState (s : State) : Host.Outcome State Fault Refusal :=
  .next (monitor (fun s =>
    let point := if s.boot.jumpAt.isSome then
        [wd s.plan.vcore, wd s.clk.mhz, wd s.dram.sp, wd s.plan.scale, wd s.plan.retrain, wd s.ladder.pos] else []
    printOk (printLine (wd 6 :: point ++ (s.ledg.margins.getLast?).getD []) s)) s)

/-- MON_KEY. -/
def execMonKey (s : State) : Host.Outcome State Fault Refusal :=
  .next (monitor (fun s =>
    printOk (printLine [wd 7, wd (b2n s.maint.key), wd (b2n s.maint.loop), wd s.maint.matched] s)) s)

/-- Rates of the monitor. -/
def baudRates : List Nat := [115200, 230400, 460800, 921600, 1000000, 2000000, 3000000]

/-- MON_BAUD. -/
def execMonBaud (rate : Nat) (s : State) : Host.Outcome State Fault Refusal :=
  .next (monitor (fun s =>
    if baudRates.contains rate then let s := printOk s; { s with maint := { s.maint with baud := rate, baudAt := some s.clk.tally } }
    else printErr 1 s) s)

/-- MON_BAUD_REVERT: no complete line has come within 10 s of a change. -/
def execMonBaudRevert (s : State) : Host.Outcome State Fault Refusal :=
  match s.maint.baudAt with
  | some t =>
    if t + 10 * 24576000 ≤ s.clk.tally then .next { s with maint := { s.maint with baud := 115200, baudAt := none } } else .next s
  | none => .next s

/-! ### JTAG (R565) -/

/-- Select an instruction: outside EXTEST no cell drives a pin. -/
def jtag (ir : Nat) (tdo : List Bool) (s : State) : State :=
  { s with maint := { s.maint with jtagIr := ir, tdo := tdo, pins := if ir = 3 then s.maint.pins else [] } }

/-- JTAG_BYPASS: one bit of delay, which starts as 0. -/
def execJtagBypass (tdi : List Bool) (s : State) : Host.Outcome State Fault Refusal := .next (jtag 0 ((false :: tdi).take tdi.length) s)

/-- IDCODE. -/
def idCode : Word := 0x1102456B#32

/-- JTAG_IDCODE: shifted out least significant bit first. -/
def execJtagIdcode (s : State) : Host.Outcome State Fault Refusal := .next (jtag 1 ((List.range 32).map fun i => idCode.getLsbD i) s)

/-- JTAG_SAMPLE_PRELOAD: the pins are captured and shifted out while the cells are loaded. -/
def execJtagSamplePreload (pins cells : List Bool) (s : State) : Host.Outcome State Fault Refusal :=
  let s := jtag 2 pins s
  .next { s with maint := { s.maint with cells := cells } }

/-- JTAG_EXTEST: the pins take the cells. -/
def execJtagExtest (s : State) : Host.Outcome State Fault Refusal :=
  let s := jtag 3 s.maint.tdo s
  .next { s with maint := { s.maint with pins := s.maint.cells } }

end Sys2Proof.Machine
end

