-- ==== Sys2Proof/Machine/Time.lean ====
section
/-! DEFINITION. The passing of time (R8, R533). -/

namespace Sys2Proof.Machine

/-- The tally advances to `t`, and OP_SECONDS counts the seconds during which READY is high (R533). -/
def advance (t : Nat) (s : State) : State :=
  let d := t - s.clk.tally
  let ticks := s.ledg.opTicks + (if s.boot.ready then d else 0)
  { s with clk := { s.clk with tally := max s.clk.tally t },
           ledg := { s.ledg with opSec := s.ledg.opSec + ticks / 24576000, opTicks := ticks % 24576000 } }

/-- One tick with nothing commanded. -/
def idle (s : State) : State := advance (s.clk.tally + 1) s

end Sys2Proof.Machine
end

