-- ==== Sys2Proof/Machine/Frame.lean ====
section
/-! DEFINITION. The cadence (01): sample boundaries, frame boundaries, and the loss and return of MCLK (R23 to R26, R520). A boundary
command stands for the first boundary at or after the tally that has not been run; the tally moves to it (log 1). -/

namespace Sys2Proof.Machine

/-! ### Sample boundaries (R8, R11, R13) -/

/-- The sample boundary that the next SAMPLE_BOUNDARY stands for. -/
def sampleNext (s : State) : Nat := max s.clk.nextSample (ceilDiv s.clk.tally sampleTicks * sampleTicks)

/-- The frame boundary that the next FRAME_BOUNDARY stands for. -/
def frameNext (s : State) : Nat := max s.clk.nextFrame (boundaryFrom s.clk.tally)

/-- The gain of the output slots of a port in the frame computed from boundary `b`, and of other channels. -/
def leaveGain (s : State) (w : Word) (b k : Nat) : Rat :=
  if fld w 28 4 ≠ 3 then 1
  else
    match portOfIndex (fld w 0 16) with
    | some (.sai n) => match s.saiAt n with
      | some x => portGainOut x.st b k
      | none => 0
    | _ => 1

/-- The samples that leave the hub output buffers at tick `t`: those of the block released last, while it lasts. -/
def leaving (s : State) (t : Nat) : List (Word × Int) :=
  if t < s.snd.outStamp || s.snd.outStamp + frameTicks ≤ t then []
  else
    let k := (t - s.snd.outStamp) / sampleTicks
    s.snd.out.map fun e => (e.1, scaleSample (e.2.getD k 0) (leaveGain s e.1 (s.snd.outStamp - frameTicks) k))

/-- What a destination of the Bell path carries: the mix where the path plays there or its gain still moves (R268). -/
def withBell (s : State) (dest : Word) (x : Int) : Int :=
  match bellFor s dest with
  | some o => bellMix o x
  | none => x

/-- One output period of a TDM port: each slot of TX_MASK rounded to BITS bits and mixed with the Bell path, the others idle; all idle
while the port is DEAD (R320, R327, R269). The period starts PHASE ticks after its sample boundary (R318), so a slot change whose
boundary has come is already in force for it (R322). -/
def saiPeriod (s : State) (pins : List (Word × Int)) (port : SaiPort) : SaiPort :=
  let n := Node.sai port.n
  let x := slotChangeAt s (s.clk.tally + port.st.phase) port
  let idle : Option Int := if pN s n 0x108 = 0 then some 0 else none
  let slot (i : Nat) : Option Int :=
    if x.st.state = 4 || !bitOf x.txMask i then idle
    else
      let z := (findKey (wd (0x30000000 + chanIndex (.sai x.n) i)) pins).getD 0
      some (withBell s (bellTdm x.n i) (roundBits (pN s n 0x103) z))
  { port with dout := (List.range x.slots).map slot }

/-- V of a channel of an AES3 output (R332, R336). -/
def aesValid (s : State) (pins : List (Word × Int)) (n c : Nat) : Bool :=
  match findKey (wd (0x60000000 + chanIndex (.aesi n) c)) pins with
  | none => true
  | some 0 => false
  | some 1 => true
  | some _ => !((bellFor s (bellAes n c)).map BellOut.playing).getD false

/-- One frame of an AES3 output at tick `t` (R332, R335, R336). -/
def aesoFrame (s : State) (t : Nat) (pins : List (Word × Int)) (x : AesOut) : AesOut :=
  let x := if t % (192 * sampleTicks) = 0 then blockStart s t x else x
  let i := t / sampleTicks % 192
  let smp (c : Nat) : Int :=
    withBell s (bellAes x.n c) (roundBits 24 ((findKey (wd (0x30000000 + chanIndex (.aesi x.n) c)) pins).getD 0))
  { x with dout := [smp 0, smp 1], v := [aesValid s pins x.n 0, aesValid s pins x.n 1],
           c := [csBit x.mode x.csA i, csBit x.mode x.csB i], z := i == 0 }

/-- The outputs of a sample boundary: samples leave the hub for the port pipeline and the packetisers, and those that left 1024 ticks
ago reach the pins with the Bell path (R11, R270, R391). -/
def sampleOut (t : Nat) (s : State) : State :=
  let pins := s.snd.pipe.getD 1 []
  let out := leaving s t
  let audio := bitOf s.boot.domains 10
  let chans (x : TxStream) : List Int :=
    (List.range (pN s (.tx x.mac x.s) 0x107)).map fun c => (findKey (wd (0x40000000 + 64 * x.s + c)) out).getD 0
  let feed (n : Nat) : Int := (findKey (wd (0x20000000 + (s.pilotAt n).feed)) pins).getD 0
  let put : List (Word × Int) := s.bell.next.map fun o =>
    let w := if fld o.dest 28 4 = 1 then wd (0x30000000 + chanIndex (.sai (fld o.dest 8 4)) (fld o.dest 0 5))
      else wd (0x30000000 + chanIndex (.aesi (fld o.dest 8 4)) (fld o.dest 0 5))
    (o.dest, bellMix o (if fld o.dest 28 4 = 3 then feed (fld o.dest 8 4) else (findKey w pins).getD 0))
  let sais := if audio then s.sais.map (saiPeriod s pins) else s.sais
  let aesos := if audio then s.aesos.map (aesoFrame s t pins) else s.aesos
  let txs := s.net.txs.map fun x => txSample s (t + 1024) (chans x) x
  let s' := { s with
    sais := sais, aesos := aesos, net := { s.net with txs := txs }, bell := { s.bell with sent := put },
    snd := { s.snd with pipe := out :: s.snd.pipe.take 1 } }
  if bitOf s.boot.domains 11 then
    (List.range 4).foldl (fun s' n => pilotSample n (feed n) ((bellFor s (bellPilot n)).map bellMix) s') s'
  else s'

/-- A sample joins the block being gathered at position `k`; positions that nothing filled hold zeros. -/
def gatherPut (k : Nat) (blk : List (Word × List Int)) (e : Word × Int) : List (Word × List Int) :=
  let fill (xs : List Int) : List Int := (xs ++ List.replicate 16 0).take k ++ [e.2]
  if blk.any fun x => x.1 == e.1 then blk.map fun x => if x.1 == e.1 then (x.1, fill x.2) else x
  else blk ++ [(e.1, fill [])]

/-- The hub takes the sample of tick `t` of a 48 kHz TDM port; a missing word counts (R320, R324, R327). -/
def saiTake (t : Nat) (x : SaiPort) : SaiPort × List (Word × Int) :=
  let r := fifoTake t x.st
  let ws := (List.range x.slots).map fun i => (wd (0x20000000 + chanIndex (.sai x.n) i), r.2.1.getD i 0)
  ({ x with st := r.1, slip := x.slip || r.2.2, missing := if r.2.2 then satAdd32 x.missing x.slots else x.missing }, ws)

/-- The hub takes the sample of tick `t` of a 48 kHz AES3 input. -/
def aesiTake (t : Nat) (x : AesIn) : AesIn × List (Word × Int) :=
  let r := fifoTake t x.st
  ({ x with st := r.1 }, (List.range 2).map fun i => (wd (0x20000000 + chanIndex (.aesi x.n) i), r.2.1.getD i 0))

/-- The inputs of a sample boundary: the samples that enter the hub input buffer (R11, R392). -/
def sampleIn (t : Nat) (s : State) : State :=
  let audio := bitOf s.boot.domains 10
  let sais := s.sais.map fun x => if audio && portHz s (.sai x.n) == 48000 then saiTake t x else (x, [])
  let aesis := s.aesis.map fun x => if audio && portHz s (.aesi x.n) == 48000 then aesiTake t x else (x, [])
  let s := { s with sais := sais.map (·.1), aesis := aesis.map (·.1) }
  let r := rxSamples t s
  let ins := sais.flatMap (·.2) ++ aesis.flatMap (·.2) ++ r.2
  { r.1 with snd := { r.1.snd with gather := ins.foldl (gatherPut (t / sampleTicks % 16)) r.1.snd.gather } }

/-- Every port at a frame boundary. -/
def settlePorts (s : State) : State :=
  ((s.sais.map fun x => PortId.sai x.n) ++ s.aesis.map fun x => PortId.aesi x.n).foldl (fun s p => settlePort p s) s

/-- One sample boundary at tick `t`; `bad` are the store words the Bell path finds uncorrectable (R261). At a frame boundary the frame
that ends is released first and the ports change state. -/
def sampleAt (t : Nat) (bad : List Nat) (s : State) : State :=
  let s := advance t s
  let s := if atFrame s then settlePorts (closeFrame s) else s
  let s := bellSample bad (sampleIn t (sampleOut t s))
  { s with clk := { s.clk with nextSample := t + sampleTicks } }

/-- SAMPLE_BOUNDARY. -/
def execSampleBoundary (badWords : List Nat) (s : State) : Host.Outcome State Fault Refusal := .next (sampleAt (sampleNext s) badWords s)

/-! ### Holdover (R23 to R26, R520) -/

/-- The AUD domain enters holdover at the boundary: it is reported, and ports without clocks go DEAD (R25, R328). -/
def enterHoldover (s : State) : State :=
  if s.clk.onHoldover && !s.clk.holdover && decide (s.clk.lostAt ≤ s.clk.tally) then
    let s := { s with clk := { s.clk with holdover := true } }
    settleFaults (stopQuietPorts (raiseOwn 0xA006 .boundary s.clk.tally none 0 s))
  else s

/-- HOLDOVER_ENTER. -/
def execHoldoverEnter (s : State) : Host.Outcome State Fault Refusal := .next (if atFrame s then enterHoldover (closeFrame s) else s)

/-- MCLK_RETURN: MCLK edges arrive again; the count of R520 restarts. -/
def execMclkReturn (s : State) : Host.Outcome State Fault Refusal :=
  .next (if s.clk.mclkPresent then s else { s with clk := { s.clk with mclkPresent := true, mclkSince := s.clk.tally } })

/-- MCLK_RATIO_MEASURE: a window of 3000 frames of MCLK is complete; `ratio` is MCLK ÷ REF relative to 24.576 ÷ 25, in units of
10^-9. -/
def execMclkRatioMeasure (ratio : Nat) (s : State) : Host.Outcome State Fault Refusal :=
  .next (if s.clk.mclkPresent && decide (max s.clk.ratioSince s.clk.mclkSince + frames 3000 ≤ s.clk.tally) then
      { s with clk := { s.clk with ratio := ratio, ratioSince := s.clk.tally } }
    else s)

/-- The conditions of R26 and R520 for the return to MCLK. -/
def mayReturn (s : State) : Bool :=
  s.serving && s.clk.onHoldover && s.clk.mclkPresent && decide (s.clk.mclkSince + frames 3000 ≤ s.clk.tally) &&
    decide ((s.clk.ratio - 1000000000).natAbs ≤ 200000)

/-- HOLDOVER_EXIT: on the firmware's request at a frame boundary the tally returns to MCLK. -/
def execHoldoverExit (s : State) : Host.Outcome State Fault Refusal :=
  if atFrame s && mayReturn s then
    let s := closeFrame s
    .next (settleFaults (raiseOwn 0xA007 .boundary s.clk.tally none 0
      { s with clk := { s.clk with onHoldover := false, holdover := false } }))
  else .next s

/-! ### Spokes (R16, R17) -/

/-- SPOKE_FRAME_COMPLETE: a dispatched spoke's exit reaches the hub with its DMA writes landed. -/
def execSpokeFrameComplete (sp : Nat) (s : State) : Host.Outcome State Fault Refusal :=
  if s.snd.running.isSome && spokeRole s sp == 0 && ((s.coreAt sp).any fun c => c.dmaq.isEmpty && c.inst.isNone) &&
      !s.snd.complete.contains sp && !s.snd.aborted.contains sp then
    .next { s with snd := { s.snd with complete := s.snd.complete ++ [sp] } }
  else .next s

/-- SPOKE_CLOCK_STEP: one step of 25 MHz towards the clock asked for, one per frame. -/
def execSpokeClockStep (s : State) : Host.Outcome State Fault Refusal :=
  if atFrame s && s.clk.mhz != s.clk.mhzTarget && s.clk.mhzAt != some s.clk.tally then
    let s := closeFrame s
    let f := if s.clk.mhz < s.clk.mhzTarget then min (s.clk.mhz + 25) s.clk.mhzTarget else max (s.clk.mhz - 25) s.clk.mhzTarget
    .next { s with clk := { s.clk with mhz := f, mhzAt := some s.clk.tally } }
  else .next s

/-! ### Frame boundaries (R11, R15) -/

/-- The audits that ended: each mismatch charges the active spoke and is reported (R255). -/
def settleAudits (b : Nat) (audits : List (Node × Nat)) (s : State) : State :=
  audits.foldl (fun s a => raiseOwn 0x4004 .boundary (b - frameTicks) (some a.1) a.2 (charge a.2 s)) s

/-- The channels of an AES3 input whose mute or whose return begins, and its errors (R333). -/
def settleAesi (b n : Nat) (s : State) : State :=
  let validity := pN s (.aesi n) 0x105 == 1
  let s := s.updAesi n fun x => { x with chans := x.chans.map fun c => rearmChan b (muteChan b validity c) }
  let k := ((s.aesiAt n).map AesIn.fresh).getD 0
  (raiseLimited 0x5005 .boundary b (some (.aesi n)) k [] s).updAesi n fun x => { x with fresh := 0 }

/-- Ports, microphones and gear channels at boundary `b`, after its commits (R325, R333, R340, R350). -/
def settleInputs (b : Nat) (s : State) : State :=
  let s := settlePorts s
  let s := s.aesis.foldl (fun s x => settleAesi b x.n s) s
  let s := s.pdms.foldl (fun s x => settlePdm x.n s) s
  s.gears.foldl (fun s g => settleGear g.id s) s

/-- The ladder's part: an evaluation that is asked for, and a cross-fade of step 6 that ends (R523 to R525). -/
def settleLadder (b : Nat) (s : State) : State :=
  let s := { s with ladder := { s.ladder with mono := if s.ladder.mono.due then s.ladder.mono.finish else s.ladder.mono } }
  if s.ladder.asked && ladderFree s then evaluateLadder b { s with ladder := { s.ladder with asked := false } } else s

/-- An object of class VOICE that step 6 has collapsed for good. -/
def collapsed (s : State) (o : Obj) : Bool :=
  s.ladder.mono.new == 1 && !s.ladder.mono.running && classOf s (.object o.n) == some 1

/-- The planning of the frame, without the objects that step 6 has collapsed (R155, R523). -/
def planFrame (s : State) : State :=
  let all := s.render.objs
  let off := all.filter (collapsed s)
  let s := planAll { s with render := { s.render with objs := all.filter fun o => !collapsed s o } }
  let pick (o : Obj) : Obj :=
    if off.any fun x => x.n == o.n then { o with slots := o.slots.map fun _ => none }
    else (s.render.objs.find? fun x => x.n == o.n).getD o
  { s with render := { s.render with objs := all.map pick } }

/-- The input block as dispatched at `b`, with the gains of ports, streams, admissions and the ladder on its sources. -/
def dispatchBlock (s : State) (b : Nat) : List (Word × List Int) :=
  (rxBlock s b (portBlock s b s.snd.inBlk)).map fun e =>
    match sourceNode s e.1 with
    | none => e
    | some n => (e.1, e.2.zipIdx.map fun p => scaleSample p.1 (outGain s n b p.2))

/-- The hub dispatches the frame gathered just before `b`. -/
def dispatchFrame (b : Nat) (s : State) : State :=
  if !bitOf s.boot.domains 6 then s
  else
    let s := planFrame s
    let s := { s with feeds := s.feeds.map (tailPeriod b) }
    let blk := dispatchBlock s b
    { s with snd := { s.snd with
        compBlk := blk, compWarm := s.snd.warm, running := some b, complete := [], aborted := [], published := [],
        frames := s.snd.frames + 1 } }

/-- What the analog side and the gear engine report of the frame that ended (R354, R448, R449, R540). -/
def settleEnv (env : FrameEnv) (s : State) : State :=
  let seen := env.gear.filter fun o => classOf s o.node == some 0
  let s := seen.foldl (fun s o => gearCount o (gearDisagree o s)) s
  let s := gearLoad seen s
  env.pilots.foldl (fun s o => pilotFrame o s) s

/-- What happens once in every frame: credits, held counters, charges that expire, heartbeats and release words of the serving pair,
fades that have ended, and the cycles used. -/
def everyFrame (b : Nat) (s : State) : State :=
  let s := creditRestart s
  let s := (List.range 4).foldl (fun s n => flushHeld n s) s
  let s := expireCharges (fun _ => true) s
  let s := if s.serving then
      (updPair s.fault.active (fun p => { p with beat := b }) s).updFault fun f => { f with relA := b, relB := b }
    else s
  { s with
    spokes := s.spokes.map fun x => { x with peak := max x.peak x.used, used := 0 },
    ladder := { s.ladder with
      fades := s.ladder.fades.filter fun f => !(f.2.2.2 && decide (f.2.1 + frames f.2.2.1 ≤ b)),
      outFades := s.ladder.outFades.filter fun f => !(f.2.2.2 && decide (f.2.1 + frames f.2.2.1 ≤ b)) } }

/-- The frame boundary `b`: the frame that ends is released and recorded; losses found since the last boundary take effect; fades,
admissions and commits; then the new frame is dispatched. -/
def frameAt (b : Nat) (env : FrameEnv) (s : State) : State :=
  let s := closeFrame (advance b s)
  let s := if s.snd.outStamp = b && decide (0 < b) then recordBlock s.snd.outWarm s else s
  let s := enterHoldover (settleAudits b env.audits s)
  let s := enterFailover (failPending b (retireAll b s))
  let s := settleLadder b (boundaryWork s)
  let s := (List.range 4).foldl (fun s n => applyGate n s) (settleInputs b s)
  let s := everyFrame b (settleEnv env s)
  let s := settleFaults (dispatchFrame b s)
  { s with clk := { s.clk with nextFrame := b + frameTicks } }

/-- The sample boundaries before the frame boundary `b` that nothing has run. -/
def missedSamples (b : Nat) (s : State) : List Nat :=
  ((List.range 16).map fun i => sampleNext s + sampleTicks * i).filter fun t => decide (t < b)

/-- FRAME_BOUNDARY: the sample boundaries before it are run where no command has, then the boundary. -/
def execFrameBoundary (env : FrameEnv) (s : State) : Host.Outcome State Fault Refusal :=
  let b := frameNext s
  .next (frameAt b env ((missedSamples b s).foldl (fun s t => sampleAt t [] s) s))

/-- MCLK_LOSS (R24): the tally moves to the holdover clock and takes the `edges` ticks since the last MCLK edge, at most 8, in one step;
a boundary that this passes fires. A loss while the tally runs on the holdover clock only ends the presence that R520 counts. -/
def execMclkLoss (edges : Nat) (s : State) : Host.Outcome State Fault Refusal :=
  if !s.clk.mclkPresent then .next s
  else if s.clk.onHoldover then .next { s with clk := { s.clk with mclkPresent := false } }
  else
    let dst := s.clk.tally + min edges 8
    let s := { s with clk := { s.clk with mclkPresent := false, onHoldover := true, lostAt := s.clk.tally } }
    let s := if sampleNext s ≤ dst then sampleAt (sampleNext s) [] s else s
    let s := if frameNext s ≤ dst then frameAt (frameNext s) { audits := [], gear := [], pilots := [] } s else s
    .next (advance dst s)

end Sys2Proof.Machine
end

