-- ==== Sys2Proof/Machine/Dispatch.lean ====
section
/-! DEFINITION. The meaning of each command: one arm per constructor of `Instr`. -/

namespace Sys2Proof.Machine

def exec (i : Instr) (s : State) : Host.Outcome State Fault Refusal :=
  match i with
  | .frameBoundary env => Sys2Proof.Machine.execFrameBoundary env s
  | .sampleBoundary badWords => Sys2Proof.Machine.execSampleBoundary badWords s
  | .commitApply => Sys2Proof.Machine.execCommitApply s
  | .spokeFrameComplete sp => Sys2Proof.Machine.execSpokeFrameComplete sp s
  | .spokeOverrun sp => Sys2Proof.Machine.execSpokeOverrun sp s
  | .spokeClockStep => Sys2Proof.Machine.execSpokeClockStep s
  | .mclkLoss edges => Sys2Proof.Machine.execMclkLoss edges s
  | .holdoverEnter => Sys2Proof.Machine.execHoldoverEnter s
  | .mclkRatioMeasure ratio => Sys2Proof.Machine.execMclkRatioMeasure ratio s
  | .holdoverExit => Sys2Proof.Machine.execHoldoverExit s
  | .hubMbInWrWrite m v => Sys2Proof.Machine.execHubMbInWrWrite m v s
  | .hubMbOutRdWrite m v => Sys2Proof.Machine.execHubMbOutRdWrite m v s
  | .requestTake => Sys2Proof.Machine.execRequestTake s
  | .requestTimeout m => Sys2Proof.Machine.execRequestTimeout m s
  | .responseWrite m => Sys2Proof.Machine.execResponseWrite m s
  | .nmbDatagram d => Sys2Proof.Machine.execNmbDatagram d s
  | .ping r => Sys2Proof.Machine.execPing r s
  | .lookup r => Sys2Proof.Machine.execLookup r s
  | .release r => Sys2Proof.Machine.execRelease r s
  | .query r => Sys2Proof.Machine.execQuery r s
  | .read r => Sys2Proof.Machine.execRead r s
  | .stage r => Sys2Proof.Machine.execStage r s
  | .commit r => Sys2Proof.Machine.execCommit r s
  | .discard r => Sys2Proof.Machine.execDiscard r s
  | .admitConfig r => Sys2Proof.Machine.execAdmitConfig r s
  | .admissionApply => Sys2Proof.Machine.execAdmissionApply s
  | .sceneStore r => Sys2Proof.Machine.execSceneStore r s
  | .sceneRecall r => Sys2Proof.Machine.execSceneRecall r s
  | .filterLoad r => Sys2Proof.Machine.execFilterLoad r s
  | .eventRingSet r => Sys2Proof.Machine.execEventRingSet r s
  | .ledgerRead r => Sys2Proof.Machine.execLedgerRead r s
  | .ledgerClear r => Sys2Proof.Machine.execLedgerClear r s
  | .nmbConfig r flashOk => Sys2Proof.Machine.execNmbConfig r flashOk s
  | .fwBegin r => Sys2Proof.Machine.execFwBegin r s
  | .fwData r => Sys2Proof.Machine.execFwData r s
  | .fwEnd r => Sys2Proof.Machine.execFwEnd r s
  | .fwUpdateTimeout => Sys2Proof.Machine.execFwUpdateTimeout s
  | .hubEvRdWrite e v => Sys2Proof.Machine.execHubEvRdWrite e v s
  | .tellerDivergence => Sys2Proof.Machine.execTellerDivergence s
  | .heartbeatTimeout => Sys2Proof.Machine.execHeartbeatTimeout s
  | .failoverEnter => Sys2Proof.Machine.execFailoverEnter s
  | .hubBusyAnswer m => Sys2Proof.Machine.execHubBusyAnswer m s
  | .tellerTakeover => Sys2Proof.Machine.execTellerTakeover s
  | .tellerSelfTestDone pair pass => Sys2Proof.Machine.execTellerSelfTestDone pair pass s
  | .filterReady f b => Sys2Proof.Machine.execFilterReady f b s
  | .loadAbandoned f b => Sys2Proof.Machine.execLoadAbandoned f b s
  | .laneReserve f => Sys2Proof.Machine.execLaneReserve f s
  | .laneFillDone f => Sys2Proof.Machine.execLaneFillDone f s
  | .swapDone u => Sys2Proof.Machine.execSwapDone u s
  | .rampEnd n tag => Sys2Proof.Machine.execRampEnd n tag s
  | .routeFadeEnd n tag => Sys2Proof.Machine.execRouteFadeEnd n tag s
  | .sceneDone => Sys2Proof.Machine.execSceneDone s
  | .ambHoldEnd z => Sys2Proof.Machine.execAmbHoldEnd z s
  | .alarmMark obs => Sys2Proof.Machine.execAlarmMark obs s
  | .auditResolution n res => Sys2Proof.Machine.execAuditResolution n res s
  | .bellTrigRecognise n level => Sys2Proof.Machine.execBellTrigRecognise n level s
  | .bellRepetitionEnd n => Sys2Proof.Machine.execBellRepetitionEnd n s
  | .bellGapEnd n => Sys2Proof.Machine.execBellGapEnd n s
  | .instanceEntry sp path => Sys2Proof.Machine.execInstanceEntry sp path s
  | .instanceDrainDone sp => Sys2Proof.Machine.execInstanceDrainDone sp s
  | .fenceReached sp => Sys2Proof.Machine.execFenceReached sp s
  | .dmaComplete sp k => Sys2Proof.Machine.execDmaComplete sp k s
  | .lnop sp => Sys2Proof.Machine.execLnop sp s
  | .ldW sp d p mode n => Sys2Proof.Machine.execLdW sp d p mode n s
  | .ldD sp d p mode n => Sys2Proof.Machine.execLdD sp d p mode n s
  | .ldQ sp d p mode n => Sys2Proof.Machine.execLdQ sp d p mode n s
  | .ldWW sp da pa db pb => Sys2Proof.Machine.execLdWW sp da pa db pb s
  | .stW sp d p mode n => Sys2Proof.Machine.execStW sp d p mode n s
  | .stD sp d p mode n => Sys2Proof.Machine.execStD sp d p mode n s
  | .stQ sp d p mode n => Sys2Proof.Machine.execStQ sp d p mode n s
  | .ldA sp a p mode n => Sys2Proof.Machine.execLdA sp a p mode n s
  | .stA sp a p mode n => Sys2Proof.Machine.execStA sp a p mode n s
  | .mnop sp => Sys2Proof.Machine.execMnop sp s
  | .mac1 sp s1 a x y z neg => Sys2Proof.Machine.execMac1 sp s1 a x y z neg s
  | .mac4V sp s1 a x y z neg => Sys2Proof.Machine.execMac4V sp s1 a x y z neg s
  | .mac4B sp s1 a x y z neg => Sys2Proof.Machine.execMac4B sp s1 a x y z neg s
  | .mac4W sp s1 a x y z neg => Sys2Proof.Machine.execMac4W sp s1 a x y z neg s
  | .cmac sp s1 a x y z neg conj => Sys2Proof.Machine.execCmac sp s1 a x y z neg conj s
  | .red sp s1 a x sh => Sys2Proof.Machine.execRed sp s1 a x sh s
  | .red4 sp s1 a x sh => Sys2Proof.Machine.execRed4 sp s1 a x sh s
  | .aclr sp a q => Sys2Proof.Machine.execAclr sp a q s
  | .mulr sp s1 x y t => Sys2Proof.Machine.execMulr sp s1 x y t s
  | .add sp s1 x y t => Sys2Proof.Machine.execAdd sp s1 x y t s
  | .sub sp s1 x y t => Sys2Proof.Machine.execSub sp s1 x y t s
  | .shl sp s1 x y imm t => Sys2Proof.Machine.execShl sp s1 x y imm t s
  | .shr sp x y imm t => Sys2Proof.Machine.execShr sp x y imm t s
  | .and sp x y t => Sys2Proof.Machine.execAnd sp x y t s
  | .or sp x y t => Sys2Proof.Machine.execOr sp x y t s
  | .xor sp x y t => Sys2Proof.Machine.execXor sp x y t s
  | .min sp x y t => Sys2Proof.Machine.execMin sp x y t s
  | .max sp x y t => Sys2Proof.Machine.execMax sp x y t s
  | .abs sp s1 x y => Sys2Proof.Machine.execAbs sp s1 x y s
  | .neg sp s1 x y => Sys2Proof.Machine.execNeg sp s1 x y s
  | .mov sp x y => Sys2Proof.Machine.execMov sp x y s
  | .cnop sp => Sys2Proof.Machine.execCnop sp s
  | .cmacShort sp s1 k x y z => Sys2Proof.Machine.execCmacShort sp s1 k x y z s
  | .loop sp level body count => Sys2Proof.Machine.execLoop sp level body count s
  | .loopr sp level body reg => Sys2Proof.Machine.execLoopr sp level body reg s
  | .br sp off => Sys2Proof.Machine.execBr sp off s
  | .bz sp reg off => Sys2Proof.Machine.execBz sp reg off s
  | .bnz sp reg off => Sys2Proof.Machine.execBnz sp reg off s
  | .movp sp kind idx dir d => Sys2Proof.Machine.execMovp sp kind idx dir d s
  | .flag sp rd d clrOvr clrOva => Sys2Proof.Machine.execFlag sp rd d clrOvr clrOva s
  | .dma sp d => Sys2Proof.Machine.execDma sp d s
  | .dwait sp k => Sys2Proof.Machine.execDwait sp k s
  | .exit sp => Sys2Proof.Machine.execExit sp s
  | .moviD sp r imm => Sys2Proof.Machine.execMoviD sp r imm s
  | .moviP sp r imm => Sys2Proof.Machine.execMoviP sp r imm s
  | .moviN sp r imm => Sys2Proof.Machine.execMoviN sp r imm s
  | .moviRb sp r imm => Sys2Proof.Machine.execMoviRb sp r imm s
  | .moviRl sp r imm => Sys2Proof.Machine.execMoviRl sp r imm s
  | .tdmPeriod n start bclks words => Sys2Proof.Machine.execTdmPeriod n start bclks words s
  | .aes3Frame n start pre a b => Sys2Proof.Machine.execAes3Frame n start pre a b s
  | .portLocked p => Sys2Proof.Machine.execPortLocked p s
  | .portMismatch p => Sys2Proof.Machine.execPortMismatch p s
  | .portStopDetect p reason => Sys2Proof.Machine.execPortStopDetect p reason s
  | .portDead p => Sys2Proof.Machine.execPortDead p s
  | .slotChange n start => Sys2Proof.Machine.execSlotChange n start s
  | .aes3OutBlockStart n => Sys2Proof.Machine.execAes3OutBlockStart n s
  | .aes3ValidityRearm n ch => Sys2Proof.Machine.execAes3ValidityRearm n ch s
  | .pdmStuck m bit => Sys2Proof.Machine.execPdmStuck m bit s
  | .pdmRecover m => Sys2Proof.Machine.execPdmRecover m s
  | .gearWarm g => Sys2Proof.Machine.execGearWarm g s
  | .gearFadeDone g => Sys2Proof.Machine.execGearFadeDone g s
  | .gearFaultClear => Sys2Proof.Machine.execGearFaultClear s
  | .ethFrameReceive n f => Sys2Proof.Machine.execEthFrameReceive n f s
  | .pauseExpire n => Sys2Proof.Machine.execPauseExpire n s
  | .pauseLong n => Sys2Proof.Machine.execPauseLong n s
  | .frameTransmitStart n => Sys2Proof.Machine.execFrameTransmitStart n s
  | .frameTransmitEnd n => Sys2Proof.Machine.execFrameTransmitEnd n s
  | .streamPacketHandoff n s1 => Sys2Proof.Machine.execStreamPacketHandoff n s1 s
  | .gateInterval n => Sys2Proof.Machine.execGateInterval n s
  | .gateListApplied n => Sys2Proof.Machine.execGateListApplied n s
  | .linkChange n up rate => Sys2Proof.Machine.execLinkChange n up rate s
  | .cbPathLost s1 mac => Sys2Proof.Machine.execCbPathLost s1 mac s
  | .mediaOffsetSet offset => Sys2Proof.Machine.execMediaOffsetSet offset s
  | .mediaOffsetChanged offset => Sys2Proof.Machine.execMediaOffsetChanged offset s
  | .dramRequestAccept q => Sys2Proof.Machine.execDramRequestAccept q s
  | .dramSlot ch errs => Sys2Proof.Machine.execDramSlot ch errs s
  | .vaultRepaired ch => Sys2Proof.Machine.execVaultRepaired ch s
  | .refreshInterval ch => Sys2Proof.Machine.execRefreshInterval ch s
  | .readPanic sp => Sys2Proof.Machine.execReadPanic sp s
  | .agePromotion idx => Sys2Proof.Machine.execAgePromotion idx s
  | .mr4Poll ch factor => Sys2Proof.Machine.execMr4Poll ch factor s
  | .dqsOscTrack ch delay => Sys2Proof.Machine.execDqsOscTrack ch delay s
  | .retrainStart ch => Sys2Proof.Machine.execRetrainStart ch s
  | .retrainDone ch eyes => Sys2Proof.Machine.execRetrainDone ch eyes s
  | .hammerWindowClear => Sys2Proof.Machine.execHammerWindowClear s
  | .bankSkewWindow ch => Sys2Proof.Machine.execBankSkewWindow ch s
  | .setpointChanged => Sys2Proof.Machine.execSetpointChanged s
  | .channelFailed ch reason => Sys2Proof.Machine.execChannelFailed ch reason s
  | .pilotParamApply n => Sys2Proof.Machine.execPilotParamApply n s
  | .rangeHizEnd n => Sys2Proof.Machine.execRangeHizEnd n s
  | .registerWrite m off size v => Sys2Proof.Machine.execRegisterWrite m off size v s
  | .rcRead m off size => Sys2Proof.Machine.execRcRead m off size s
  | .sysTallyLoRead m => Sys2Proof.Machine.execSysTallyLoRead m s
  | .sysSnapshotWrite v => Sys2Proof.Machine.execSysSnapshotWrite v s
  | .sysIndDataAccess m write v => Sys2Proof.Machine.execSysIndDataAccess m write v s
  | .pairedWriteHalf m off v => Sys2Proof.Machine.execPairedWriteHalf m off v s
  | .pairWindowExpire off => Sys2Proof.Machine.execPairWindowExpire off s
  | .sysRemapWrite m v => Sys2Proof.Machine.execSysRemapWrite m v s
  | .sysBar2BaseWrite m v => Sys2Proof.Machine.execSysBar2BaseWrite m v s
  | .sysDramWinBaseWrite m v => Sys2Proof.Machine.execSysDramWinBaseWrite m v s
  | .bellSwtrigWrite m v => Sys2Proof.Machine.execBellSwtrigWrite m v s
  | .aonFaultTestWrite m v => Sys2Proof.Machine.execAonFaultTestWrite m v s
  | .hubHdWrWrite q v => Sys2Proof.Machine.execHubHdWrWrite q v s
  | .hostDmaDescriptor q desc => Sys2Proof.Machine.execHostDmaDescriptor q desc s
  | .spiWrite bytes => Sys2Proof.Machine.execSpiWrite bytes s
  | .spiWriteFixed bytes => Sys2Proof.Machine.execSpiWriteFixed bytes s
  | .spiRead bytes => Sys2Proof.Machine.execSpiRead bytes s
  | .spiReadFixed bytes => Sys2Proof.Machine.execSpiReadFixed bytes s
  | .spiStatus => Sys2Proof.Machine.execSpiStatus s
  | .spiReadAbandon bytes => Sys2Proof.Machine.execSpiReadAbandon bytes s
  | .pcieReset cause => Sys2Proof.Machine.execPcieReset cause s
  | .porstAssert => Sys2Proof.Machine.execPorstAssert s
  | .coldReset hostStrap monStrap mclk => Sys2Proof.Machine.execColdReset hostStrap monStrap mclk s
  | .warmReset cause => Sys2Proof.Machine.execWarmReset cause s
  | .dramBringupDone ok0 ok1 => Sys2Proof.Machine.execDramBringupDone ok0 ok1 s
  | .firstServing => Sys2Proof.Machine.execFirstServing s
  | .bootWatchdogExpire => Sys2Proof.Machine.execBootWatchdogExpire s
  | .domainSwitch dom on => Sys2Proof.Machine.execDomainSwitch dom on s
  | .auditChargeExpire sp => Sys2Proof.Machine.execAuditChargeExpire sp s
  | .spokeRetired sp => Sys2Proof.Machine.execSpokeRetired sp s
  | .placementChanged => Sys2Proof.Machine.execPlacementChanged s
  | .plannedPromotion sp => Sys2Proof.Machine.execPlannedPromotion sp s
  | .faultOutput => Sys2Proof.Machine.execFaultOutput s
  | .releaseWordTimeout logic => Sys2Proof.Machine.execReleaseWordTimeout logic s
  | .faultClockStop logic => Sys2Proof.Machine.execFaultClockStop logic s
  | .ladderEvaluate => Sys2Proof.Machine.execLadderEvaluate s
  | .ladderUndo => Sys2Proof.Machine.execLadderUndo s
  | .recorderFlush r => Sys2Proof.Machine.execRecorderFlush r s
  | .replan daily reason m => Sys2Proof.Machine.execReplan daily reason m s
  | .ledgerEntryWrite => Sys2Proof.Machine.execLedgerEntryWrite s
  | .opSecondsSave => Sys2Proof.Machine.execOpSecondsSave s
  | .keyChanged asserted => Sys2Proof.Machine.execKeyChanged asserted s
  | .sealBitSample sns => Sys2Proof.Machine.execSealBitSample sns s
  | .monRd a n => Sys2Proof.Machine.execMonRd a n s
  | .monWr a v => Sys2Proof.Machine.execMonWr a v s
  | .monFill a n v => Sys2Proof.Machine.execMonFill a n v s
  | .monWrp a v => Sys2Proof.Machine.execMonWrp a v s
  | .monRdi a n => Sys2Proof.Machine.execMonRdi a n s
  | .monWri a v => Sys2Proof.Machine.execMonWri a v s
  | .monMb ws => Sys2Proof.Machine.execMonMb ws s
  | .monTrace mask => Sys2Proof.Machine.execMonTrace mask s
  | .monLedger margin first n => Sys2Proof.Machine.execMonLedger margin first n s
  | .monState => Sys2Proof.Machine.execMonState s
  | .monKey => Sys2Proof.Machine.execMonKey s
  | .monBaud rate => Sys2Proof.Machine.execMonBaud rate s
  | .monBaudRevert => Sys2Proof.Machine.execMonBaudRevert s
  | .jtagBypass tdi => Sys2Proof.Machine.execJtagBypass tdi s
  | .jtagIdcode => Sys2Proof.Machine.execJtagIdcode s
  | .jtagSamplePreload pins cells => Sys2Proof.Machine.execJtagSamplePreload pins cells s
  | .jtagExtest => Sys2Proof.Machine.execJtagExtest s
  | .mclkReturn => Sys2Proof.Machine.execMclkReturn s
  | .pcieLinkUp => Sys2Proof.Machine.execPcieLinkUp s
  | .configurationRequest => Sys2Proof.Machine.execConfigurationRequest s
  | .illegalBundle sp bundle => Sys2Proof.Machine.execIllegalBundle sp bundle s

end Sys2Proof.Machine
end

