-- ==== Sys2Proof/WellFormed.lean ====
section
/-! DEFINITION. Well-formed commands: every operand lies in the range that the spec gives the thing it numbers, or fits the field of
the bundle, register or message it stands for. A well-formed command may still break a rule; what happens then is part of its
meaning (an illegal bundle, an ignored event, a request refused with a status). -/

namespace Sys2Proof

/-- The index of a node lies in its range (R66, R118, R571 and the tables of the chapters). Names of tandems have 1 to 31 characters (R65). -/
def Node.wf : Node → Bool
  | .hub => true
  | .wheel w => decide (w < 4)
  | .spoke w s => decide (w < 4) && decide (s < 10)
  | .layout => true
  | .car n => decide (1 ≤ n) && decide (n ≤ 32)
  | .zone n => decide (n < 256)
  | .object n => decide (n < 768)
  | .feed n => decide (n < 1024)
  | .align n => decide (n < 1024)
  | .corr n => decide (n < 1024)
  | .bank n b => decide (n < 1024) && decide (b < 2)
  | .eq n => decide (n < 1024)
  | .limit n => decide (n < 1024)
  | .till => true
  | .channel n => decide (n < 512)
  | .bus n => decide (n < 96)
  | .scene => true
  | .sceneChip n => decide (n < 64)
  | .sceneLib n => decide (n < 1024)
  | .cls k => decide (k < 4)
  | .config => true
  | .slot n => decide (n < 4)
  | .bell => true
  | .bellMsg n => decide (n < 64)
  | .bellTrig n => decide (n < 4)
  | .bellRoute n => decide (n < 64)
  | .stage nm => decide (nm.length ≤ 31)
  | .sai n => decide (n < 16)
  | .aesi n => decide (n < 4)
  | .aeso n => decide (n < 4)
  | .pdm n => decide (n < 16)
  | .gear => true
  | .gearSai n => decide (n < 16)
  | .gearAesi n => decide (n < 4)
  | .gearPdm n => decide (n < 16)
  | .net n => decide (n < 4)
  | .gate n => decide (n < 4)
  | .ptp n => decide (n < 4)
  | .tx n s => decide (n < 4) && decide (s < 128)
  | .rx n s => decide (n < 4) && decide (s < 128)
  | .pilot n => decide (n < 4)
  | .tandem path => path.all fun x => decide (x.length ≤ 31)
  | .inst path => path.all fun x => decide (x.length ≤ 31)
  | .ring e => decide (e < 8)
  | .ledgerEvent => true
  | .ledgerMargin => true

/-- An item has a 16-bit TAG and a VLEN of 0 to 1018 (R44). -/
def Item.wf (i : Item) : Bool := decide (i.tag < 65536) && decide (i.vals.length ≤ 1018)

/-- A request comes from one of the eleven mailboxes (R31, R57). -/
def Request.wf (r : Request) : Bool := decide (r.mb < 11) && r.items.all Item.wf

/-- A datagram arrives at one of the four MACs (R57, R358). -/
def Datagram.wf (d : Datagram) : Bool := decide (d.mac < 4) && decide (d.srcPort < 65536) && decide (d.dstPort < 65536)

/-- The copies of a node of the tree (R252). -/
def CopyObs.wf (o : CopyObs) : Bool := o.node.wf

/-- A received subframe holds 24 bits of sample (R331). -/
def Subframe.wf (f : Subframe) : Bool := decide (f.sample < 2 ^ 24)

/-- A TDM port or an AES3 input (R317, R331). -/
def PortId.wf : PortId → Bool
  | .sai n => decide (n < 16)
  | .aesi n => decide (n < 4)

/-- A gear channel's source (R342). -/
def GearId.wf : GearId → Bool
  | .sai n => decide (n < 16)
  | .aesi n => decide (n < 4)
  | .pdm n => decide (n < 16)

/-- The owner of a fade exists in the tree. -/
def SwapUnit.wf : SwapUnit → Bool
  | .corr f => decide (f < 1024)
  | .eq f => decide (f < 1024)
  | .align f => decide (f < 1024)
  | .chanEq c => decide (c < 512)
  | .busEq b => decide (b < 96)
  | .chanDelay c => decide (c < 512)

/-- The fields of an RTP packet fit their widths (R390). -/
def RtpPacket.wf (p : RtpPacket) : Bool := decide (p.udpPort < 65536) && decide (p.version < 4) && decide (p.pt < 128) &&
  (p.rtag.map fun q => decide (q < 65536)).getD true

/-- The body of a frame fits its fields (R366, R375). -/
def FrameBody.wf : FrameBody → Bool
  | .pause q => decide (q < 65536)
  | .macControl o => decide (o < 65536)
  | .ptp _ t => decide (t < 2 ^ 80)
  | .rtp p => p.wf
  | .datagram d => d.wf
  | .arp => true
  | .icmpEcho => true
  | .igmp => true
  | .fragment => true
  | .other => true

/-- A received frame: a 12-bit VID (R375) and a well-formed body. -/
def EthFrame.wf (f : EthFrame) : Bool := (f.vid.map fun v => decide (v < 4096)).getD true && f.body.wf

/-- A DRAM request names a channel and moves 1 to 512 bytes at an address of the space (R405, R415). -/
def DramSpace.wf : DramSpace → Bool
  | .normal => true
  | .copyBound ch => decide (ch < 2)
  | .mirrored => true
def DramReq.wf (q : DramReq) : Bool :=
  q.space.wf && decide (q.cls < 4) && (!q.write || q.data.length == q.bytes)

/-- A finding in one of the 64 words of a row group (R410, R411). -/
def EccObs.wf (e : EccObs) : Bool := decide (e.word < 64)

/-- The environment of a frame: spokes, gear channels and pilot channels that exist. -/
def PilotObs.wf (o : PilotObs) : Bool := decide (o.ch < 4)
def FrameEnv.wf (e : FrameEnv) : Bool :=
  (e.audits.all fun a => a.1.wf && decide (a.2 < 40)) && (e.gear.all fun g => g.node.wf) && e.pilots.all PilotObs.wf

/-- Readings of all forty spokes and eight byte lanes (R530). -/
def SensorSet.wf (m : SensorSet) : Bool := m.slack.length == 40 && m.eyes.length == 8

/-- An access of 1, 2, 4 or 8 bytes (R473). -/
def widthOk (n : Nat) : Bool := n == 1 || n == 2 || n == 4 || n == 8

/-- A command whose operands are in range. -/
def Instr.wf : Instr → Bool
  | .frameBoundary env => env.wf
  | .sampleBoundary badWords => badWords.all (· < 2 ^ 19)
  | .commitApply => true
  | .spokeFrameComplete sp => decide (sp < 40)
  | .spokeOverrun sp => decide (sp < 40)
  | .spokeClockStep => true
  | .mclkLoss edges => decide (edges ≤ 8)
  | .holdoverEnter => true
  | .mclkRatioMeasure _ => true
  | .holdoverExit => true
  | .hubMbInWrWrite m _ => decide (m < 8)
  | .hubMbOutRdWrite m _ => decide (m < 8)
  | .requestTake => true
  | .requestTimeout m => decide (m < 11)
  | .responseWrite m => decide (m < 11)
  | .nmbDatagram d => d.wf
  | .ping r => r.wf
  | .lookup r => r.wf
  | .release r => r.wf
  | .query r => r.wf
  | .read r => r.wf
  | .stage r => r.wf
  | .commit r => r.wf
  | .discard r => r.wf
  | .admitConfig r => r.wf
  | .admissionApply => true
  | .sceneStore r => r.wf
  | .sceneRecall r => r.wf
  | .filterLoad r => r.wf
  | .eventRingSet r => r.wf
  | .ledgerRead r => r.wf
  | .ledgerClear r => r.wf
  | .nmbConfig r _ => r.wf
  | .fwBegin r => r.wf
  | .fwData r => r.wf
  | .fwEnd r => r.wf
  | .fwUpdateTimeout => true
  | .hubEvRdWrite e _ => decide (e < 8)
  | .tellerDivergence => true
  | .heartbeatTimeout => true
  | .failoverEnter => true
  | .hubBusyAnswer m => decide (m < 11)
  | .tellerTakeover => true
  | .tellerSelfTestDone pair _ => decide (pair < 2)
  | .filterReady f b => decide (f < 1024) && decide (b < 2)
  | .loadAbandoned f b => decide (f < 1024) && decide (b < 2)
  | .laneReserve f => decide (f < 1024)
  | .laneFillDone f => decide (f < 1024)
  | .swapDone u => u.wf
  | .rampEnd n tag => n.wf && decide (tag < 0x10000)
  | .routeFadeEnd n tag => n.wf && decide (tag < 0x10000)
  | .sceneDone => true
  | .ambHoldEnd z => decide (z < 256)
  | .alarmMark obs => obs.all CopyObs.wf
  | .auditResolution n _ => n.wf
  | .bellTrigRecognise n _ => decide (n < 4)
  | .bellRepetitionEnd n => decide (n < 4)
  | .bellGapEnd n => decide (n < 4)
  | .instanceEntry sp _ => decide (sp < 40)
  | .instanceDrainDone sp => decide (sp < 40)
  | .fenceReached sp => decide (sp < 40)
  | .dmaComplete sp k => decide (sp < 40) && decide (k < 8)
  | .lnop sp => decide (sp < 40)
  | .ldW sp d p mode n => decide (sp < 40) && decide (d < 32) && decide (p < 8) && decide (mode < 4) && decide (n < 8)
  | .ldD sp d p mode n => decide (sp < 40) && decide (d < 32) && decide (p < 8) && decide (mode < 4) && decide (n < 8)
  | .ldQ sp d p mode n => decide (sp < 40) && decide (d < 32) && decide (p < 8) && decide (mode < 4) && decide (n < 8)
  | .ldWW sp da pa db pb => decide (sp < 40) && decide (da < 32) && decide (pa < 8) && decide (db < 32) && decide (pb < 8)
  | .stW sp d p mode n => decide (sp < 40) && decide (d < 32) && decide (p < 8) && decide (mode < 4) && decide (n < 8)
  | .stD sp d p mode n => decide (sp < 40) && decide (d < 32) && decide (p < 8) && decide (mode < 4) && decide (n < 8)
  | .stQ sp d p mode n => decide (sp < 40) && decide (d < 32) && decide (p < 8) && decide (mode < 4) && decide (n < 8)
  | .ldA sp a p mode n => decide (sp < 40) && decide (a < 8) && decide (p < 8) && decide (mode < 4) && decide (n < 8)
  | .stA sp a p mode n => decide (sp < 40) && decide (a < 8) && decide (p < 8) && decide (mode < 4) && decide (n < 8)
  | .mnop sp => decide (sp < 40)
  | .mac1 sp _ a x y _ _ => decide (sp < 40) && decide (a < 8) && decide (x < 32) && decide (y < 32)
  | .mac4V sp _ a x y _ _ => decide (sp < 40) && decide (a < 8) && decide (x < 32) && decide (y < 32)
  | .mac4B sp _ a x y _ _ => decide (sp < 40) && decide (a < 8) && decide (x < 32) && decide (y < 32)
  | .mac4W sp _ a x y _ _ => decide (sp < 40) && decide (a < 8) && decide (x < 32) && decide (y < 32)
  | .cmac sp _ a x y _ _ _ => decide (sp < 40) && decide (a < 8) && decide (x < 32) && decide (y < 32)
  | .red sp _ a x _ => decide (sp < 40) && decide (a < 8) && decide (x < 32)
  | .red4 sp _ a x _ => decide (sp < 40) && decide (a < 8) && decide (x < 32)
  | .aclr sp a _ => decide (sp < 40) && decide (a < 8)
  | .mulr sp _ x y t => decide (sp < 40) && decide (x < 32) && decide (y < 32) && decide (t < 32)
  | .add sp _ x y t => decide (sp < 40) && decide (x < 32) && decide (y < 32) && decide (t < 32)
  | .sub sp _ x y t => decide (sp < 40) && decide (x < 32) && decide (y < 32) && decide (t < 32)
  | .shl sp _ x y _ t => decide (sp < 40) && decide (x < 32) && decide (y < 32) && decide (t < 32)
  | .shr sp x y _ t => decide (sp < 40) && decide (x < 32) && decide (y < 32) && decide (t < 32)
  | .and sp x y t => decide (sp < 40) && decide (x < 32) && decide (y < 32) && decide (t < 32)
  | .or sp x y t => decide (sp < 40) && decide (x < 32) && decide (y < 32) && decide (t < 32)
  | .xor sp x y t => decide (sp < 40) && decide (x < 32) && decide (y < 32) && decide (t < 32)
  | .min sp x y t => decide (sp < 40) && decide (x < 32) && decide (y < 32) && decide (t < 32)
  | .max sp x y t => decide (sp < 40) && decide (x < 32) && decide (y < 32) && decide (t < 32)
  | .abs sp _ x y => decide (sp < 40) && decide (x < 32) && decide (y < 32)
  | .neg sp _ x y => decide (sp < 40) && decide (x < 32) && decide (y < 32)
  | .mov sp x y => decide (sp < 40) && decide (x < 32) && decide (y < 32)
  | .cnop sp => decide (sp < 40)
  | .cmacShort sp _ k x y _ => decide (sp < 40) && decide (k < 4) && decide (x < 16) && decide (y < 16)
  | .loop sp _ body count => decide (sp < 40) && decide (1 ≤ body) && decide (body ≤ 32) && decide (1 ≤ count) && decide (count ≤ 64)
  | .loopr sp _ body reg => decide (sp < 40) && decide (1 ≤ body) && decide (body ≤ 32) && decide (reg < 32)
  | .br sp off => decide (sp < 40) && decide (-2048 ≤ off) && decide (off < 2048)
  | .bz sp reg off => decide (sp < 40) && decide (reg < 32) && decide (-64 ≤ off) && decide (off < 64)
  | .bnz sp reg off => decide (sp < 40) && decide (reg < 32) && decide (-64 ≤ off) && decide (off < 64)
  | .movp sp kind idx _ d => decide (sp < 40) && decide (kind < 4) && decide (idx < 8) && decide (d < 32)
  | .flag sp _ d _ _ => decide (sp < 40) && decide (d < 32)
  | .dma sp d => decide (sp < 40) && decide (d < 32)
  | .dwait sp k => decide (sp < 40) && decide (k < 8)
  | .exit sp => decide (sp < 40)
  | .moviD sp r _ => decide (sp < 40) && decide (r < 32)
  | .moviP sp r _ => decide (sp < 40) && decide (r < 8)
  | .moviN sp r _ => decide (sp < 40) && decide (r < 8)
  | .moviRb sp r _ => decide (sp < 40) && decide (r < 8)
  | .moviRl sp r _ => decide (sp < 40) && decide (r < 8)
  | .tdmPeriod n start _ words => decide (n < 16) && decide (start < 2 ^ 64) && decide (words.length ≤ 16)
  | .aes3Frame n start _ a b => decide (n < 4) && decide (start < 2 ^ 64) && a.wf && b.wf
  | .portLocked p => p.wf
  | .portMismatch p => p.wf
  | .portStopDetect p reason => p.wf && decide (1 ≤ reason) && decide (reason ≤ 3)
  | .portDead p => p.wf
  | .slotChange n start => decide (n < 16) && decide (start < 2 ^ 64)
  | .aes3OutBlockStart n => decide (n < 4)
  | .aes3ValidityRearm n ch => decide (n < 4) && decide (ch < 2)
  | .pdmStuck m _ => decide (m < 16)
  | .pdmRecover m => decide (m < 16)
  | .gearWarm g => g.wf
  | .gearFadeDone g => g.wf
  | .gearFaultClear => true
  | .ethFrameReceive n f => decide (n < 4) && f.wf
  | .pauseExpire n => decide (n < 4)
  | .pauseLong n => decide (n < 4)
  | .frameTransmitStart n => decide (n < 4)
  | .frameTransmitEnd n => decide (n < 4)
  | .streamPacketHandoff n s => decide (n < 4) && decide (s < 128)
  | .gateInterval n => decide (n < 4)
  | .gateListApplied n => decide (n < 4)
  | .linkChange n _ rate => decide (n < 4) && decide (rate < 3)
  | .cbPathLost s mac => decide (s < 128) && decide (mac < 4)
  | .mediaOffsetSet offset => decide (offset < 2 ^ 32)
  | .mediaOffsetChanged offset => decide (offset < 2 ^ 32)
  | .dramRequestAccept q => q.wf
  | .dramSlot ch errs => decide (ch < 2) && errs.all EccObs.wf
  | .vaultRepaired ch => decide (ch < 2)
  | .refreshInterval ch => decide (ch < 2)
  | .readPanic sp => decide (sp < 40)
  | .agePromotion _ => true
  | .mr4Poll ch factor => decide (ch < 2) && [1, 2, 4].contains factor
  | .dqsOscTrack ch _ => decide (ch < 2)
  | .retrainStart ch => decide (ch < 2)
  | .retrainDone ch eyes => decide (ch < 2) && eyes.length == 4
  | .hammerWindowClear => true
  | .bankSkewWindow ch => decide (ch < 2)
  | .setpointChanged => true
  | .channelFailed ch reason => decide (ch < 2) && decide (1 ≤ reason) && decide (reason ≤ 4)
  | .pilotParamApply n => decide (n < 4)
  | .rangeHizEnd n => decide (n < 4)
  | .registerWrite _ off size v => decide (off < 2 ^ 32) && widthOk size && decide (v < 2 ^ (8 * size))
  | .rcRead _ off size => decide (off < 2 ^ 32) && widthOk size
  | .sysTallyLoRead _ => true
  | .sysSnapshotWrite _ => true
  | .sysIndDataAccess _ _ _ => true
  | .pairedWriteHalf _ off _ => decide (off < 2 ^ 32)
  | .pairWindowExpire off => decide (off < 2 ^ 32)
  | .sysRemapWrite _ _ => true
  | .sysBar2BaseWrite _ _ => true
  | .sysDramWinBaseWrite _ _ => true
  | .bellSwtrigWrite _ _ => true
  | .aonFaultTestWrite _ _ => true
  | .hubHdWrWrite q _ => decide (q < 16)
  | .hostDmaDescriptor q desc => decide (q < 16) && desc.length == 4
  | .spiWrite _ => true
  | .spiWriteFixed _ => true
  | .spiRead _ => true
  | .spiReadFixed _ => true
  | .spiStatus => true
  | .spiReadAbandon _ => true
  | .pcieReset _ => true
  | .porstAssert => true
  | .coldReset hostStrap _ _ => decide (hostStrap < 4)
  | .warmReset _ => true
  | .dramBringupDone _ _ => true
  | .firstServing => true
  | .bootWatchdogExpire => true
  | .domainSwitch dom _ => decide (dom < 12)
  | .auditChargeExpire sp => decide (sp < 40)
  | .spokeRetired sp => decide (sp < 40)
  | .placementChanged => true
  | .plannedPromotion sp => decide (sp < 40)
  | .faultOutput => true
  | .releaseWordTimeout logic => decide (logic < 2)
  | .faultClockStop logic => decide (logic < 2)
  | .ladderEvaluate => true
  | .ladderUndo => true
  | .recorderFlush r => decide (r < 8)
  | .replan _ _ m => m.wf
  | .ledgerEntryWrite => true
  | .opSecondsSave => true
  | .keyChanged _ => true
  | .sealBitSample _ => true
  | .monRd a n => decide (a < 2 ^ 32) && decide (1 ≤ n) && decide (n ≤ 256)
  | .monWr a _ => decide (a < 2 ^ 32)
  | .monFill a n _ => decide (a < 2 ^ 32) && decide (n < 2 ^ 32)
  | .monWrp a _ => decide (a < 2 ^ 32)
  | .monRdi a n => decide (a < 2 ^ 32) && decide (n < 2 ^ 32)
  | .monWri a _ => decide (a < 2 ^ 32)
  | .monMb _ => true
  | .monTrace mask => decide (mask < 2048)
  | .monLedger _ first n => decide (first < 2 ^ 32) && decide (n < 2 ^ 32)
  | .monState => true
  | .monKey => true
  | .monBaud _ => true
  | .monBaudRevert => true
  | .jtagBypass _ => true
  | .jtagIdcode => true
  | .jtagSamplePreload _ _ => true
  | .jtagExtest => true
  | .mclkReturn => true
  | .pcieLinkUp => true
  | .configurationRequest => true
  | .illegalBundle sp _ => decide (sp < 40)

end Sys2Proof
end

