-- ==== Sys2Proof/Safety.lean ====
section
/-! DEFINITION. What the claims are stated in: the invariant every step keeps, when a slot of a spoke issues, and the results of the
datapath as the rules word them. -/

namespace Sys2Proof.Machine

/-! ### The invariant -/

/-- The parts that no command adds or takes away: eleven mailboxes (R31) of which two are network mailboxes (R57), eight event rings
(R107), eight recorder rings (R527) and forty spokes (00). -/
structure State.Shape (s : State) : Prop where
  mboxes : s.mbox.length = 11
  nmbs   : s.nmbs.length = 2
  rings  : s.rings.length = 8
  recs   : s.recs.length = 8
  spokes : s.spokes.length = 40

/-- The boundaries to come lie on the grid of R8. -/
structure State.Cadence (s : State) : Prop where
  sample : s.clk.nextSample % 512 = 0
  frame  : s.clk.nextFrame % 8192 = 0

/-- Every waiting command is well-formed. -/
def State.Queued (s : State) : Prop := ∀ c ∈ s.pending, c.wf = true

/-- The invariant of the block. -/
structure State.Inv (s : State) : Prop where
  shape   : s.Shape
  cadence : s.Cadence
  queued  : s.Queued

/-! ### Requests (02) -/

/-- A mailbox without a waiting response takes a request while STATE is SERVING (R39, R40). -/
structure Executes (s : State) (r : Request) : Prop where
  mb      : r.mb < 11
  free    : ∀ e ∈ s.svc.out, e.1 ≠ r.mb
  serving : s.serving = true

/-- The items a response carries (R43), and whether they fit a datagram on a network mailbox (R59). -/
def carried (r : Request) (items : List Item) : List Item := if r.quiet then [] else items
def Fits (r : Request) (items : List Item) : Prop := isNmb r.mb = true → replyWords (carried r items) ≤ 368

/-- The authorisation of R48: no network mailbox, the key present and the seal whole. -/
def Authorised (s : State) (r : Request) : Prop := isNmb r.mb = false ∧ s.maint.key = true ∧ s.maint.loop = true

/-- The state after a request with status OK that left `u`: its response waits, and the journal holds the firmware's memory before and
after it (R43, R516). -/
def answeredOk (s u : State) (r : Request) (opcode : Nat) (handle : Word) (items : List Item) (a : After) : State :=
  { u with svc := { u.svc with
      out := u.svc.out ++ [(r.mb, { opcode := opcode, quiet := r.quiet, seq := r.seq, handle := handle, detail := 0, status := 0,
                                    items := carried r items, after := a })],
      journal := some (r.mb, s.fw, u.fw) } }

/-- The state after a request that ends with a status other than OK (R52), which changed nothing. -/
def answeredFail (s : State) (r : Request) (opcode status detail : Nat) : State :=
  { s with svc := { s.svc with
      out := s.svc.out ++ [(r.mb, { opcode := opcode, quiet := r.quiet, seq := r.seq, handle := r.handle, detail := detail,
                                    status := status, items := [], after := .none })],
      journal := some (r.mb, s.fw, s.fw) } }

/-- The opcodes and their commands (R49). -/
def opcodes : List (Nat × (Request → Instr)) :=
  [(0x0001, .ping), (0x0002, .lookup), (0x0003, .release), (0x0010, .query), (0x0011, .read), (0x0020, .stage), (0x0021, .commit),
    (0x0022, .discard), (0x0030, .admitConfig), (0x0040, .sceneStore), (0x0041, .sceneRecall), (0x0050, .filterLoad),
    (0x0060, .eventRingSet), (0x0070, .ledgerRead), (0x0100, .fwBegin), (0x0101, .fwData), (0x0102, .fwEnd), (0x0110, .ledgerClear)]

/-- The request whose header words and items these are (R42). -/
def requestOf (mb : Nat) (h : List Word) (items : List Item) : Request :=
  { mb := mb, quiet := (h.getD 0 0).getLsbD 18, seq := h.getD 1 0, handle := h.getD 2 0, commitAt := h.getD 3 0, items := items }

/-- A response without items to the request whose header words these are (R43). -/
def headerOnly (h : List Word) (status detail : Nat) : Resp :=
  { opcode := fld (h.getD 0 0) 0 16, quiet := (h.getD 0 0).getLsbD 18, seq := h.getD 1 0, handle := h.getD 2 0, detail := detail,
    status := status, items := [], after := .none }

/-- The response joins those that wait to be written. -/
def waits (m : Nat) (p : Resp) (s : State) : State := { s with svc := { s.svc with out := s.svc.out ++ [(m, p)] } }

/-! ### The spokes (08) -/

/-- The slot `k` of the open bundle of spoke `sp` issues, and `o` is the core as it issues: the spoke runs bundles, the bundle issues
within the fence (R301, R302), and its slots write no register twice (R291). -/
def Issues (s : State) (sp : Nat) (k : SlotSpec) (o : Core) : Prop :=
  ∃ c, s.coreAt sp = some c ∧ c.runs = true ∧ o = openSlot k c ∧ pastFence o = false ∧ slotIllegal k o = false

/-- A slot of a load/store, MAC or control kind with these reads and writes. -/
def lsOf (reads : List (CReg × Bool)) (writes : List (CReg × Nat × Nat)) : SlotSpec := ⟨1, false, true, reads, writes⟩
def macOf (reads : List (CReg × Bool)) (writes : List (CReg × Nat × Nat)) : SlotSpec := ⟨2, false, true, reads, writes⟩
def ctlOf (reads : List (CReg × Bool)) (writes : List (CReg × Nat × Nat)) : SlotSpec := ⟨3, false, true, reads, writes⟩

/-- An exact result fits no 32-bit register (R275, R278). -/
def wordOver (z : Int) : Bool := decide (z < -(2 ^ 31) ∨ 2 ^ 31 ≤ z)

/-- An exact result in a 32-bit register: saturated with S, else modulo 2^32 (R275, R278). -/
def satWord (sat : Bool) (z : Int) : Word := BitVec.ofInt 32 (if sat then max (-(2 ^ 31)) (min (2 ^ 31 - 1) z) else z)

/-- An exact result fits no 72-bit accumulator, and what the accumulator then holds (R275). -/
def accOver (z : Int) : Bool := decide (z < -(2 ^ 71) ∨ 2 ^ 71 ≤ z)
def satAcc (sat : Bool) (z : Int) : Int := if sat then max (-(2 ^ 71)) (min (2 ^ 71 - 1) z) else Int.bmod z (2 ^ 72)

/-- What a MAC slot leaves that writes the exact result `z` to d[X]: OVR is sticky. -/
def aluDone (k : SlotSpec) (o : Core) (x : Nat) (sat : Bool) (z : Int) : Core :=
  noteWrites k { o with
    regs := { o.regs with d := o.regs.d.set x (satWord sat z), ovr := o.regs.ovr || wordOver z }, setR := o.setR || wordOver z }

/-- The same for a result that cannot overflow. -/
def movDone (k : SlotSpec) (o : Core) (x : Nat) (v : Word) : Core :=
  noteWrites k { o with regs := { o.regs with d := o.regs.d.set x v } }

/-- What a MAC slot leaves that adds the exact terms to accumulators: each from 0 with Z, OVA sticky. -/
def accDone (o : Core) (sat z : Bool) : List (Nat × Int) → Core
  | [] => o
  | (a, term) :: l =>
    let e := (if z then 0 else o.snap.ra a) + term
    accDone { o with
      regs := { o.regs with acc := o.regs.acc.set a (satAcc sat e), ova := o.regs.ova || accOver e }, setA := o.setA || accOver e }
      sat z l

end Sys2Proof.Machine
end

