-- ==== Sys2Proof/Certificates/Slice0/Obligations.lean ====
section
/-! DEFINITION. The statements about the block, from the numbered rules of the spec. -/

open Sys2Proof Sys2Proof.Machine

/-- A step is the command at the front of the queue, run on the queue's rest; with nothing waiting the block idles for one tick of the tally
(the model's choice, log 1), and OP_SECONDS counts a second of the tally while READY is high (R533). -/
def Obligations.CommandQueue : Prop :=
  ∀ (s : State),
    (∀ c rest, s.pending = c :: rest → step s = exec c { s with pending := rest })
    ∧ (s.pending = [] → step s = .next { s with
        clk := { s.clk with tally := s.clk.tally + 1 },
        ledg := { s.ledg with opSec := s.ledg.opSec + (s.ledg.opTicks + (if s.boot.ready then 1 else 0)) / 24576000,
                              opTicks := (s.ledg.opTicks + (if s.boot.ready then 1 else 0)) % 24576000 } })

/-- After reset the invariant holds, every memory is in its canonical form, every ring of a mailbox and every event ring is empty, ring 0 alone
takes events (R36, R111), the tally is 0, no pair serves, no error and no interrupt is recorded, both fault outputs are asserted, every
spoke is ACTIVE but the ninth of each wheel, which audits, and every pilot channel is off.
The model's own choices in it are log entries 15, 18 and 20. -/
def Obligations.ResetState : Prop :=
  ∀ s : State, s = State.reset →
    s.Inv
    ∧ (∀ m ∈ s.regs.msixTable :: s.regs.hubSram :: s.dram.normal :: s.bell.store :: (s.regs.tsram ++ s.dram.vaults
        ++ s.mbox.map Mbox.inRing ++ s.mbox.map Mbox.outRing ++ s.rings.map EvRing.words ++ s.spokes.map (fun p => p.core.sram)), Mem.wf m = true)
    ∧ (∀ b ∈ s.mbox, b.inWr = 0 ∧ b.inRd = 0 ∧ b.outWr = 0 ∧ b.outRd = 0 ∧ b.irqEn = false)
    ∧ (∀ e r, s.rings[e]? = some r → r.enable = (e == 0) ∧ r.mask = (if e = 0 then 0x0FFF else 0) ∧ r.size = 4096 ∧ r.irqEn = false
        ∧ r.wr = 0 ∧ r.rd = 0 ∧ r.lost = 0 ∧ r.eseq = 0 ∧ r.run = none)
    ∧ s.pending = [] ∧ s.clk.tally = 0 ∧ s.svc.state = 0 ∧ s.serving = false ∧ s.boot.ready = false
    ∧ s.regs.err = SysErr.reset ∧ s.regs.irqPend = 0 ∧ s.regs.irqMask = 0 ∧ s.fault.outA = true ∧ s.fault.outB = true
    ∧ (∀ k p, s.spokes[k]? = some p → p.role = if k % 10 = 9 then 2 else 0)
    ∧ (∀ p ∈ s.pilots, p.state = 0 ∧ p.on = false ∧ p.range = 0 ∧ p.hold = 0 ∧ p.low = 0 ∧ p.high = 65535 ∧ p.period = 480 ∧ p.div = 1)

/-- No command stops the block: each answers a next state, leaves the commands that wait behind it as they are, and never turns the tally
back but where PORST_N or a cold reset starts it at 0 (R10).
The model's own choices in it are log entries 1, 50 and 83 to 85. -/
def Obligations.EveryCommandCompletes : Prop :=
  (∀ (c : Instr) (s : State), s.Shape → ∃ t : State, exec c s = .next t ∧ t.pending = s.pending ∧ t.Shape
    ∧ (s.clk.tally ≤ t.clk.tally ∨ (t.clk.tally = 0 ∧ (c = .porstAssert ∨ ∃ h mon mclk, c = .coldReset h mon mclk))))
  ∧ ∀ s : State, ∃ t : State, step s = .next t ∧ t.pending = s.pending.tail

/-- Every step keeps the invariant: eleven mailboxes of which two are network mailboxes, eight event rings, eight recorder rings and forty
spokes, the boundaries to come on the grid of R8, and well-formed commands waiting. -/
def Obligations.StepKeepsInvariant : Prop :=
  ∀ s t : State, s.Inv → step s = .next t → t.Inv

/-- R44, R45, R65, R66: items read back from their words, text from its value words, and a node from its path; a path below /tandem names a
stage instance where the configuration has a stage there. -/
def Obligations.MessageEncoding : Prop :=
  (∀ (is : List Item) (off : Nat), (∀ i ∈ is, i.wf = true) → parseItems (itemWords is).length off (itemWords is) = .ok is)
  ∧ (∀ txt : Name, (∀ c ∈ txt, 1 ≤ c ∧ c < 256) → textOf (packText txt) = some txt)
  ∧ (∀ (c : Cfg) (n : Node), n.wf = true →
      (∀ p, n = .tandem p → p ≠ [] ∧ stageIn c p = none) → (∀ p, n = .inst p → p ≠ [] ∧ stageIn c p ≠ none) →
      nodeAtPath c (pathOf n) = some n)

/-- R103 to R105, R108 to R110: the words of a record; a ring that is disabled or masks the group does not take it; otherwise ESEQ counts
it, and it is written whole where it fits, after the EVENTS_LOST record where records were lost, or it is lost, counted in LOST and in the
run of lost records; every ring word outside the record reads as before, and vector 8 + e is raised where the ring asks for it. R111: what
the rings take at reset. -/
def Obligations.EventRings : Prop :=
  (∀ (s : State) (e : Event) (q : Nat) (w : List Word), w = e.words s q → e.code < 65536 → e.source < 16 → e.cls < 4 → w.length < 4096 →
    fld (w.getD 0 0) 20 12 = w.length ∧ fld (w.getD 0 0) 16 4 = e.code / 4096 ∧ fld (w.getD 0 0) 0 16 = e.code ∧ w.getD 1 0 = wd q
    ∧ w.getD 2 0 = wd e.stamp ∧ w.getD 3 0 = wd (e.stamp / 2 ^ 32) ∧ w.getD 4 0 = (e.node.map (handleOf s)).getD 0
    ∧ (∀ j, [StampKind.boundary, .detect, .block, .teller][j]? = some e.kind → fld (w.getD 5 0) 28 4 = j)
    ∧ fld (w.getD 5 0) 24 4 = e.source ∧ fld (w.getD 5 0) 22 2 = e.cls ∧ fld (w.getD 5 0) 16 6 = 0 ∧ fld (w.getD 5 0) 0 16 = e.detail % 65536
    ∧ w.drop 6 = itemWords e.items)
  ∧ (∀ (s : State) (e : Event) (k : Nat) (r : EvRing) (appended : List Word → EvRing → Prop), k < 8 → s.rings[k]? = some r →
    appended = (fun ws t => t.wr = (r.wr + ws.length) % (2 * r.size)
      ∧ (∀ i, i < ws.length → t.words.word (4 * ((r.wr + i) % r.size)) = ws.getD i 0)
      ∧ ∀ p, p < r.size → (∀ i, i < ws.length → p ≠ (r.wr + i) % r.size) → t.words.word (4 * p) = r.words.word (4 * p)) →
    ∃ t : EvRing, (raiseEvent e s).rings[k]? = some t
      ∧ t.mask = r.mask ∧ t.log2S = r.log2S ∧ t.enable = r.enable ∧ t.irqEn = r.irqEn ∧ t.rd = r.rd ∧ t.rdErr = r.rdErr
      ∧ ((r.enable = false ∨ r.mask.testBit (e.code / 4096) = false) → t = r)
      ∧ (r.enable = true → r.mask.testBit (e.code / 4096) = true → ∀ ws, ws = e.words s r.eseq →
        t.eseq = (r.eseq + 1) % 2 ^ 32
        ∧ (r.run = none → ws.length ≤ r.space → appended ws t ∧ t.run = none ∧ t.lost = r.lost
          ∧ (r.irqEn = true → (raiseEvent e s).regs.irqPend.getLsbD (8 + k) = true))
        ∧ (r.run = none → r.space < ws.length →
          t = { r with eseq := (r.eseq + 1) % 2 ^ 32, lost := Nat.min (r.lost + 1) 65535, run := some (r.eseq, 1) })
        ∧ (∀ f n, r.run = some (f, n) → r.space < 6 →
          t = { r with eseq := (r.eseq + 1) % 2 ^ 32, lost := Nat.min (r.lost + 1) 65535, run := some (f, n + 1) })
        ∧ (∀ f n lw left, r.run = some (f, n) → 6 ≤ r.space → lw = (lostEvent s n).words s f →
          left = ({ r with wr := (r.wr + 6) % (2 * r.size) } : EvRing).space →
          lw.length = 6 ∧ (r.irqEn = true → (raiseEvent e s).regs.irqPend.getLsbD (8 + k) = true)
          ∧ (ws.length ≤ left → ws.length + 6 ≤ r.size → appended (lw ++ ws) t ∧ t.run = none ∧ t.lost = r.lost)
          ∧ (left < ws.length → appended lw t ∧ t.run = some (r.eseq, 1) ∧ t.lost = Nat.min (r.lost + 1) 65535))))
  ∧ ∀ e r, State.reset.rings[e]? = some r → r.enable = (e == 0) ∧ r.mask = (if e = 0 then 0x0FFF else 0) ∧ r.size = 4096 ∧ r.irqEn = false

/-- R10, R36, R493 to R495, R505: PORST_N low puts everything in its reset state and the tally to 0; a cold reset samples the straps and
chooses the clock; a warm reset and the boot watchdog keep the tally and the straps; each loses the mailbox indices, handles, escrow, armed
commits, the admission and the DRAM, and the watchdog marks the running image.
The model's own choices in it are log entries 83 to 85. -/
def Obligations.Resets : Prop :=
  ∀ (s : State) (fresh : State → Prop),
    fresh = (fun t => t.svc = Svc.reset ∧ t.fw = Fw.reset ∧ t.armed = [] ∧ t.adm = Adm.reset ∧ t.boot.ready = false ∧ t.feeds = [] ∧ t.chans = []
      ∧ t.dram = { Dram.reset with density := s.dram.density } ∧ ∀ b ∈ t.mbox, b.inWr = 0 ∧ b.inRd = 0 ∧ b.outWr = 0 ∧ b.outRd = 0) →
    (∃ t : State, exec .porstAssert s = .next t ∧ fresh t ∧ t.clk.tally = 0 ∧ t.boot.porst = true ∧ t.bell = Bell.reset ∧ t.fault.outA = true ∧ t.fault.outB = true)
    ∧ (∀ h mon mclk, h < 4 → s.boot.porst = false → ∃ t : State, exec (.coldReset h mon mclk) s = .next t ∧ fresh t ∧ t.boot.porst = false
      ∧ t.boot.hostStrap = h ∧ t.boot.monStrap = mon ∧ t.clk.tally = 0 ∧ t.clk.mclkPresent = mclk ∧ t.clk.onHoldover = !mclk ∧ t.clk.holdover = !mclk
      ∧ t.flash.failed = [false, false] ∧ t.ledg.resets = (s.ledg.resets + 1) % 65536)
    ∧ (∀ c, s.boot.porst = false → ∃ t : State, exec (.warmReset c) s = .next t ∧ fresh t ∧ t.clk.tally = s.clk.tally ∧ t.clk.holdover = s.clk.holdover
      ∧ t.boot.hostStrap = s.boot.hostStrap ∧ t.boot.monStrap = s.boot.monStrap ∧ t.flash.failed = s.flash.failed
      ∧ t.ledg.resets = (s.ledg.resets + 1) % 65536)
    ∧ (∀ c, s.boot.porst = true → exec (.warmReset c) s = .next s)
    ∧ (∀ a, s.boot.jumpAt = some a → s.boot.served = false → ∃ t : State, exec .bootWatchdogExpire s = .next t ∧ fresh t ∧ t.clk.tally = s.clk.tally
      ∧ t.flash.failed = s.flash.failed.set s.boot.image true ∧ t.boot.hostStrap = s.boot.hostStrap)

/-- R412, R488, R489, R503, R504: DRAM bring-up leaves zeros at MAX_SP; the first SERVING after a reset switches on HUB and the wheels and
raises READY with pair A ACTIVE and pair B STANDBY; a wheel without ACTIVE and AUDIT spokes, and NET without a MAC, are switched off and
lose their state, at a frame boundary while the pipeline
runs; a wheel switched on starts from its reset state.
The model's own choices in it are log entries 83 and 86. -/
def Obligations.BringUp : Prop :=
  ∀ (s : State),
    (∀ ok0 ok1 (c0 c1 : DramCh), s.boot.domains.testBit 7 = true → s.dram.ready = false → s.dram.channels = [c0, c1] →
      exec (.dramBringupDone ok0 ok1) s = .next { s with
        dram := { s.dram with ready := true, sp := s.boot.dramCfg.maxSp, spNext := none, normal := [], vaults := [[], []],
                              channels := [if ok0 then c0 else { c0 with failing := some 1 }, if ok1 then c1 else { c1 with failing := some 1 }] },
        plan := { s.plan with sp := s.boot.dramCfg.maxSp } })
    ∧ (∀ a p q, s.boot.jumpAt = some a → s.boot.served = false → s.svc.state = 0 → s.dram.ready = true → s.fault.pairs = [p, q] →
      p.marked = false → q.marked = false → s.flash.cfgs = [none, none] →
      ∃ t : State, exec .firstServing s = .next t ∧ t.svc = { s.svc with state := 1, pair := 0 } ∧ t.fault.active = 0
        ∧ t.fault.pairs = [{ p with state := 1, beat := s.clk.tally }, { q with state := 2 }]
        ∧ t.boot = { s.boot with domains := (BitVec.ofNat 32 s.boot.domains ||| 0x7C#32).toNat, served := true, ready := true, readyAt := s.clk.tally }
        ∧ t.clk = { s.clk with nextSample := (s.clk.tally + 511) / 512 * 512, nextFrame := (s.clk.tally + 8191) / 8192 * 8192 }
        ∧ t.pending = s.pending ∧ t.fw = s.fw ∧ t.dram = s.dram)
    ∧ (∀ x dom, s.serving = true → s.clk.tally % 8192 = 0 → x = closeFrame s → s.boot.domains.testBit dom = true →
      (2 ≤ dom → dom ≤ 5 → (∀ i, i < 10 → spokeRole s (10 * (dom - 2) + i) ≠ 0 ∧ spokeRole s (10 * (dom - 2) + i) ≠ 2) →
        exec (.domainSwitch dom false) s = .next { x with
          boot := { x.boot with domains := (BitVec.ofNat 32 x.boot.domains &&& ~~~BitVec.ofNat 32 (2 ^ dom)).toNat },
          spokes := x.spokes.zipIdx.map fun e => if e.2 / 10 = dom - 2 ∧ e.1.role ≠ 3 then { SpokeSt.reset e.2 with role := 4 } else e.1 })
      ∧ (dom = 8 → (∀ n, n < 4 → macAdmitted s n = false ∧ macBoot s n = false) →
        exec (.domainSwitch dom false) s = .next { x with
          boot := { x.boot with domains := (BitVec.ofNat 32 x.boot.domains &&& ~~~BitVec.ofNat 32 (2 ^ 8)).toNat },
          net := { x.net with macs := List.replicate 4 Mac.reset } })
      ∧ (dom = 0 ∨ dom = 1 ∨ dom = 6 ∨ dom = 7 ∨ dom = 9 → exec (.domainSwitch dom false) s = .next s)
      ∧ exec (.domainSwitch dom true) s = .next s)
    ∧ (∀ x dom, (s.serving = true → s.clk.tally % 8192 = 0) → x = closeFrame s → s.boot.domains.testBit dom = false → s.boot.jumpAt.isSome = true →
      2 ≤ dom → dom ≤ 5 → exec (.domainSwitch dom true) s = .next { x with
        boot := { x.boot with domains := (BitVec.ofNat 32 x.boot.domains ||| BitVec.ofNat 32 (2 ^ dom)).toNat },
        spokes := x.spokes.zipIdx.map fun e => if e.2 / 10 = dom - 2 ∧ e.1.role ≠ 3 then SpokeSt.reset e.2 else e.1 })
    ∧ (∀ dom on, s.serving = true → s.clk.tally % 8192 ≠ 0 → exec (.domainSwitch dom on) s = .next s)

/-- R11, R38, R456, R468, R471 to R473, R480: a register is written whole, and read with the effect of its read; a narrow write of the host
window is ignored, an access that is not aligned gets an error response and changes only what records it, and the write index of a host
DMA queue follows the index rule.
The model's own choices in it are log entries 72 and 74. -/
def Obligations.RegisterAccess : Prop :=
  ∀ (s : State) (m : Master) (base : Nat), hostOn s m = true → base = (if m = .tellerA ∨ m = .tellerB then 0x10000000 else 0) →
    (∀ v, exec (.registerWrite m (base + 0x54) 4 v) s = .next { s with regs := { s.regs with irqMask := BitVec.ofNat 32 v } })
    ∧ (exec (.sysTallyLoRead m) s = .next { s with regs := { s.regs with
        tallyHi := s.regs.tallyHi.set (masterCode m) (BitVec.ofNat 32 (s.clk.tally / 2 ^ 32)), readData := [some (BitVec.ofNat 32 s.clk.tally)] } })
    ∧ (exec (.rcRead m (base + 0x50) 4) s = .next { s with regs := { s.regs with irqPend := 0#32, readData := [some s.regs.irqPend] } })
    ∧ (∀ size off, size = 1 ∨ size = 2 → off < 4 → off % size = 0 →
      exec (.rcRead m (base + 0x54 + off) size) s = .next { s with regs := { s.regs with
        readData := [some (BitVec.ofNat 32 (s.regs.irqMask.toNat / 2 ^ (8 * off) % 2 ^ (8 * size)))] } })
    ∧ (∀ size off v, size = 1 ∨ size = 2 → off < 0x100000 → off % size = 0 →
      exec (.registerWrite m (base + off) size v) s = .next { s with regs := { s.regs with err := { s.regs.err with accErr := true } } })
    ∧ (∀ size a v, (size = 2 ∧ a % 2 ≠ 0) ∨ (0 < size ∧ size % 4 = 0 ∧ a % 4 ≠ 0) →
      ∃ t : State, exec (.registerWrite m a size v) s = .next t
        ∧ t = { s with regs := { s.regs with
            err := { s.regs.err with busErr := true }, irqPend := t.regs.irqPend, busValid := true, busAddr := t.regs.busAddr, busInfo := t.regs.busInfo,
            msixPba := t.regs.msixPba } }
        ∧ (s.regs.err.busErr = false → t.regs.irqPend = s.regs.irqPend ||| BitVec.ofNat 32 (2 ^ 22))
        ∧ (s.regs.busValid = true → t.regs.busAddr = s.regs.busAddr ∧ t.regs.busInfo = s.regs.busInfo)
        ∧ (s.regs.busValid = false → a < 2 ^ 24 → t.regs.busAddr = BitVec.ofNat 32 a ∧ t.regs.busInfo = BitVec.ofNat 32 (2 * 256 + 16 + masterCode m)))
    ∧ (∀ q h v, s.regs.hd[q]? = some h → 4 ≤ h.k → h.k ≤ 12 → h.wr < 2 ^ (h.k + 1) → h.rd < 2 ^ (h.k + 1) → v < 2 ^ (h.k + 1) →
      ((v + 2 ^ (h.k + 1) - h.rd) % 2 ^ (h.k + 1) ≤ 2 ^ h.k → (h.wr + 2 ^ (h.k + 1) - h.rd) % 2 ^ (h.k + 1) ≤ (v + 2 ^ (h.k + 1) - h.rd) % 2 ^ (h.k + 1) →
        exec (.hubHdWrWrite q (BitVec.ofNat 32 v)) s = .next { s with regs := { s.regs with hd := s.regs.hd.set q { h with wr := v } } })
      ∧ (2 ^ h.k < (v + 2 ^ (h.k + 1) - h.rd) % 2 ^ (h.k + 1) → exec (.hubHdWrWrite q (BitVec.ofNat 32 v)) s = .next s))

/-- R470, R475: a paired register takes its value from the second write of a pair, by the master of the first, within the window, with the
bitwise complement; a pair that is late, wrong or another's is discarded and sets PAIR_ERR; a key-gated one without the key sets KEY_ERR.
The model's own choices in it are log entry 76. -/
def Obligations.PairedWrites : Prop :=
  ∀ (s : State) (m : Master) (a : Nat) (v : Word) (others : List PairHalf) (write : Nat → Word → Instr) (s' : State),
    hostOn s m = true → a ∈ [0x60, 0x68, 0x70, 0xA008, 0xF008] → (a = 0x60 ∨ a = 0x70 → m = .tellerA ∨ m = .tellerB) →
    others = s.regs.halves.filter (fun h => h.off ≠ a) →
    write = (fun a => if a = 0x60 then .sysRemapWrite m else if a = 0x68 then .sysBar2BaseWrite m else if a = 0x70 then .sysDramWinBaseWrite m
      else if a = 0xA008 then .bellSwtrigWrite m else .aonFaultTestWrite m) →
    s' = { s with regs := { s.regs with halves := others } } →
    ((∀ h ∈ s.regs.halves, h.off ≠ a) → exec (.pairedWriteHalf m a v) s = .next { s with regs := { s.regs with
        halves := { off := a, master := m, value := v, at_ := s.clk.tally } :: others } })
    ∧ ((∃ h ∈ s.regs.halves, h.off = a) → exec (.pairedWriteHalf m a v) s = .next { s with regs := { s.regs with
        halves := { off := a, master := m, value := v, at_ := s.clk.tally } :: others, err := { s.regs.err with pairErr := true } } })
    ∧ ((∃ h ∈ s.regs.halves, h.off = a) → exec (.pairWindowExpire a) s = .next { s' with regs := { s'.regs with err := { s.regs.err with pairErr := true } } })
    ∧ ((∀ h ∈ s.regs.halves, h.off ≠ a) →
      exec (write a v) s = .next { s with regs := { s.regs with err := { s.regs.err with pairErr := true } } })
    ∧ (∀ h, s.regs.halves.find? (fun h => h.off = a) = some h →
      (h.master ≠ m ∨ v ≠ ~~~h.value ∨ h.at_ + 3 < s.clk.tally →
        exec (write a v) s = .next { s' with regs := { s'.regs with err := { s.regs.err with pairErr := true } } })
      ∧ (h.master = m → v = ~~~h.value → s.clk.tally ≤ h.at_ + 3 →
        (a = 0x60 → exec (write a v) s = .next { s' with regs := { s'.regs with remap := h.value &&& 3#32 } })
        ∧ (a = 0x68 → exec (write a v) s = .next { s' with regs := { s'.regs with bar2Base := h.value &&& 0x3F#32 } })
        ∧ (a = 0x70 → exec (write a v) s = .next { s' with regs := { s'.regs with dramWin := h.value &&& 0x3F#32 } })
        ∧ (a = 0xA008 → exec (write a v) s = .next (bellLookAll { s' with bell := { s.bell with sw := h.value &&& 15#32 } }))
        ∧ (a = 0xF008 → s.maint.key = true → s.maint.loop = true → 
          exec (write a v) s = .next (settleFaults { s' with fault := { s.fault with test := h.value &&& 3#32 } }))
        ∧ (a = 0xF008 → s.maint.key = false → s.maint.loop = true →
          exec (write a v) s = .next { s' with regs := { s'.regs with err := { s.regs.err with keyErr := true } } })))

/-- R459 to R465, R479: over SPI one word is written or read exactly as the same access of the SPI master, when the header and the data pass
their checks; else nothing is read or written and the error is kept for STATUS, which clears it.
The model's own choices in it are log entry 79. -/
def Obligations.SpiTransactions : Prop :=
  ∀ (s : State) (cmd a2 a1 a0 b0 b1 b2 b3 hcrc dcrc : Byte) (addr : Nat) (head bytes : List Byte) (fixed : Bool) (done : Nat → List Byte → State → State),
    hostOn s .spi = true → addr = a2.toNat * 65536 + a1.toNat * 256 + a0.toNat → head = [cmd, 0#8, a2, a1, a0, hcrc] →
    bytes = head ++ [b0, b1, b2, b3, dcrc] → done = (fun st out u => { u with regs := { u.regs with spiStat := st, spiOut := out } }) →
    (cmd = (if fixed then 0x12#8 else 0x02#8) → addr % 4 = 0 → hcrc = crc8 (head.take 5) →
      (dcrc = crc8 [b0, b1, b2, b3] → ∃ u : State, exec (.registerWrite .spi addr 4 (wordOfBytes b0 b1 b2 b3).toNat) s = .next u
        ∧ ∃ st, exec (if fixed then .spiWriteFixed bytes else .spiWrite bytes) s = .next (done st [] u)
          ∧ (u.regs.err.busErr = false → st = (1 ||| u.regs.spiStat / 2 * 2)))
      ∧ (dcrc ≠ crc8 [b0, b1, b2, b3] → exec (if fixed then .spiWriteFixed bytes else .spiWrite bytes) s =
          .next (done (s.regs.spiStat / 2 * 2 ||| 2) [] s)))
    ∧ (cmd = (if fixed then 0x13#8 else 0x03#8) →
      (addr % 4 = 0 → hcrc = crc8 (head.take 5) → ∃ u : State, ∃ r l, exec (.rcRead .spi addr 4) s = .next u ∧ u.regs.readData = [r]
        ∧ exec (if fixed then .spiReadFixed head else .spiRead head) s = .next
          (done (if r = none then u.regs.spiStat / 2 * 2 ||| 8 else 1 ||| u.regs.spiStat / 2 * 2)
            (0xA5#8 :: bytesOf (r.getD 0xFFFFFFFF#32) ++ [crc8 (bytesOf (r.getD 0xFFFFFFFF#32))])
            { u with regs := { u.regs with readData := l } }))
      ∧ (addr % 4 = 0 → hcrc ≠ crc8 (head.take 5) →
        exec (if fixed then .spiReadFixed head else .spiRead head) s = .next (done (s.regs.spiStat / 2 * 2 ||| 2) [0xE1#8] s))
      ∧ (hcrc ≠ crc8 (head.take 5) → addr % 4 = 0 → (∀ h ∈ s.regs.halves, h.master ≠ .spi) →
        ∃ t : State, exec (.spiReadAbandon head) s = .next t ∧ t = done (s.regs.spiStat / 2 * 2 ||| 2) []
          { s with regs := { s.regs with ind := s.regs.ind.set 3 IndBank.reset } }))
    ∧ (exec .spiStatus s = .next (done (s.regs.spiStat % 2)
        [BitVec.ofNat 8 (s.regs.spiStat + if s.regs.irqPend &&& s.regs.irqMask = 0#32 then 0 else 16)] s))

/-- R454, R458, R476, R477, R480, R481, R506: a snapshot copies all counters of the selected MACs in one tick; an indirect access makes the
access and moves the address on; a descriptor that breaks the table is rejected and stops its queue; PCIe resets touch only the endpoint.
The model's own choices in it are log entries 73, 74 and 82. -/
def Obligations.HostEngines : Prop :=
  ∀ (s : State),
    (∀ n x v, n < 4 → v = BitVec.ofNat 32 (2 ^ n) → s.net.macs[n]? = some x → s.regs.snapUntil ≤ s.clk.tally →
      (s.boot.domains.testBit 8 = true → exec (.sysSnapshotWrite v) s = .next { s with
        net := { s.net with macs := s.net.macs.set n { x with hold := x.cnt, holdTick := s.clk.tally } },
        regs := { s.regs with snapUntil := s.clk.tally + 1 } })
      ∧ (s.boot.domains.testBit 8 = false → exec (.sysSnapshotWrite v) s = .next { s with regs := { s.regs with snapOff := s.regs.snapOff ||| 2 ^ n } }))
    ∧ (∀ v, s.clk.tally < s.regs.snapUntil →
      exec (.sysSnapshotWrite v) s = .next { s with regs := { s.regs with err := { s.regs.err with snapLost := true } } })
    ∧ (∀ m b v, hostOn s m = true → s.regs.ind[masterCode m]? = some b → b.addr = 0x03000010#32 → s.boot.domains.testBit 8 = true →
      (∀ x, s.net.macs[0]? = some x → exec (.sysIndDataAccess m true v) s = .next { s with
        net := { s.net with macs := s.net.macs.set 0 { x with halfEn := v } },
        regs := { s.regs with ind := s.regs.ind.set (masterCode m) { b with addr := 0x03000014#32 } } })
      ∧ (∀ x, s.net.macs[0]? = some x → exec (.sysIndDataAccess m false v) s = .next { s with
        regs := { s.regs with ind := s.regs.ind.set (masterCode m) { b with addr := 0x03000014#32 }, readData := [some x.halfEn] } }))
    ∧ (∀ m b v, hostOn s m = true → s.regs.ind[masterCode m]? = some b → b.addr.toNat < 0x02000000 →
      exec (.sysIndDataAccess m false v) s = .next { s with regs := { s.regs with
        ind := s.regs.ind.set (masterCode m) { b with addr := b.addr + 4#32, undec := true }, readData := [some 0#32] } })
    ∧ (∀ q h lo hi len w3, q < 8 → s.regs.hd[q]? = some h → h.enable = true → h.cur = none → 4 ≤ h.k → h.k ≤ 12 →
      h.wr < 2 ^ (h.k + 1) → h.rd < 2 ^ (h.k + 1) → h.wr ≠ h.rd → len.toNat < 64 ∨ 65536 < len.toNat ∨ len.toNat % 64 ≠ 0 ∨ lo.toNat % 64 ≠ 0 →
      ∃ t : State, exec (.hostDmaDescriptor q [lo, hi, len, w3]) s = .next t
        ∧ t = { s with regs := { s.regs with
            hd := s.regs.hd.set q { h with rd := (h.rd + 1) % 2 ^ (h.k + 1), cur := none, enable := false },
            hdDone := (BitVec.ofNat 32 s.regs.hdDone ||| BitVec.ofNat 32 (2 ^ q)).toNat, irqPend := s.regs.irqPend ||| BitVec.ofNat 32 (2 ^ 21),
            msixPba := t.regs.msixPba, hostWrites := t.regs.hostWrites } })
    ∧ (∀ q h lo hi len w3, q < 8 → s.regs.hd[q]? = some h → h.enable = true → h.cur = none → 4 ≤ h.k → h.k ≤ 12 →
      h.wr < 2 ^ (h.k + 1) → h.rd < 2 ^ (h.k + 1) → h.wr ≠ h.rd → 64 ≤ len.toNat → len.toNat ≤ 65536 → len.toNat % 64 = 0 → lo.toNat % 64 = 0 →
      (s.recs.getD q RecRing.reset).recs = [] →
      exec (.hostDmaDescriptor q [lo, hi, len, w3]) s = .next { s with regs := { s.regs with
        hd := s.regs.hd.set q { h with cur := some { addr := lo.toNat + hi.toNat * 2 ^ 32, len := len.toNat, irq := w3.getLsbD 27, fill := 0 } } } })
    ∧ (∀ cause b, s.regs.ind[2]? = some b → (∀ h ∈ s.regs.halves, h.master ≠ .pcie) → s.dram.ports = [] →
      (∀ e ∈ s.dram.entries, e.req = 42 ∨ e.req = 43 → e.write = true) →
      exec (.pcieReset cause) s = .next { s with
        regs := { s.regs with ind := s.regs.ind.set 2 IndBank.reset, msixTable := msixReset, msixPba := 0#32 },
        boot := { s.boot with pcieLink := if cause = .flr then s.boot.pcieLink else false } })
    ∧ (s.boot.hostStrap = 0 ∨ s.boot.hostStrap = 2 →
      exec .configurationRequest s = .next { s with boot := { s.boot with crs := !s.boot.cfgRead } }
      ∧ (s.boot.domains.testBit 9 = true → exec .pcieLinkUp s = .next { s with boot := { s.boot with pcieLink := true } }))

/-- R474, R475, R544, R552 to R554: the monitor takes a command out of reset and after the last line of the one before, and ends it with one
line. Reads need nothing; writes need the key and the seal: without them nothing is written, AUTH_REFUSED is recorded and the line shows
why; with them MONITOR_WRITE is recorded and the write is made as the active pair.
The model's own choices in it are log entry 88. -/
def Obligations.MonitorAccess : Prop :=
  ∀ (s : State) (m : Master) (base : State) (shows : List (List Word) → State → State),
    m = (if s.fault.active = 1 then .tellerB else .tellerA) → s.boot.porst = false → s.maint.awaiting = false →
    base = { s with maint := { s.maint with baudAt := none } } →
    shows = (fun ls u => { u with maint := { u.maint with lines := (ls.reverse ++ u.maint.lines).take 256 } }) →
    (∀ r w t, r < 0x100000 → r % 4 = 0 → regRead m r base = some (w, t) →
      exec (.monRd (0x10000000 + r) 1) s = .next (shows [[3#32, BitVec.ofNat 32 (0x10000000 + r), w], [0#32]] t))
    ∧ (∀ a n, a % 4 ≠ 0 → exec (.monRd a n) s = .next (shows [[1#32, 4#32]] (refuse m a 2 false base)))
    ∧ (∀ c why, (∃ a v, c = .monWr a v ∨ c = .monWrp a v ∨ c = .monWri a v ∨ ∃ n, c = .monFill a n v) → s.boot.jumpAt ≠ none →
      (s.maint.key = false ∧ why = 1 ∨ s.maint.key = true ∧ s.maint.loop = false ∧ why = 2) →
      exec c s = .next (shows [[1#32, BitVec.ofNat 32 (1 + why)]] (raiseNode 0xB003 .teller s.clk.tally none 10 why [] base)))
    ∧ (∀ u v, s.boot.jumpAt ≠ none → s.maint.key = true → s.maint.loop = true → u = raiseNode 0xB007 .teller s.clk.tally none 10 0 [] base →
      (∀ h ∈ u.regs.halves, h.master ≠ m) →
      exec (.monWr 0x10000054 v) s = .next (shows [[0#32]] { u with regs := { u.regs with irqMask := v } })
      ∧ exec (.monFill 0x10000054 1 v) s = exec (.monWr 0x10000054 v) s
      ∧ (∀ p, p + 8 ≤ 0x2000000 → p % 4 = 0 → u.boot.domains.testBit 6 = true → exec (.monFill (0x20000000 + p) 2 v) s =
          .next (shows [[0#32]] { u with regs := { u.regs with hubSram := (u.regs.hubSram.putWord p v).putWord (p + 4) v } }))
      ∧ ((∀ h ∈ u.regs.halves, h.off ≠ 0x68) →
        exec (.monWrp 0x10000068 v) s = .next (shows [[0#32]] { u with regs := { u.regs with bar2Base := v &&& 0x3F#32 } }))
      ∧ (∀ x, u.boot.domains.testBit 8 = true → u.net.macs[0]? = some x → u.regs.mind.off = false →
        exec (.monWri 0x03000010 v) s = .next (shows [[0#32]] { u with
          net := { u.net with macs := u.net.macs.set 0 { x with halfEn := v } },
          regs := { u.regs with mind := { u.regs.mind with addr := 0x03000014#32 } } })))
    ∧ (∀ x, s.boot.domains.testBit 8 = true → s.net.macs[0]? = some x → s.regs.mind.off = false →
      exec (.monRdi 0x03000010 1) s = .next (shows [[3#32, 0x03000010#32, x.halfEn], [0#32]]
        { base with regs := { base.regs with mind := { base.regs.mind with addr := 0x03000014#32 } } }))

/-- R551 to R553, R565: the other commands of the monitor: messages, traces, ledgers, state, key and rate; a change of rate that no line
follows for 10 s is undone; a command that comes before the last line of the one before is not taken; and the instructions of JTAG.
The model's own choices in it are log entries 88 and 89. -/
def Obligations.MonitorLines : Prop :=
  ∀ (s : State) (base : State) (shows : List (List Word) → State → State),
    base = { s with maint := { s.maint with baudAt := none } } →
    shows = (fun ls u => { u with maint := { u.maint with lines := (ls.reverse ++ u.maint.lines).take 256 } }) →
    (s.boot.porst = false → s.maint.awaiting = false →
      (∀ mask, mask < 2048 → exec (.monTrace mask) s = .next (shows [[0#32]] { base with maint := { base.maint with trace := mask } }))
      ∧ (exec .monKey s = .next (shows [[7#32, if s.maint.key then 1#32 else 0#32, if s.maint.loop then 1#32 else 0#32, BitVec.ofNat 32 s.maint.matched], [0#32]] base))
      ∧ (∀ rec, s.boot.jumpAt = none → s.ledg.margins.getLast? = some rec → exec .monState s = .next (shows [6#32 :: rec, [0#32]] base))
      ∧ (∀ a rec, s.boot.jumpAt = some a → s.ledg.margins.getLast? = some rec → exec .monState s = .next (shows
          [6#32 :: BitVec.ofNat 32 s.plan.vcore :: BitVec.ofNat 32 s.clk.mhz :: BitVec.ofNat 32 s.dram.sp :: BitVec.ofNat 32 s.plan.scale ::
            BitVec.ofNat 32 s.plan.retrain :: BitVec.ofNat 32 s.ladder.pos :: rec, [0#32]] base))
      ∧ (∀ margin first n, (∀ e ∈ ledgerHeld s margin, e.1 < first ∨ first + n ≤ e.1) → exec (.monLedger margin first n) s = .next (shows [[0#32]] base))
      ∧ (∀ e, s.ledg.events = [e] → exec (.monLedger false e.num 1) s = .next (shows [5#32 :: e.words, [0#32]] base))
      ∧ (∀ rate, rate ∈ [115200, 230400, 460800, 921600, 1000000, 2000000, 3000000] →
        exec (.monBaud rate) s = .next (shows [[0#32]] { base with maint := { base.maint with baud := rate, baudAt := some s.clk.tally } }))
      ∧ (∀ rate, rate ∉ [115200, 230400, 460800, 921600, 1000000, 2000000, 3000000] → exec (.monBaud rate) s = .next (shows [[1#32, 1#32]] base))
      ∧ (∀ w ws, s.svc.state ≠ 1 → exec (.monMb (w :: ws)) s = .next (shows [4#32 :: (headerOnly (w :: ws) 0x13 0).words, [0#32]] base))
      ∧ (∀ w ws b, s.svc.state = 1 → s.mbox[10]? = some b → (b.inWr + 2048 - b.inRd) % 2048 + ws.length + 1 ≤ 1024 →
        ∃ at_, exec (.monMb (w :: ws)) s = .next { base with
          maint := { base.maint with awaiting := true },
          mbox := s.mbox.set 10 { b with inRing := ringPut 1024 b.inRing b.inWr (w :: ws), inWr := (b.inWr + ws.length + 1) % 2048, headAt := at_ } }))
    ∧ (s.maint.awaiting = true → ∀ c, (c = .monKey ∨ c = .monState ∨ (∃ r, c = .monBaud r) ∨ (∃ m, c = .monTrace m) ∨ (∃ ws, c = .monMb ws)
        ∨ ∃ a n, c = .monRd a n) → exec c s = .next s)
    ∧ (∀ b, s.maint.baudAt = some b → b + 10 * 24576000 ≤ s.clk.tally →
      exec .monBaudRevert s = .next { s with maint := { s.maint with baud := 115200, baudAt := none } })
    ∧ (∀ tdi, exec (.jtagBypass tdi) s = .next { s with maint := { s.maint with jtagIr := 0, tdo := (false :: tdi).take tdi.length, pins := [] } })
    ∧ (∃ t : State, exec .jtagIdcode s = .next t ∧ t = { s with maint := { s.maint with jtagIr := 1, tdo := t.maint.tdo, pins := [] } }
      ∧ t.maint.tdo.length = 32 ∧ ∀ i, i < 32 → t.maint.tdo[i]? = some ((0x1102456B#32).getLsbD i))
    ∧ (∀ pins cells, exec (.jtagSamplePreload pins cells) s = .next { s with maint := { s.maint with jtagIr := 2, tdo := pins, pins := [], cells := cells } })
    ∧ (exec .jtagExtest s = .next { s with maint := { s.maint with jtagIr := 3, pins := s.maint.cells } })

/-- R33, R38, R112: a write of a doorbell moves the index when it only posts words or frees words that were written, and is ignored and
marked otherwise; the same for the read index of an event ring. Nothing else of the machine changes. -/
def Obligations.MailboxDoorbells : Prop :=
  ∀ (s : State) (v : Word),
    (∀ m b, m < 8 → s.mbox[m]? = some b →
      (∀ n, n = v.toNat % 2048 →
        ((n + 2048 - b.inRd) % 2048 ≤ 1024 ∧ (b.inWr + 2048 - b.inRd) % 2048 ≤ (n + 2048 - b.inRd) % 2048 →
          ∃ t : Nat, exec (.hubMbInWrWrite m v) s = .next { s with mbox := s.mbox.set m { b with inWr := n, headAt := t } })
        ∧ (¬((n + 2048 - b.inRd) % 2048 ≤ 1024 ∧ (b.inWr + 2048 - b.inRd) % 2048 ≤ (n + 2048 - b.inRd) % 2048) →
          exec (.hubMbInWrWrite m v) s = .next { s with mbox := s.mbox.set m { b with wrErr := true } })
        ∧ ((n + 2048 - b.outRd) % 2048 ≤ (b.outWr + 2048 - b.outRd) % 2048 →
          exec (.hubMbOutRdWrite m v) s = .next { s with mbox := s.mbox.set m { b with outRd := n } })
        ∧ (¬(n + 2048 - b.outRd) % 2048 ≤ (b.outWr + 2048 - b.outRd) % 2048 →
          exec (.hubMbOutRdWrite m v) s = .next { s with mbox := s.mbox.set m { b with rdErr := true } })))
    ∧ (∀ e r n two, s.rings[e]? = some r → n = v.toNat % 32768 → two = 2 * r.size →
      ((n < two ∧ (n + two - r.rd) % two ≤ (r.wr + two - r.rd) % two) →
        exec (.hubEvRdWrite e v) s = .next { s with rings := s.rings.set e { r with rd := n } })
      ∧ (¬(n < two ∧ (n + two - r.rd) % two ≤ (r.wr + two - r.rd) % two) →
        exec (.hubEvRdWrite e v) s = .next { s with rings := s.rings.set e { r with rdErr := true } }))

/-- R39, R44, R46, R48, R49: the request at the front of the mailbox served next, once its LEN words are posted, is taken out of the ring
and then executed, as the command that its opcode names; a LEN out of range ends everything posted with LENGTH, reserved bits, items
that overrun and an unknown opcode end it with their statuses. With nothing to take, or not SERVING, nothing is taken.
The model's own choices in it are log entries 97 and 103. -/
def Obligations.RequestTaken : Prop :=
  ∀ (s : State),
    (s.serving = false ∨ nextMbox s = none → exec .requestTake s = .next s)
    ∧ (∀ m h n p z, s.serving = true → nextMbox s = some m → isNmb m = false → h = inFront s m 4 → n = fld (h.getD 0 0) 20 12 →
      p = inPosted s m → z = traceLine m 0 h { s with svc := { s.svc with last := if m = 0 then s.svc.last else m } } →
      (n < 4 ∨ 1023 < n →
        exec .requestTake s = .next (waits m (headerOnly h 1 p) ((consume m p z).updMbox m fun b => { b with lenErrs := min (b.lenErrs + 1) 0xFFFF })))
      ∧ (∀ ws, 4 ≤ n → n ≤ 1023 → ws = inFront s m n →
        (fld (h.getD 0 0) 0 16 ≠ 0x0120 → fld (h.getD 0 0) 19 1 ≠ 0 ∨ fld (h.getD 0 0) 16 2 ≠ 0 →
          exec .requestTake s = .next (waits m (headerOnly h 3 0) (consume m n z)))
        ∧ (fld (h.getD 0 0) 19 1 = 0 → fld (h.getD 0 0) 16 2 = 0 → ∀ items,
          itemWords items = ws.drop 4 → (∀ i ∈ items, i.tag < 65536 ∧ i.vals.length < 65536) →
          (∀ e ∈ opcodes, e.1 = fld (h.getD 0 0) 0 16 → exec .requestTake s = exec (e.2 (requestOf m h items)) (consume m n z))
          ∧ (fld (h.getD 0 0) 0 16 = 0x0120 → ∃ ok : Bool,
            exec .requestTake s = exec (.nmbConfig (requestOf m h items) ok) (consume m n { z with free := z.free + 1 }))
          ∧ ((∀ e ∈ opcodes, e.1 ≠ fld (h.getD 0 0) 0 16) → fld (h.getD 0 0) 0 16 ≠ 0x0120 →
            exec .requestTake s = .next (waits m (headerOnly h 4 0) (consume m n z))))))

/-- R47, R62, R40, R41: a request not posted whole in 3000 frames ends everything posted with LENGTH; while STATE is not SERVING the hub
answers each complete request with TELLER_BUSY; a response is written behind OUT_WR, and is held while its ring has no room.
The model's own choices in it are log entry 103. -/
def Obligations.ResponsesWritten : Prop :=
  ∀ (s : State) (m : Nat), m < 11 →
    (∀ p, isNmb m = false → p = inPosted s m → 4 ≤ p → frontReady s m = false → waiting s m = false →
      (s.mboxAt m).headAt + 3000 * 8192 ≤ s.clk.tally →
      exec (.requestTimeout m) s = .next (waits m (headerOnly (inFront s m 4) 1 p)
        ((consume m p s).updMbox m fun b => { b with lenErrs := min (b.lenErrs + 1) 0xFFFF })))
    ∧ (∀ n, isNmb m = false → s.serving = false → waiting s m = false → n = frontLen s m → 4 ≤ n → n ≤ 1023 → n ≤ inPosted s m →
      exec (.hubBusyAnswer m) s = exec (.responseWrite m) (waits m (headerOnly (inFront s m 4) 0x13 0) (consume m n s)))
    ∧ (∀ (p : Resp) (ws : List Word) (b : Mbox), b = s.mboxAt m → findKey m s.svc.out = some p → p.after ≠ .adm → ws = p.words →
      (1024 < (b.outWr + 2048 - b.outRd) % 2048 + ws.length →
        exec (.responseWrite m) s = .next (s.updMbox m fun b => { b with held := true }))
      ∧ ((b.outWr + 2048 - b.outRd) % 2048 + ws.length ≤ 1024 → m < 8 → p.after = .none →
        exec (.responseWrite m) s = .next (traceLine m 1 ws (raiseVecIf b.irqEn m
          { s with
            mbox := s.mbox.modify m fun x =>
              { x with outRing := ringPut 1024 x.outRing x.outWr ws, outWr := (b.outWr + ws.length) % 2048, held := false },
            svc := { s.svc with out := unpark m s.svc.out } }))))

/-- R57, R58: a datagram for an enabled network mailbox that is new and has room joins its inbound ring; a repeat of an answered request
gets the stored response again, a repeat of the one in progress and one that is fragmented or short is dropped and counted. -/
def Obligations.NetworkMailbox : Prop :=
  ∀ (s : State) (d : Datagram) (i : Nat) (b : Nmb) (key : NetKey) (same : NetKey → Bool), macUp s d.mac = true → nmbFor s d = some i →
    s.nmbs[i]? = some b → key = ⟨d.srcAddr, d.srcPort, d.words.getD 1 0, d.mac⟩ →
    same = (fun k => k.addr == key.addr && k.port == key.port && k.seq == key.seq) →
    (d.fragmented = true ∨ d.length < 16 → exec (.nmbDatagram d) s = .next (macCount d.mac 27 1 s))
    ∧ (d.fragmented = false → 16 ≤ d.length →
      ((∃ k, b.taken = some k ∧ same k = true) → exec (.nmbDatagram d) s = .next (macCount d.mac 27 1 s))
      ∧ ((∀ k, b.taken = some k → same k = false) →
        (∀ e, (b.stored.find? fun e => same e.1) = some e → exec (.nmbDatagram d) s = .next (sendDatagram (8 + i) key e.2 s))
        ∧ ((∀ e ∈ b.stored, same e.1 = false) → ∀ (ws : List Word) (r : Mbox), ws = (List.range (min 368 (d.length / 4))).map (fun k => d.words.getD k 0) →
          s.mbox[8 + i]? = some r → (r.inWr + 2048 - r.inRd) % 2048 + ws.length ≤ 1024 →
          ∃ t : Nat, exec (.nmbDatagram d) s = .next { s with
            mbox := s.mbox.set (8 + i) { r with inRing := ringPut 1024 r.inRing r.inWr ws, inWr := (r.inWr + ws.length) % 2048, headAt := t },
            nmbs := s.nmbs.set i { b with queued := b.queued ++ [(key, d.length)] } })))

/-- R50, R69, R70, R74, R76: PING answers the tally; LOOKUP pins the node its path names for the mailbox and answers its handle; RELEASE
takes the mailbox's pin from a handle and from no other; QUERY and READ answer a node's attributes and its values. Each response waits,
and nothing else of the machine changes. -/
def Obligations.RequestTree : Prop :=
  ∀ (s : State) (r : Request), Executes s r → r.commitAt = 0 →
    ((∀ i ∈ r.items, i.tag = 0) →
      exec (.ping r) s = .next (answeredOk s s r 0x0001 r.handle [{ tag := 1, vals := [wd s.clk.tally, wd (s.clk.tally / 2 ^ 32)] }] .none))
    ∧ (∀ ws txt ref, r.handle = 0 → r.items = [{ tag := 1, vals := ws }] → textOf ws = some txt → findPath s [] txt = .ok ref →
      ∃ (h : HandleRec) (u : State), exec (.lookup r) s = .next (answeredOk s u r 0x0002 h.word [] .none)
        ∧ u = { s with fw := { s.fw with handles := u.fw.handles, gens := u.fw.gens } }
        ∧ h ∈ u.fw.handles ∧ h.live = true ∧ r.mb ∈ h.pins ∧ (∀ x, handleRec s ref = some x → h.word = x.word)
        ∧ (handleRec s ref = none → h.ref = ref ∧ ∀ x ∈ s.fw.handles, x ∈ u.fw.handles))
    ∧ (∀ h, (∀ i ∈ r.items, i.tag = 0) → (s.fw.handles.find? fun x => x.word == r.handle && x.pins.contains r.mb) = some h →
      ∃ u : State, exec (.release r) s = .next (answeredOk s u r 0x0003 r.handle [] .none)
        ∧ u = { s with fw := { s.fw with handles := u.fw.handles, gens := u.fw.gens } }
        ∧ (∀ x ∈ u.fw.handles, x.num = h.num → x.gen = h.gen → r.mb ∉ x.pins)
        ∧ ∀ x ∈ s.fw.handles, (x.num ≠ h.num ∨ x.gen ≠ h.gen) → (x.live = true ∨ x.pins ≠ []) → x ∈ u.fw.handles)
    ∧ (∀ ref, refOfHandle s r.handle = some ref →
      ((∀ i ∈ r.items, i.tag = 0) → Fits r (queryItems s ref) →
        exec (.query r) s = .next (answeredOk s s r 0x0010 r.handle (queryItems s ref) .none))
      ∧ (∀ t, ref.tag = some t → r.items = [] → Fits r [{ tag := 2, vals := valueAt s ref.node t }] →
        exec (.read r) s = .next (answeredOk s s r 0x0011 r.handle [{ tag := 2, vals := valueAt s ref.node t }] .none))
      ∧ (∀ l, ref.tag = none → r.items = [] → l = (nodeTags s ref.node).map (fun t => { tag := t, vals := valueAt s ref.node t : Item }) →
        sumNat (l.map fun i => 1 + i.vals.length) ≤ 1019 → Fits r l →
        exec (.read r) s = .next (answeredOk s s r 0x0011 r.handle l .none)))

/-- R86 to R94: STAGE puts its checked writes into the mailbox's escrow, each in place of an earlier write of the same parameter; COMMIT
arms what the mailbox has staged for its boundary, at least 1024 ticks ahead, and empties the mailbox's escrow, or answers that nothing
is staged; DISCARD empties it. Nothing else of the machine changes.
The model's own choices in it are log entry 59. -/
def Obligations.RequestEscrow : Prop :=
  ∀ (s : State) (r : Request), Executes s r →
    (∀ ref l u, r.commitAt = 0 → refOfHandle s r.handle = some ref → permits (classOf s ref.node) r.mb = true →
      stageType s ref (realItems r.items) = .ok l → rangeFault l = none → depFault (stageView s r.mb (l.map fun e => e.2.1)) l = none →
      u = { s with fw := { s.fw with staged := (l.map fun e => e.2.1).foldl (stageOne r.mb) s.fw.staged } } → escrowFits u = true →
      exec (.stage r) s = .next (answeredOk s u r 0x0020 r.handle [] .none))
    ∧ ((r.commitAt = 0 ∨ boundaryWord r.commitAt = true) → (∀ i ∈ r.items, i.tag = 0) →
      (stagedOf s r.mb = [] → Fits r [armItem (commitBoundary s r) 0] →
        exec (.commit r) s = .next (answeredOk s s r 0x0021 r.handle [armItem (commitBoundary s r) 0] .none))
      ∧ (∀ (ws : List Write) (b : Nat), ws = stagedOf s r.mb → ws ≠ [] → (∀ w ∈ ws, stillThere s w = true ∧ permits (classOf s w.node) r.mb = true) →
        (∀ n ∈ gateWrites ws, gateBad (withWrites (withArmed s) ws) n = false) → writesFit s ws = none → (b : Int) = commitBoundary s r →
        s.clk.tally + 1024 ≤ b → (∀ a ∈ s.armed, a.mb = r.mb → a.at_ ≠ b) → (s.armed.filter fun a => a.mb == r.mb).length < 8 →
        Fits r [armItem b (sumNat (ws.map Write.words))] →
        exec (.commit r) s = .next (answeredOk s
          { s with
            fw := { s.fw with staged := s.fw.staged.filter fun w => w.1 != r.mb },
            armed := s.armed ++ [{ mb := r.mb, at_ := b, seq := r.seq, kind := .commit, writes := ws }] }
          r 0x0021 r.handle [armItem b (sumNat (ws.map Write.words))] .none)))
    ∧ (r.commitAt = 0 → (∀ i ∈ r.items, i.tag = 0) →
      exec (.discard r) s = .next (answeredOk s { s with fw := { s.fw with staged := s.fw.staged.filter fun w => w.1 != r.mb } }
        r 0x0022 r.handle [] .none))

/-- R222 to R229: SCENE_STORE stores a scene that is captured, taken from the mailbox's escrow, or copied, in place of what its node held,
and raises SCENE_STORED; SCENE_RECALL arms the writes of a VALID scene with its fade, or the fade it gives. -/
def Obligations.RequestScenes : Prop :=
  ∀ (s : State) (r : Request), Executes s r →
    (∀ n chip size w0 xf list ws src, r.commitAt = 0 → nodeOfHandle s r.handle = some n → poolOf n = some (chip, size) →
      r.items = [{ tag := 0x40, vals := [w0, xf] }, { tag := 0x41, vals := list }] → list.length ≤ 1014 →
      (∀ h ∈ list, (nodeOfHandle s h).isSome = true) → onlyBits 0x1F3 w0 = true → xf.toNat ≤ 2000 →
      permits (some (if w0.getLsbD 8 then 0 else 1)) r.mb = true →
      (fld w0 0 2 = 0 ∧ src = none ∧ ws = captured s ((s.adm.cfg.nodes.map NodeRec.node).filter fun k =>
          captureKind w0 k && (list.isEmpty || ((listedNodes s list).filterMap id).contains k))
        ∨ fld w0 0 2 = 1 ∧ src = none ∧ ws = stagedOf s r.mb ∧ (∀ w ∈ ws, sceneTag s w.node w.tag = true)
        ∨ fld w0 0 2 = 2 ∧ ∃ h k x, list = [h] ∧ nodeOfHandle s h = some k ∧ (poolOf k).isSome = true ∧ sceneRec s k = some x ∧ x.state = 1
          ∧ src = some x ∧ ws = x.writes) →
      (∀ w ∈ ws, agrees s (w0.getLsbD 8) w.node = true) → sumNat (ws.map fun w => w.vals.length) ≤ 131072 →
      poolUsed s chip n + sumNat (ws.map fun w => w.vals.length) ≤ size → Fits r [{ tag := 0x44, vals := w1 (sumNat (ws.map fun w => w.vals.length)) }] →
      exec (.sceneStore r) s = .next (answeredOk s
        (raiseNode 0x3004 .teller s.clk.tally (some n) r.mb (low16 (sumNat (ws.map fun w => w.vals.length)))
          [{ tag := 0x44, vals := [crc32Words (ws.flatMap Write.vals)] }]
          { s with fw := { s.fw with
              staged := if fld w0 0 2 = 1 then s.fw.staged.filter fun w => w.1 != r.mb else s.fw.staged,
              scenes := { node := n, state := 1, xfade := (src.map Scene.xfade).getD xf.toNat, storedAt := s.clk.tally,
                          alarm := w0.getLsbD 8, writes := ws } :: s.fw.scenes.filter fun x => x.node != n } })
        r 0x0040 r.handle [{ tag := 0x44, vals := w1 (sumNat (ws.map fun w => w.vals.length)) }] .none))
    ∧ (∀ (n : Node) (sc : Scene) (fade b : Nat), (r.commitAt = 0 ∨ boundaryWord r.commitAt = true) → nodeOfHandle s r.handle = some n → (poolOf n).isSome = true →
      sceneRec s n = some sc → sc.state = 1 → permits (some (if sc.alarm then 0 else 1)) r.mb = true →
      (r.items = [] ∧ fade = sc.xfade ∨ r.items = [{ tag := 0x43, vals := [wd fade] }] ∧ fade ≤ 2000) →
      escrowFits { s with armed := s.armed ++ [{ mb := r.mb, at_ := 0, seq := r.seq, kind := .commit, writes := sc.writes }] } = true →
      (∀ w ∈ sc.writes, stillThere s w = true) → writesFit s sc.writes = none → (b : Int) = commitBoundary s r →
      s.clk.tally + 1024 ≤ b → (∀ a ∈ s.armed, a.mb = r.mb → a.at_ ≠ b) → (s.armed.filter fun a => a.mb == r.mb).length < 8 →
      Fits r [armItem b (sumNat (sc.writes.map Write.words))] →
      exec (.sceneRecall r) s = .next (answeredOk s
        { s with armed := s.armed ++ [{ mb := r.mb, at_ := b, seq := r.seq, kind := .recall n (3 * fade), writes := sc.writes }] }
        r 0x0041 r.handle [armItem b (sumNat (sc.writes.map Write.words))] .none))

/-- R60, R110, R174, R246: ADMIT, when every check of R246 and R247 passes, leaves its configuration waiting for a boundary that is fixed
when its response is written; FILTER_LOAD adds its taps to the bank; EVENT_RING_SET and NMB_CONFIG answer, and their settings take effect
with the response, NMB_CONFIG writing the spare configuration copy of the boot flash under the authorisation of R48.
The model's own choices in it are log entries 44, 45, 56 and 99. -/
def Obligations.RequestConfig : Prop :=
  ∀ (s : State) (r : Request), Executes s r → r.commitAt = 0 →
    (∀ n d c pl, (∀ i ∈ r.items, i.tag = 0) → nodeOfHandle s r.handle = some (.slot n) → s.adm.waiting = none → readConfig s n = .ok (d, c) →
      (r.mb = 0 ∨ r.mb = 10 ∨ leavesAlarm s c = true) → recordsFault (under s c c.values) d.recs = none →
      admitCheck s (under s c (admittedVals s c)) = .ok pl →
      exec (.admitConfig r) s = .next (answeredOk s
        { s with adm := { s.adm with
            waiting := some { at_ := 2 ^ 64, slot := n, mb := r.mb, cfg := c }, fadeOut := goneNodes s s.adm.cfg c } }
        r 0x0030 r.handle [{ tag := 0x30, vals := words64 0 }] .adm))
    ∧ (∀ f b total off w2 taps old, nodeOfHandle s r.handle = some (.bank f b) → permits (classOf s (.feed f)) r.mb = true →
      r.items = [{ tag := 0x50, vals := [wd total, wd off, w2] }, { tag := 0x51, vals := taps }] → 1 ≤ taps.length → taps.length ≤ 1014 →
      total ≤ 16384 → total ≤ pN s (.feed f) 0x104 → onlyBits 0x703 w2 = true → fld w2 8 3 ≤ 4 →
      ((s.feedAt f).map fun fd => audible fd b) ≠ some true → s.bankAt f b = old →
      (w2.getLsbD 0 = true ∧ off = 0 ∧ (∀ k, old = some k → k.state ≠ 2 ∧ (k.state = 1 → k.mb = r.mb))
        ∨ w2.getLsbD 0 = false ∧ ∃ k, old = some k ∧ k.state = 1 ∧ k.mb = r.mb ∧ k.total = total ∧ k.shift = fld w2 8 3 ∧ off = k.taps.length) →
      off + taps.length ≤ total → (w2.getLsbD 1 = true → off + taps.length = total) →
      ∃ (bk : Bank) (u : State), exec (.filterLoad r) s = .next (answeredOk s u r 0x0050 r.handle [{ tag := 0x52, vals := [wd bk.taps.length] }] .none)
        ∧ u = { s with fw := { s.fw with banks := u.fw.banks }, feeds := u.feeds }
        ∧ u.bankAt f b = some bk ∧ bk.state = (if w2.getLsbD 1 then 2 else 1) ∧ bk.total = total ∧ bk.shift = fld w2 8 3 ∧ bk.mb = r.mb
        ∧ bk.taps = (if w2.getLsbD 0 then [] else (old.map Bank.taps).getD []) ++ taps.map BitVec.toInt)
    ∧ (∀ e mask lg fl, nodeOfHandle s r.handle = some (.ring e) → r.items = [{ tag := 0x60, vals := [wd mask, wd lg, wd fl] }] →
      mask < 65536 → 10 ≤ lg → lg ≤ 14 → fl < 4 →
      exec (.eventRingSet r) s = .next (answeredOk s s r 0x0060 r.handle []
        (.evRing e { mask := mask, log2S := lg, enable := decide (fl % 2 = 1), irqEn := decide (2 ≤ fl) })))
    ∧ (∀ (lo hi : Word) (c : FlashCfg), c = ((cfgBest s).map (·.2)).getD FlashCfg.default → Authorised s r →
      r.items = [{ tag := 0x120, vals := [lo, hi] }] → onlyBits 0xFF lo = true →
      ¬(fld lo 0 4 ≠ 0 ∧ fld hi 0 16 ≠ 0 ∧ fld lo 4 4 ≠ 0 ∧ fld hi 16 16 ≠ 0 ∧ fld hi 0 16 = fld hi 16 16) →
      (∀ u, s.flash.update = some u → u.target ≠ 2) →
      exec (.nmbConfig r true) s = .next (answeredOk s
        { s with flash := { s.flash with
            cfgs := s.flash.cfgs.set (cfgSpare s) (some { c with gen := (c.gen + 1) % 2 ^ 32, nmbLo := lo, nmbHi := hi }) } }
        r 0x0120 r.handle [] .nmb))

/-- R534 to R537, R546 to R550: LEDGER_READ answers the entries from a number on, as many as fit, with the bounds of the ledger;
LEDGER_CLEAR of the event ledger leaves it with the one entry that reports it; FW_BEGIN, FW_DATA and FW_END start, fill and end an
update of the boot flash under the authorisation of R48; FW_END commits content that is good and newer, and answers FORMAT otherwise. -/
def Obligations.RequestLedgerUpdate : Prop :=
  ∀ (s : State) (r : Request), Executes s r → r.commitAt = 0 →
    (∀ margin first most l a b, ledgerOf s r.handle = some margin → r.items = [{ tag := 0x70, vals := [wd first, wd most] }] →
      first < 2 ^ 32 → 1 ≤ most → most ≤ 255 → (ledgerHeld s margin).head? = some a → (ledgerHeld s margin).getLast? = some b →
      l = fitItems ((if isNmb r.mb then 368 else 1023) - 8) (((if first = 0xFFFFFFFF then ledgerHeld s margin
        else (ledgerHeld s margin).filter fun e => decide (first ≤ e.1)).take most).map fun e => { tag := 0x71, vals := e.2 }) →
      Fits r (l ++ [{ tag := 0x72, vals := [wd (ledgerNext s margin), wd a.1, wd b.1] }]) →
      exec (.ledgerRead r) s = .next (answeredOk s s r 0x0070 r.handle
        (l ++ [{ tag := 0x72, vals := [wd (ledgerNext s margin), wd a.1, wd b.1] }]) .none))
    ∧ (Authorised s r → ledgerOf s r.handle = some false → r.items = [{ tag := 0x110, vals := [1] }] →
      ∃ u x, exec (.ledgerClear r) s = .next (answeredOk s u r 0x0110 r.handle [] .none)
        ∧ u.ledg.events = [x] ∧ x.num = s.ledg.evNext ∧ x.ev.code = 0xA010 ∧ u.ledg.evNext = (s.ledg.evNext + 1) % 2 ^ 32
        ∧ u.ledg.margins = s.ledg.margins)
    ∧ (∀ t len crc, Authorised s r → r.items = [{ tag := 0x100, vals := [wd t, wd len, crc] }] → s.flash.update = none → t ≤ 2 →
      (t < 2 → s.boot.image ≠ t) → 0 < len → len % 4 = 0 → len ≤ (if t = 2 then 65536 else 16777216) →
      exec (.fwBegin r) s = .next (answeredOk s
        (raiseFw 0xB004 r.mb t { s with flash := { s.flash with
          cfgs := if t = 2 then s.flash.cfgs.set (cfgSpare s) none else s.flash.cfgs,
          images := if t = 2 then s.flash.images else s.flash.images.set t none,
          update := some { mb := r.mb, target := t, length := len, crc := crc, words := [], last := s.clk.tally } } })
        r 0x0100 r.handle [] .none))
    ∧ (∀ u off ws, Authorised s r → s.flash.update = some u → u.mb = r.mb → r.items = [{ tag := 0x101, vals := wd off :: ws }] →
      ws ≠ [] → ws.length ≤ 1013 → off = 4 * u.words.length → off + 4 * ws.length ≤ u.length → u.length ≤ 16777216 →
      exec (.fwData r) s = .next (answeredOk s
        { s with flash := { s.flash with update := some { u with words := u.words ++ ws, last := s.clk.tally } } }
        r 0x0101 r.handle [{ tag := 0x101, vals := [wd (off + 4 * ws.length)] }] .none))
    ∧ (∀ u, Authorised s r → (∀ i ∈ r.items, i.tag = 0) → s.flash.update = some u → u.mb = r.mb → u.length ≤ 4 * u.words.length →
      exec (.fwEnd r) s = .next (if contentGood u = true ∧ ∀ g ∈ validGens s u.target, g < contentGen u
        then answeredOk s (commitUpdate u s) r 0x0102 r.handle [] .none
        else answeredFail (if contentGood u = true then s else cancelUpdate 5 s) r 0x0102 2 0))

/-- R48, R52: a request of a mailbox that serves no request is answered TELLER_BUSY; one that needs key and seal is answered NOT_HERE
on a network mailbox, and KEY_ABSENT or SEAL_BROKEN with AUTH_REFUSED raised where either is missing; a COMMIT_AT that the opcode takes
no boundary from, or that is none, is answered BAD_TIME. None of them has an effect of its own. -/
def Obligations.RequestGates : Prop :=
  ∀ (s : State) (r : Request), r.mb < 11 → (∀ e ∈ s.svc.out, e.1 ≠ r.mb) →
    (s.serving = false → ∀ c ∈ [Instr.ping r, .stage r, .commit r, .fwBegin r], ∃ op, exec c s = .next { s with svc := { s.svc with
      out := s.svc.out ++ [(r.mb, { opcode := op, quiet := r.quiet, seq := r.seq, handle := r.handle, detail := 0, status := 0x13,
                                    items := [], after := .none })] } })
    ∧ (s.serving = true → ∀ e ∈ [(Instr.fwBegin r, 0x0100), (.fwData r, 0x0101), (.fwEnd r, 0x0102), (.ledgerClear r, 0x0110), (.nmbConfig r true, 0x0120)],
      (isNmb r.mb = true → exec e.1 s = .next (answeredFail s r e.2 5 r.mb))
      ∧ (isNmb r.mb = false → s.maint.key = false → exec e.1 s = .next (answeredFail (raiseRefused r.mb 1 s) r e.2 6 0))
      ∧ (isNmb r.mb = false → s.maint.key = true → s.maint.loop = false → exec e.1 s = .next (answeredFail (raiseRefused r.mb 2 s) r e.2 7 0)))
    ∧ (s.serving = true → r.commitAt ≠ 0 →
      (∀ e ∈ [(Instr.ping r, 0x0001), (.lookup r, 0x0002), (.release r, 0x0003), (.query r, 0x0010), (.read r, 0x0011), (.stage r, 0x0020),
        (.discard r, 0x0022), (.admitConfig r, 0x0030), (.sceneStore r, 0x0040), (.filterLoad r, 0x0050), (.eventRingSet r, 0x0060),
        (.ledgerRead r, 0x0070)], exec e.1 s = .next (answeredFail s r e.2 8 0))
      ∧ (r.commitAt.toNat % 8192 ≠ 0 → ∀ e ∈ [(Instr.commit r, 0x0021), (.sceneRecall r, 0x0041)],
        exec e.1 s = .next (answeredFail s r e.2 8 0)))

/-- R516, R517, R62: the failure of the active teller pair is detected once; the first frame boundary after it puts STATE at FAILOVER, names
the pair that follows and puts the failed pair into reset, FAILED at its third failure within 86 400 operating seconds; the standby pair
takes over, with the request in progress undone and the update cancelled; and a self-test ends in STANDBY or FAILED.
The model's own choices in it are log entries 66 and 91. -/
def Obligations.TellerFailover : Prop :=
  ∀ (s : State),
    (∀ c ∈ [Instr.tellerDivergence, .heartbeatTimeout], s.serving = true → (pairAt s s.fault.active).state = 1 → s.fault.detected = none →
      exec c s = .next { s with fault := { s.fault with detected := some s.clk.tally } })
    ∧ (∀ d k (p : TellerPair) fails, s.clk.tally % 8192 = 0 → s.fault.detected = some d → d < s.clk.tally → k = s.fault.active → s.fault.pairs[k]? = some p →
      k < 2 → s.fault.pairs.length = 2 → fails = (s.ledg.opSec :: p.fails).filter (fun t => decide (s.ledg.opSec < t + 86400)) →
      ∃ t : State, exec .failoverEnter s = .next t
        ∧ t = { s with
          svc := { s.svc with state := 2, pair := if (pairAt s (1 - k)).state = 2 then 1 - k else k },
          fault := { s.fault with
            detected := none, idleSince := s.clk.tally,
            pairs := s.fault.pairs.set k { p with
              fails := fails, state := if 3 ≤ fails.length then 3 else 0, marked := p.marked || decide (3 ≤ fails.length), testing := true } },
          rings := t.rings, regs := t.regs, ledg := { s.ledg with queue := t.ledg.queue, suppressed := t.ledg.suppressed } })
    ∧ (∀ k, s.svc.state = 2 → k < 2 → s.fault.pairs.length = 2 → (pairAt s k).state = 2 → (∀ j < k, (pairAt s j).state ≠ 2) →
      ∃ t : State, exec .tellerTakeover s = .next t
        ∧ t.svc.state = 1 ∧ t.svc.pair = k ∧ t.svc.journal = none ∧ t.fault.active = k ∧ (pairAt t k).state = 1 ∧ t.flash.update = none
        ∧ (∀ m p, s.svc.journal = some (m, s.fw, s.fw) → s.svc.out = [(m, p)] → p.status = 0 → p.opcode = 0x0010 →
            t.svc.out = [(m, { p with status := 0x13, detail := 0, items := [], after := .none })])
        ∧ t = { s with
          svc := t.svc, fw := t.fw, adm := { s.adm with waiting := t.adm.waiting, fadeOut := t.adm.fadeOut }, fault := t.fault,
          flash := { s.flash with update := none },
          rings := t.rings, regs := t.regs, ledg := { s.ledg with queue := t.ledg.queue, suppressed := t.ledg.suppressed } })
    ∧ (∀ k pass (p : TellerPair), k < 2 → s.fault.pairs[k]? = some p → p.testing = true → p.state ≠ 2 → p.state ≠ 3 →
      ∃ t : State, exec (.tellerSelfTestDone k pass) s = .next t
        ∧ t = { s with
          fault := { s.fault with pairs := s.fault.pairs.set k { p with
            state := if pass = true ∧ p.marked = false then 2 else 3, testing := false, marked := decide (¬(pass = true ∧ p.marked = false)) } },
          rings := t.rings, regs := t.regs, ledg := { s.ledg with queue := t.ledg.queue, suppressed := t.ledg.suppressed } })

/-- R521, R522: an output of the fault logics is asserted while its own cause or a condition of the table holds, and released only when
neither has held for 3000 frames; a stopped clock and 60 frames without a release word assert the output of that logic.
The model's own choices in it are log entry 100. -/
def Obligations.FaultOutputs : Prop :=
  ∀ (s : State), ∃ t : State, exec .faultOutput s = .next t
    ∧ t = { s with
      fault := { s.fault with outA := t.fault.outA, outB := t.fault.outB, lastBad := t.fault.lastBad },
      rings := t.rings, regs := t.regs, ledg := { s.ledg with queue := t.ledg.queue, suppressed := t.ledg.suppressed } }
    ∧ (lowestCondition s ≠ none → t.fault.outA = true ∧ t.fault.outB = true ∧ t.fault.lastBad = s.clk.tally)
    ∧ (s.fault.test.getLsbD 0 = true ∨ s.fault.stopA = true ∨ s.fault.relA + 60 * 8192 ≤ s.clk.tally → t.fault.outA = true)
    ∧ (s.fault.test.getLsbD 1 = true ∨ s.fault.stopB = true ∨ s.fault.relB + 60 * 8192 ≤ s.clk.tally → t.fault.outB = true)
    ∧ (s.clk.tally < s.fault.lastBad + 3000 * 8192 → (s.fault.outA = true → t.fault.outA = true) ∧ (s.fault.outB = true → t.fault.outB = true))
    ∧ (lowestCondition s = none → s.fault.lastBad + 3000 * 8192 ≤ s.clk.tally → ownCause s 0 = false → ownCause s 1 = false →
      t.fault.outA = false ∧ t.fault.outB = false)
    ∧ (∀ k, k < 2 → (if k = 0 then s.fault.relA else s.fault.relB) + 60 * 8192 ≤ s.clk.tally → exec (.releaseWordTimeout k) s = exec .faultOutput s)
    ∧ exec (.faultClockStop 0) s = exec .faultOutput { s with fault := { s.fault with stopA := true } }
    ∧ exec (.faultClockStop 1) s = exec .faultOutput { s with fault := { s.fault with stopB := true } }

/-- R543, R544, R545, R550: KEY_N and each bit of the seal loop are sampled; a change of authorisation is reported, and one that withdraws
it cancels the update under way and clears the fault test; 30 000 frames without FW_DATA or FW_END cancel it too.
The model's own choices in it are log entry 65. -/
def Obligations.Authorisation : Prop :=
  ∀ (s : State),
    (exec (.keyChanged s.maint.key) s = .next s)
    ∧ (s.maint.key = false → exec (.keyChanged true) s = .next (raiseOwn 0xB001 .detect s.clk.tally none 1 { s with maint := { s.maint with key := true } }))
    ∧ (s.maint.key = true →
      exec (.keyChanged false) s = .next (withdraw 1 (raiseOwn 0xB001 .detect s.clk.tally none 0 { s with maint := { s.maint with key := false } })))
    ∧ (∀ sns x m same n whole, s.boot.porst = false → s.boot.sealDriven = true → m = s.maint → same = decide (sns = m.lfsr.getLsbD 14) →
      n = (if same then min (m.matched + 1) 256 else 0) → whole = (same && (m.loop || decide (n = 256))) →
      x = { s with maint := { m with lfsr := m.lfsr <<< 1 ||| (if m.lfsr.getLsbD 14 = m.lfsr.getLsbD 13 then 0 else 1), matched := n, loop := whole } } →
      (whole = m.loop → exec (.sealBitSample sns) s = .next x)
      ∧ (whole = true → m.loop = false → exec (.sealBitSample sns) s = .next (raiseOwn 0xB002 .detect s.clk.tally none 1 x))
      ∧ (whole = false → m.loop = true → exec (.sealBitSample sns) s = .next (withdraw 2 (raiseOwn 0xB002 .detect s.clk.tally none 0 x))))
    ∧ (∀ why, ∃ t : State, withdraw why s = t ∧ t.flash.update = none ∧ t.fault.test = 0
      ∧ t = { s with
        flash := { s.flash with update := none },
        fault := { s.fault with test := 0, outA := t.fault.outA, outB := t.fault.outB, lastBad := t.fault.lastBad },
        rings := t.rings, regs := t.regs, ledg := { s.ledg with queue := t.ledg.queue, suppressed := t.ledg.suppressed } })
    ∧ (∀ u, s.flash.update = some u → u.last + 30000 * 8192 ≤ s.clk.tally →
      exec .fwUpdateTimeout s = .next (raiseNode 0xB006 .teller s.clk.tally none u.mb (u.target * 256 + 3) [] { s with flash := { s.flash with update := none } }))

/-- R8, R11, R15, R24: each SAMPLE_BOUNDARY and FRAME_BOUNDARY runs the next boundary of its grid, none left out, and the tally goes on to
it; when MCLK is lost the holdover edges are added in one step, and a boundary that the step passes is run. No command waiting is lost,
and no mailbox, ring or spoke comes or goes.
The model's own choices in it are log entries 1 and 50. -/
def Obligations.BoundariesRun : Prop :=
  ∀ (s : State), s.clk.nextSample % 512 = 0 → s.clk.nextFrame % 8192 = 0 → s.clk.tally ≤ s.clk.nextSample → s.clk.tally ≤ s.clk.nextFrame →
    (∀ bad, ∃ t : State, exec (.sampleBoundary bad) s = .next t ∧ t.clk.tally = s.clk.nextSample ∧ t.clk.nextSample = s.clk.nextSample + 512
      ∧ t.clk.nextFrame = s.clk.nextFrame ∧ t.pending = s.pending ∧ (s.Shape → t.Shape))
    ∧ (∀ env, ∃ t : State, exec (.frameBoundary env) s = .next t ∧ t.clk.tally = s.clk.nextFrame ∧ t.clk.nextFrame = s.clk.nextFrame + 8192
      ∧ t.clk.nextSample % 512 = 0 ∧ t.pending = s.pending ∧ (s.Shape → t.Shape)
      ∧ (s.clk.nextFrame ≤ s.clk.nextSample → t.clk.nextSample = s.clk.nextSample))
    ∧ (∀ n e, e = s.clk.tally + min n 8 → s.clk.mclkPresent = true → s.clk.onHoldover = false → ∃ t : State, exec (.mclkLoss n) s = .next t
      ∧ t.clk.tally = e ∧ t.pending = s.pending ∧ (s.Shape → t.Shape)
      ∧ t.clk.nextSample = (if s.clk.nextSample ≤ e then s.clk.nextSample + 512 else s.clk.nextSample)
      ∧ t.clk.nextFrame = (if s.clk.nextFrame ≤ e then s.clk.nextFrame + 8192 else s.clk.nextFrame))

/-- R17, R23, R25, R26, R520: at a frame boundary, after the frame that ends, the AUD domain enters holdover once MCLK is lost, and leaves
it when MCLK has been present for 3000 frames and its ratio lies within 200 ppm; the ratio is a measurement over 3000 frames; and the
spoke clock goes one set point of 25 MHz a boundary towards the one asked for.
The model's own choices in it are log entries 1 and 50. -/
def Obligations.ClockRules : Prop :=
  ∀ (s x : State), x = closeFrame s →
    (s.clk.mclkPresent = false → exec .mclkReturn s = .next { s with clk := { s.clk with mclkPresent := true, mclkSince := s.clk.tally } })
    ∧ (s.clk.mclkPresent = true → exec .mclkReturn s = .next s)
    ∧ (∀ n : Nat, s.clk.mclkPresent = true → s.clk.ratioSince + 3000 * 8192 ≤ s.clk.tally → s.clk.mclkSince + 3000 * 8192 ≤ s.clk.tally →
      exec (.mclkRatioMeasure n) s = .next { s with clk := { s.clk with ratio := n, ratioSince := s.clk.tally } })
    ∧ (s.clk.tally % 8192 = 0 → x.clk = s.clk → s.clk.onHoldover = true → s.clk.holdover = false → s.clk.lostAt ≤ s.clk.tally →
      exec .holdoverEnter s = .next (settleFaults (stopQuietPorts
        (raiseOwn 0xA006 .boundary s.clk.tally none 0 { x with clk := { s.clk with holdover := true } }))))
    ∧ (s.clk.tally % 8192 = 0 → x.clk = s.clk → s.serving = true → s.clk.onHoldover = true → s.clk.mclkPresent = true →
      s.clk.mclkSince + 3000 * 8192 ≤ s.clk.tally → 1000000000 - 200000 ≤ s.clk.ratio → s.clk.ratio ≤ 1000000000 + 200000 →
      exec .holdoverExit s = .next (settleFaults (raiseOwn 0xA007 .boundary s.clk.tally none 0
        { x with clk := { s.clk with onHoldover := false, holdover := false } })))
    ∧ (s.clk.tally % 8192 = 0 → x.clk = s.clk → s.clk.mhz ≠ s.clk.mhzTarget → s.clk.mhzAt ≠ some s.clk.tally →
      exec .spokeClockStep s = .next { x with clk := { s.clk with
        mhz := if s.clk.mhz < s.clk.mhzTarget then min (s.clk.mhz + 25) s.clk.mhzTarget else max (s.clk.mhz - 25) s.clk.mhzTarget,
        mhzAt := some s.clk.tally } })

/-- R11, R15, R509: an ACTIVE spoke without a stage and without DMA on its way completes the running frame; one that has not completed it
at its release is aborted, counted and charged, once for the frame. -/
def Obligations.SpokeFrames : Prop :=
  ∀ (s : State) (sp t0 : Nat) (x : SpokeSt), s.snd.running = some t0 → s.spokes[sp]? = some x → s.snd.complete.contains sp = false →
    s.snd.aborted.contains sp = false →
    (x.role = 0 → x.core.dmaq = [] → x.core.inst = none →
      exec (.spokeFrameComplete sp) s = .next { s with snd := { s.snd with complete := s.snd.complete ++ [sp] } })
    ∧ (s.clk.tally = t0 + 8192 → (x.role = 0 ∨ x.role = 2) →
      ∃ n : Nat, exec (.spokeOverrun sp) s = .next { (if chargedIn s sp then s else charge sp s) with
        spokes := s.spokes.set sp { x with
          auditFails := n, overruns := min (x.overruns + 1) 0xFFFFFFFF,
          core := { x.core with inst := none, areas := [], mode := .firmware, stall := none } },
        snd := { s.snd with aborted := sp :: s.snd.aborted } })

/-- R15, R96, R179 to R181, R201, R203, R218, R232, R251: at a frame boundary, the frame that ends closed, fades end and pending requests
are tested, then the admission that waits for the boundary is in force, then the commits; a fade that is due leaves its new form resident
and starts the one pending unless it names that form; a ramp that is done rests at its target, and a freeze that has run out ends.
The model's own choices in it are log entry 49. -/
def Obligations.BoundaryOrder : Prop :=
  ∀ (s x : State), s.clk.tally % 8192 = 0 → x = closeFrame s →
    (exec .commitApply s = .next (settleTill (applyDue s.clk.tally (applyAdmission s.clk.tally (settleFades s.clk.tally x)))))
    ∧ (exec .admissionApply s = .next (applyAdmission s.clk.tally (settleFades s.clk.tally x)))
    ∧ (∀ c (f g : Fade Nat) (r : Nat), r = 3 * pN x (.channel c) 0x142 → f.len ≠ 0 → f.len ≤ f.pos →
      g = (match f.pending with
        | none => { f with old := f.new, len := 0, pos := 0 }
        | some a => if a = f.new then { f with old := f.new, len := 0, pos := 0, pending := none }
          else if r = 0 then { f with old := a, new := a, len := 0, pos := 0, pending := none }
          else { f with old := f.new, new := a, len := 16 * r, pos := 0, pending := none }) →
      (∀ y ∈ x.chans, y.n = c → y.delay = f) →
      exec (.swapDone (.chanDelay c)) s = .next { x with chans := x.chans.map fun y => if y.n = c then { y with delay := g } else y })
    ∧ (∀ c, exec (.routeFadeEnd (.channel c) 0x101) s = .next
        { x with chans := x.chans.map fun y => if y.n = c then { y with src := settleFade y.src (3 * pN x (.channel c) 0x105) } else y })
    ∧ (∀ q e, x.sceneRun.running = some (q, e) → e ≤ x.clk.tally → x.sceneRun.pending = none → x.clk = s.clk →
      exec .sceneDone s = .next (raiseOwn 0x3002 .boundary e (some q.scene) 0 { x with sceneRun := { x.sceneRun with running := none } }))
    ∧ (∀ c, exec (.rampEnd (.channel c) 0x151) s = .next
        { s with chans := s.chans.map fun y => if y.n = c then { y with fader := if y.fader.done then ⟨y.fader.g1, y.fader.g1, 0, 0⟩ else y.fader } else y })
    ∧ (∀ z q t, s.zoneAt z = some q → q.holdTo = some t → t ≤ s.clk.tally →
      exec (.ambHoldEnd z) s = .next { s with
        zones := s.zones.map fun y => if y.n = z then { y with holdTo := none, held := if y.held = 1 then 0 else y.held } else y })

/-- R175 to R177, R184, R185: a bank in PREPARING becomes READY with its CRC and is reported; a load without FILTER_LOAD for 30 000 frames
is abandoned at a boundary; a feed whose armed swap has come to its reservation takes a free lane of its pool, or waits and is counted;
and a lane of a READY bank is filled.
The model's own choices in it are log entries 29 and 67. -/
def Obligations.FilterBanks : Prop :=
  ∀ (s : State) (f b : Nat),
    (∀ k, s.bankAt f b = some k → k.state = 2 → s.serving = true →
      exec (.filterReady f b) s = .next (raiseNode 0x2001 .teller s.clk.tally (some (.bank f b)) k.mb (k.total % 65536)
        [{ tag := 0x53, vals := [crc32Words (k.taps.map fun t => BitVec.ofInt 32 t)] }]
        (s.setBank { k with state := 3, crc := crc32Words (k.taps.map fun t => BitVec.ofInt 32 t), readyAt := s.clk.tally })))
    ∧ (∀ k, s.bankAt f b = some k → k.state = 1 → s.clk.tally % 8192 = 0 → k.lastAt + 30000 * 8192 ≤ s.clk.tally →
      exec (.loadAbandoned f b) s = .next (raiseNode 0x2006 .boundary s.clk.tally (some (.bank f b)) k.mb 0 []
        { s with fw := { s.fw with banks := s.fw.banks.filter fun x => !(x.feed == f && x.bank == b) } }))
    ∧ (∀ a w fd, s.armed = [a] → a.at_ ≤ s.clk.tally + 16384 → findVal a.writes (.corr f) 0x101 = some [w] → s.feedAt f = some fd →
      (∀ x ∈ s.feeds, x.n = f → x = fd) →
      (fd.lane.isSome = true → exec (.laneReserve f) s = .next s)
      ∧ (fd.lane = none → laneFree s f = true → ∃ l : Lane, exec (.laneReserve f) s = .next { s with
          feeds := s.feeds.map (fun x => if x.n = f then { x with lane := some l } else x),
          till := { s.till with waiting := s.till.waiting.filter fun x => x.2 != f } } ∧ l.bank = laneBank s fd ∧ l.filled = false)
      ∧ (fd.lane = none → laneFree s f = false → s.till.waiting.contains (a.at_, f) = false → exec (.laneReserve f) s = .next { s with
          feeds := s.feeds.map (fun x => if x.n = f then { x with waits := min (x.waits + 1) 0xFFFFFFFF } else x),
          till := { s.till with waiting := insertWait (a.at_, f) s.till.waiting } }))
    ∧ (∀ fd l k, s.feedAt f = some fd → fd.lane = some l → l.filled = false → s.bankAt f l.bank = some k → k.state = 3 →
      exec (.laneFillDone f) s = .next { s with
        feeds := s.feeds.map fun x => if x.n = f then { x with lane := some { l with filled := true } } else x })

/-- R252 to R254: at the mark, ALARM nodes whose copies agree go on as they are, and two copies that differ wait for the auditor of the
node. By the resolution deadline, the copy its result equals is the output, the spoke of the other is charged, and the other copy takes
its state from it; equal to neither, the primary is the output and the frame is bad.
The model's own choices in it are log entry 60. -/
def Obligations.AlarmVote : Prop :=
  ∀ (s : State) (t0 : Nat), s.snd.running = some t0 →
    (∀ obs, s.alarm.marked = false → t0 + 5120 ≤ s.clk.tally → s.clk.tally < t0 + 8192 →
      (∀ o ∈ obs, ∃ x y g k, o.primary = .present x g ∧ o.secondary = .present y k) →
      (∀ e ∈ s.adm.place, ∀ a b, copySpokes s e.1 = some (a, b) → ∃ p, copyPresent p = true ∧ copyState s e.1 0 a p = p ∧ copyState s e.1 1 b p = p
        ∧ (∀ o, obs.find? (fun o => o.node == e.1) = some o → o.primary = p ∧ o.secondary = p)
        ∧ (obs.find? (fun o => o.node == e.1) = none → p = .present [] 0)) →
      exec (.alarmMark obs) s = .next { s with alarm := { s.alarm with marked := true } })
    ∧ (∀ n a b x y g k c e, s.adm.place = [(n, a, some b)] → (∀ i, n ≠ .inst i) → s.alarm.marked = false → t0 + 5120 ≤ s.clk.tally → s.clk.tally < t0 + 8192 →
      c = .present x g → e = .present y k → c ≠ e → vaultLost s n 0 = false → vaultLost s n 1 = false → isRetired s a = false → isRetired s b = false →
      (auditorOf s n).isSome = true →
      exec (.alarmMark [{ node := n, primary := c, secondary := e }]) s = .next { s with alarm := { s.alarm with
        marked := true, open_ := s.alarm.open_ ++ [{ node := n, primary := c, secondary := e }] } })
    ∧ (∀ n a b x y g k o z h, copySpokes s n = some (a, b) → s.clk.tally ≤ t0 + 8064 → s.alarm.open_.find? (fun o => o.node == n) = some o →
      o = { node := n, primary := .present x g, secondary := .present y k } → vaultLost s n 0 = false → vaultLost s n 1 = false →
      ∃ u : State, exec (.auditResolution n (.usable z h)) s = .next u
        ∧ u = { s with
          alarm := { s.alarm with open_ := u.alarm.open_, outs := u.alarm.outs, bad := u.alarm.bad, resync := u.alarm.resync },
          spokes := u.spokes, fault := { s.fault with charges := u.fault.charges, doomed := u.fault.doomed, code4At := u.fault.code4At },
          rings := u.rings, regs := u.regs, ledg := { s.ledg with queue := u.ledg.queue, suppressed := u.ledg.suppressed } }
        ∧ u.alarm.open_ = (s.alarm.open_.filter fun o => o.node != n)
        ∧ (z = x ∧ h = g → u.alarm.outs = (n, x) :: dropKey n s.alarm.outs ∧ u.fault.charges = s.fault.charges ++ [(b, s.clk.tally)]
          ∧ u.alarm.resync = s.alarm.resync ++ [(n, b)] ∧ u.alarm.bad = s.alarm.bad)
        ∧ (¬(z = x ∧ h = g) → z = y ∧ h = k → u.alarm.outs = (n, y) :: dropKey n s.alarm.outs ∧ u.fault.charges = s.fault.charges ++ [(a, s.clk.tally)]
          ∧ u.alarm.resync = s.alarm.resync ++ [(n, a)] ∧ u.alarm.bad = s.alarm.bad)
        ∧ (¬(z = x ∧ h = g) → ¬(z = y ∧ h = k) → u.alarm.outs = (n, x) :: dropKey n s.alarm.outs ∧ u.fault.charges = s.fault.charges
          ∧ u.alarm.resync = s.alarm.resync ++ [(n, b)] ∧ u.alarm.bad = true ∧ u.fault.code4At = some s.clk.tally))

/-- R263 to R265, R267: an assertion starts the message of its trigger, from its start and with its count, unless it plays; while IMAGE_OK
is 0 it is recognised and nothing plays; the end of a repetition stops it, or plays it again after GAP, as the mode gives.
The model's own choices in it are log entry 38. -/
def Obligations.BellTriggers : Prop :=
  ∀ (s : State) (n : Nat) (x : BellTrig) (set : BellTrig → State), n < 4 → s.bell.trigs[n]? = some x →
    set = (fun y => { s with bell := { s.bell with trigs := s.bell.trigs.set n y } }) →
    (∀ lv now, now = (lv || s.bell.sw.getLsbD n || trigSw s n) →
      (now = x.on → exec (.bellTrigRecognise n lv) s = .next (set { x with pin := lv }))
      ∧ (now = true → x.on = false → s.bell.imageOk = false → exec (.bellTrigRecognise n lv) s = .next (
          if trigActive s n then (bellEvent 0x4005 n (set { x with pin := lv, on := true })).updTrig n fun t => { t with play := { t.play with again := true } }
          else bellEvent 0x4005 n (set { x with pin := lv, on := true })))
      ∧ (now = true → x.on = false → s.bell.imageOk = true → x.play.pos = none → x.play.gapEnd = none → bellLength s.bell.store (trigMsg s n) ≠ 0 →
        exec (.bellTrigRecognise n lv) s = .next ((bellEvent 0x4005 n (set { x with pin := lv, on := true })).updTrig n fun t =>
          { t with
            starts := min (t.starts + 1) 0xFFFFFFFF,
            play := { t.play with
              msg := trigMsg s n, pos := some 0, left := if trigMode s n = 2 then trigRepeats s n - 1 else 0, gapEnd := none, again := false } }))
      ∧ (now = false → x.on = true → s.bell.imageOk = true → trigMode s n ≠ 0 → exec (.bellTrigRecognise n lv) s = .next (set { x with pin := lv, on := false }))
      ∧ (now = false → x.on = true → s.bell.imageOk = true → trigMode s n = 0 → x.play.pos ≠ none →
        (∃ r ∈ s.bell.routes, ∃ v ∈ r.voices, v.trig = n ∧ v.fade = none) →
        exec (.bellTrigRecognise n lv) s = .next { s with bell := { s.bell with
          trigs := s.bell.trigs.set n { x with pin := lv, on := false, play := { x.play with pos := none, gapEnd := none, again := false, fade := 16 } },
          routes := s.bell.routes.map fun r => { r with voices := r.voices.map fun v => if v.trig = n ∧ v.fade = none then { v with fade := some 16 } else v } } }))
    ∧ (∀ k gap, x.play.pos = some k → 3 * bellLength s.bell.store x.play.msg ≤ k → gap = trigGap s n →
      (trigMode s n = 0 → x.on = true → gap ≠ 0 →
        exec (.bellRepetitionEnd n) s = .next (set { x with play := { x.play with pos := none, gapEnd := some (s.clk.nextSample + gap), left := 0 } }))
      ∧ (trigMode s n = 1 → x.play.again = false → exec (.bellRepetitionEnd n) s = .next (bellEvent 0x4006 n
          (set { x with play := { x.play with pos := none, gapEnd := none, left := 0, again := false } })))
      ∧ (trigMode s n = 2 → x.play.again = false → x.play.left ≠ 0 → gap = 0 →
        exec (.bellRepetitionEnd n) s = .next (set { x with play := { x.play with pos := some 0, left := x.play.left - 1 } })))
    ∧ (∀ e, x.play.gapEnd = some e → e ≤ s.clk.tally → x.play.again = false →
      exec (.bellGapEnd n) s = .next (set { x with play := { x.play with pos := some 0, gapEnd := none } }))

/-- R275, R278, R289: `add`, `sub`, `mulr`, `shl` and `shr` write d[X] the exact result, saturated with S and modulo 2^32 without; an
exact result outside 32 bits sets OVR, which is sticky. Nothing else of the machine changes. -/
def Obligations.SpokeArithmetic : Prop :=
  ∀ (s : State) (sp x y t : Nat) (sat : Bool) (o : Core), x < 32 → y < 32 → t < 32 →
    (Issues s sp (macOf (dReads [y, t]) [(.d x, 1, 1)]) o →
      exec (.add sp sat x y t) s = .next (s.setCore sp (aluDone (macOf (dReads [y, t]) [(.d x, 1, 1)]) o x sat
        ((o.snap.rd y).toInt + (o.snap.rd t).toInt)))
      ∧ exec (.sub sp sat x y t) s = .next (s.setCore sp (aluDone (macOf (dReads [y, t]) [(.d x, 1, 1)]) o x sat
        ((o.snap.rd y).toInt - (o.snap.rd t).toInt)))
      ∧ exec (.shl sp sat x y false t) s = .next (s.setCore sp (aluDone (macOf (dReads [y, t]) [(.d x, 1, 1)]) o x sat
        ((o.snap.rd y).toInt * 2 ^ ((o.snap.rd t).toNat % 32))))
      ∧ exec (.shr sp x y false t) s = .next (s.setCore sp (movDone (macOf (dReads [y, t]) [(.d x, 1, 1)]) o x
        ((o.snap.rd y).sshiftRight ((o.snap.rd t).toNat % 32)))))
    ∧ (Issues s sp (macOf (dReads [y, t]) [(.d x, 2, 2)]) o →
      exec (.mulr sp sat x y t) s = .next (s.setCore sp (aluDone (macOf (dReads [y, t]) [(.d x, 2, 2)]) o x sat
        (((o.snap.rd y).toInt * (o.snap.rd t).toInt + 2 ^ 30) / 2 ^ 31))))
    ∧ (Issues s sp (macOf (dReads [y]) [(.d x, 1, 1)]) o →
      exec (.shl sp sat x y true t) s = .next (s.setCore sp (aluDone (macOf (dReads [y]) [(.d x, 1, 1)]) o x sat
        ((o.snap.rd y).toInt * 2 ^ t)))
      ∧ exec (.shr sp x y true t) s = .next (s.setCore sp (movDone (macOf (dReads [y]) [(.d x, 1, 1)]) o x
        ((o.snap.rd y).sshiftRight t))))

/-- R276, R278, R289: `and`, `or`, `xor`, `min`, `max`, `mov`, `abs` and `neg` write d[X]; only `abs` and `neg` of −2^31 overflow, and set
OVR then. Nothing else of the machine changes. -/
def Obligations.SpokeLogic : Prop :=
  ∀ (s : State) (sp x y t : Nat) (sat : Bool) (o : Core), x < 32 → y < 32 → t < 32 →
    (Issues s sp (macOf (dReads [y, t]) [(.d x, 1, 1)]) o →
      exec (.and sp x y t) s = .next (s.setCore sp (movDone (macOf (dReads [y, t]) [(.d x, 1, 1)]) o x (o.snap.rd y &&& o.snap.rd t)))
      ∧ exec (.or sp x y t) s = .next (s.setCore sp (movDone (macOf (dReads [y, t]) [(.d x, 1, 1)]) o x (o.snap.rd y ||| o.snap.rd t)))
      ∧ exec (.xor sp x y t) s = .next (s.setCore sp (movDone (macOf (dReads [y, t]) [(.d x, 1, 1)]) o x (o.snap.rd y ^^^ o.snap.rd t)))
      ∧ exec (.min sp x y t) s = .next (s.setCore sp (movDone (macOf (dReads [y, t]) [(.d x, 1, 1)]) o x
        (if (o.snap.rd y).slt (o.snap.rd t) then o.snap.rd y else o.snap.rd t)))
      ∧ exec (.max sp x y t) s = .next (s.setCore sp (movDone (macOf (dReads [y, t]) [(.d x, 1, 1)]) o x
        (if (o.snap.rd y).slt (o.snap.rd t) then o.snap.rd t else o.snap.rd y))))
    ∧ (Issues s sp (macOf (dReads [y]) [(.d x, 1, 1)]) o →
      exec (.mov sp x y) s = .next (s.setCore sp (movDone (macOf (dReads [y]) [(.d x, 1, 1)]) o x (o.snap.rd y)))
      ∧ exec (.abs sp sat x y) s = .next (s.setCore sp (aluDone (macOf (dReads [y]) [(.d x, 1, 1)]) o x sat
        (if (o.snap.rd y).msb then -(o.snap.rd y).toInt else (o.snap.rd y).toInt)))
      ∧ exec (.neg sp sat x y) s = .next (s.setCore sp (aluDone (macOf (dReads [y]) [(.d x, 1, 1)]) o x sat (-(o.snap.rd y).toInt))))

/-- R274, R275, R289, R295: `mac1`, `mac4.v`, `mac4.b` and `mac4.w` add exact products to acc[A], or lane by lane to acc[A] to acc[A+3]
with A 0 or 4; NEG negates the products, Z starts from 0, an accumulation outside 72 bits sets OVA. `mac4.w` then moves the window on:
d[X+1] to d[X+3] take what its data operands held at issue. -/
def Obligations.SpokeMultiplyAccumulate : Prop :=
  ∀ (s : State) (sp a x y : Nat) (sat z neg : Bool) (o : Core) (sgn : Int), sgn = (if neg then -1 else 1) → x < 32 → y < 32 →
    (∀ k, a < 8 → k = macOf (dReads [x, y] ++ accRead z a) [(.acc a, 1, 2)] → Issues s sp k o →
      exec (.mac1 sp sat a x y z neg) s = .next (s.setCore sp (noteWrites k (accDone o sat z
        [(a, sgn * ((o.snap.rd x).toInt * (o.snap.rd y).toInt))]))))
    ∧ (∀ k, (a = 0 ∨ a = 4) → x % 4 = 0 → y % 4 = 0 →
      k = macOf (dReads [x, x + 1, x + 2, x + 3, y, y + 1, y + 2, y + 3] ++ acc4Reads z a) (acc4Writes a) → Issues s sp k o →
      exec (.mac4V sp sat a x y z neg) s = .next (s.setCore sp (noteWrites k (accDone o sat z
        ((List.range 4).map fun j => (a + j, sgn * ((o.snap.rd (x + j)).toInt * (o.snap.rd (y + j)).toInt)))))))
    ∧ (∀ k, (a = 0 ∨ a = 4) → x % 4 = 0 → k = macOf (dReads [x, x + 1, x + 2, x + 3, y] ++ acc4Reads z a) (acc4Writes a) →
      Issues s sp k o →
      exec (.mac4B sp sat a x y z neg) s = .next (s.setCore sp (noteWrites k (accDone o sat z
        ((List.range 4).map fun j => (a + j, sgn * ((o.snap.rd (x + j)).toInt * (o.snap.rd y).toInt)))))))
    ∧ (∀ k r, (a = 0 ∨ a = 4) → x % 4 = 0 →
      k = macOf (acc4Reads z a) (acc4Writes a ++ [(.d (x + 1), 1, 1), (.d (x + 2), 1, 1), (.d (x + 3), 1, 1)]) → Issues s sp k o →
      r = accDone o sat z ((List.range 4).map fun j => (a + j, sgn * ((visibleD o (x + j)).toInt * (visibleD o y).toInt))) →
      exec (.mac4W sp sat a x y z neg) s = .next (s.setCore sp (noteWrites k { r with
        regs := { r.regs with
          d := ((o.regs.d.set (x + 1) (visibleD o x)).set (x + 2) (visibleD o (x + 1))).set (x + 3) (visibleD o (x + 2)) } })))

/-- R279, R289, R290: `cmac` adds the complex product of (d[X], d[X+1]) and (d[Y], d[Y+1]), its second factor conjugated with CONJ and the
whole negated with NEG, to acc[A] and acc[A+1]; the control slot's `cmac` does so with A, X and Y twice its fields, in a bundle without
another CMAC. -/
def Obligations.SpokeComplexMultiply : Prop :=
  ∀ (s : State) (sp a x y : Nat) (sat z : Bool) (o : Core) (re im : Int → Int → Int → Int → Int),
    (∀ p q u v, re p q u v = p * u - q * v) → (∀ p q u v, im p q u v = p * v + q * u) →
    (∀ k (neg conj : Bool) (d sgn : Int), a < 8 → x < 32 → y < 32 → a % 2 = 0 → x % 2 = 0 → y % 2 = 0 →
      d = (if conj then -(o.snap.rd (y + 1)).toInt else (o.snap.rd (y + 1)).toInt) → sgn = (if neg then -1 else 1) →
      k = macOf (dReads [x, x + 1, y, y + 1] ++ accRead z a ++ accRead z (a + 1)) [(.acc a, 1, 2), (.acc (a + 1), 1, 2)] →
      Issues s sp k o →
      exec (.cmac sp sat a x y z neg conj) s = .next (s.setCore sp (noteWrites k { accDone o sat z
        [(a, sgn * re (o.snap.rd x).toInt (o.snap.rd (x + 1)).toInt (o.snap.rd y).toInt d),
         (a + 1, sgn * im (o.snap.rd x).toInt (o.snap.rd (x + 1)).toInt (o.snap.rd y).toInt d)] with cmac := true })))
    ∧ (∀ k q, a < 4 → x < 16 → y < 16 → o.cmac = false →
      k = ctlOf (dReads [2 * x, 2 * x + 1, 2 * y, 2 * y + 1] ++ accRead z (2 * a) ++ accRead z (2 * a + 1))
        [(.acc (2 * a), 1, 2), (.acc (2 * a + 1), 1, 2)] → Issues s sp k o →
      q = accDone o sat z
        [(2 * a, re (o.snap.rd (2 * x)).toInt (o.snap.rd (2 * x + 1)).toInt (o.snap.rd (2 * y)).toInt (o.snap.rd (2 * y + 1)).toInt),
         (2 * a + 1, im (o.snap.rd (2 * x)).toInt (o.snap.rd (2 * x + 1)).toInt (o.snap.rd (2 * y)).toInt
           (o.snap.rd (2 * y + 1)).toInt)] →
      exec (.cmacShort sp sat a x y z) s = .next (s.setCore sp (noteWrites k (endBundle 0 { q with cmac := true }))))

/-- R277, R289: `red` writes d[X] the accumulator reduced with rounding, `floor ((a + 2^(30-SH)) / 2^(31-SH))` for SH from -16 to 15, and
`red4` does so for four accumulators; `aclr` clears acc[A], or with Q acc[A] to acc[A+3]. -/
def Obligations.SpokeReduce : Prop :=
  ∀ (s : State) (sp a x : Nat) (sat : Bool) (sh : BitVec 5) (o : Core) (red : Int → Int),
    (∀ v : Int, red v = (v + 2 ^ (30 - sh.toInt).toNat) / 2 ^ (31 - sh.toInt).toNat) →
    (a < 8 → x < 32 → Issues s sp (macOf [(.acc a, false)] [(.d x, 2, 2)]) o →
      exec (.red sp sat a x sh) s = .next (s.setCore sp (aluDone (macOf [(.acc a, false)] [(.d x, 2, 2)]) o x sat (red (o.snap.ra a)))))
    ∧ (∀ k, (a = 0 ∨ a = 4) → x < 32 → x % 4 = 0 →
      k = macOf ((List.range 4).map fun j => (CReg.acc (a + j), false)) ((List.range 4).map fun j => (CReg.d (x + j), 2, 2)) →
      Issues s sp k o →
      exec (.red4 sp sat a x sh) s = .next (s.setCore sp (noteWrites k { o with
        regs := { o.regs with
          d := (List.range 4).foldl (fun d j => d.set (x + j) (satWord sat (red (o.snap.ra (a + j))))) o.regs.d,
          ovr := o.regs.ovr || (List.range 4).any fun j => wordOver (red (o.snap.ra (a + j))) },
        setR := o.setR || (List.range 4).any fun j => wordOver (red (o.snap.ra (a + j))) })))
    ∧ (a < 8 → Issues s sp (macOf [] [(.acc a, 1, 2)]) o →
      exec (.aclr sp a false) s = .next (s.setCore sp (noteWrites (macOf [] [(.acc a, 1, 2)]) { o with
        regs := { o.regs with acc := o.regs.acc.set a 0 } })))
    ∧ ((a = 0 ∨ a = 4) → Issues s sp (macOf [] (acc4Writes a)) o →
      exec (.aclr sp a true) s = .next (s.setCore sp (noteWrites (macOf [] (acc4Writes a)) { o with
        regs := { o.regs with acc := (((o.regs.acc.set a 0).set (a + 1) 0).set (a + 2) 0).set (a + 3) 0 } })))

/-- R288 to R290, R287: `lnop`, `mnop` and `cnop` have no effect of their own, `cnop` ends the bundle in sequence; MOVI writes its
immediate to d[R], p[R], n[R], rb[R] or rl[R]; `movp` copies between d[D] and an address register. R275, R290: `flag`
with RD reads FLAGS, bit 0 OVA and bit 1 OVR, into d[D]; it clears the flags it names, except that a flag that its own bundle sets is left
open (log 24: any value of it), and leaves the others. -/
def Obligations.SpokeMoves : Prop :=
  (∀ (s : State) (sp r : Nat) (imm : Word) (o : Core),
    (Issues s sp (lsOf [] []) o → exec (.lnop sp) s = .next (s.setCore sp o))
    ∧ (Issues s sp (macOf [] []) o → exec (.mnop sp) s = .next (s.setCore sp o))
    ∧ (Issues s sp (ctlOf [] []) o → exec (.cnop sp) s = .next (s.setCore sp (endBundle 0 o)))
    ∧ (r < 32 → Issues s sp ⟨2, true, true, [], [(.d r, 1, 1)]⟩ o →
      exec (.moviD sp r imm) s = .next (s.setCore sp { o with
        written := o.written ++ [.d r], regs := { o.regs with d := o.regs.d.set r imm } }))
    ∧ (r < 8 →
      (Issues s sp ⟨2, true, true, [], [(.p r, 1, 1)]⟩ o →
        exec (.moviP sp r imm) s = .next (s.setCore sp { o with
          written := o.written ++ [.p r], regs := { o.regs with p := o.regs.p.set r imm } }))
      ∧ (Issues s sp ⟨2, true, true, [], [(.n r, 1, 1)]⟩ o →
        exec (.moviN sp r imm) s = .next (s.setCore sp { o with
          written := o.written ++ [.n r], regs := { o.regs with n := o.regs.n.set r imm } }))
      ∧ (Issues s sp ⟨2, true, true, [], [(.rb r, 1, 1)]⟩ o →
        exec (.moviRb sp r imm) s = .next (s.setCore sp { o with
          written := o.written ++ [.rb r], regs := { o.regs with rb := o.regs.rb.set r imm } }))
      ∧ (Issues s sp ⟨2, true, true, [], [(.rl r, 1, 1)]⟩ o →
        exec (.moviRl sp r imm) s = .next (s.setCore sp { o with
          written := o.written ++ [.rl r], regs := { o.regs with rl := o.regs.rl.set r imm } })))
    ∧ (∀ kind d, kind < 4 → r < 8 → d < 32 →
      (Issues s sp (ctlOf [(addrName kind r, false)] [(.d d, 1, 1)]) o →
        exec (.movp sp kind r true d) s = .next (s.setCore sp { endBundle 0 o with
          written := o.written ++ [.d d], regs := { o.regs with d := o.regs.d.set d (o.snap.addrReg kind r) } }))
      ∧ (Issues s sp (ctlOf [(.d d, false)] [(addrName kind r, 1, 1)]) o →
        exec (.movp sp kind r false d) s = .next (s.setCore sp { endBundle 0 o with
          written := o.written ++ [addrName kind r], regs := o.regs.setAddrReg kind r (o.snap.rd d) }))))
  ∧ (
    ∀ (s : State) (sp d : Nat) (rd clrOvr clrOva : Bool) (o : Core) (k : SlotSpec), d < 32 →
      k = ctlOf [] (if rd then [(.d d, 1, 1)] else []) → Issues s sp k o →
      ∃ ova ovr : Bool,
        exec (.flag sp rd d clrOvr clrOva) s = .next (s.setCore sp { endBundle 0 o with
          written := o.written ++ (if rd then [.d d] else []),
          regs := { o.regs with
            d := if rd then o.regs.d.set d (BitVec.ofNat 32 ((if o.snap.ova then 1 else 0) + (if o.snap.ovr then 2 else 0)))
              else o.regs.d,
            ova := ova, ovr := ovr } })
        ∧ (clrOva = false → ova = o.regs.ova) ∧ (clrOva = true → o.setA = false → ova = false)
        ∧ (clrOvr = false → ovr = o.regs.ovr) ∧ (clrOvr = true → o.setR = false → ovr = false))

/-- R280 to R288: a load reads its words, 4 bytes apart, through p[P], into consecutive data registers; `ld.ww` reads one word through each
of two pointers, `ld.a` an accumulator from three words. The pointer is post-modified by the mode, and bank conflicts cost extra
cycles. Nothing in SRAM changes. -/
def Obligations.SpokeLoads : Prop :=
  ∀ (s : State) (sp d p mode n : Nat) (o : Core) (w : Nat → Word) (ptr : List Word),
    p < 8 → mode < 3 → n < 8 → ptrAligned o.snap p = true →
    (∀ i, w i = o.sram.word (wordAddr o.snap p i)) →
    ptr = (match postModify o.snap mode p n with | none => o.regs.p | some v => o.regs.p.set p v) →
    (∀ k, d < 32 → mayAccess o (wordAddr o.snap p 0) 4 false = true →
      k = lsOf (addrReads p mode n) (addrWrites p mode ++ [(.d d, 3, 3)]) → Issues s sp k o →
      exec (.ldW sp d p mode n) s = .next (s.setCore sp (noteWrites k { o with
        extra := o.extra + bankExtra [wordAddr o.snap p 0], regs := { o.regs with d := o.regs.d.set d (w 0), p := ptr } })))
    ∧ (∀ k, d < 32 → d % 2 = 0 → (∀ i < 2, mayAccess o (wordAddr o.snap p i) 4 false = true) →
      k = lsOf (addrReads p mode n) (addrWrites p mode ++ [(.d d, 3, 3), (.d (d + 1), 3, 3)]) → Issues s sp k o →
      exec (.ldD sp d p mode n) s = .next (s.setCore sp (noteWrites k { o with
        extra := o.extra + bankExtra ((List.range 2).map (wordAddr o.snap p)),
        regs := { o.regs with d := (o.regs.d.set d (w 0)).set (d + 1) (w 1), p := ptr } })))
    ∧ (∀ k, d < 32 → d % 4 = 0 → (∀ i < 4, mayAccess o (wordAddr o.snap p i) 4 false = true) →
      k = lsOf (addrReads p mode n) (addrWrites p mode ++ [(.d d, 3, 3), (.d (d + 1), 3, 3), (.d (d + 2), 3, 3), (.d (d + 3), 3, 3)]) →
      Issues s sp k o →
      exec (.ldQ sp d p mode n) s = .next (s.setCore sp (noteWrites k { o with
        extra := o.extra + bankExtra ((List.range 4).map (wordAddr o.snap p)),
        regs := { o.regs with
          d := (((o.regs.d.set d (w 0)).set (d + 1) (w 1)).set (d + 2) (w 2)).set (d + 3) (w 3), p := ptr } })))
    ∧ (∀ k, d < 8 → (∀ i < 3, mayAccess o (wordAddr o.snap p i) 4 false = true) →
      k = lsOf (addrReads p mode n) (addrWrites p mode ++ [(.acc d, 3, 3)]) → Issues s sp k o →
      exec (.ldA sp d p mode n) s = .next (s.setCore sp (noteWrites k { o with
        extra := o.extra + bankExtra ((List.range 3).map (wordAddr o.snap p)),
        regs := { o.regs with
          acc := o.regs.acc.set d ((w 0).toNat + 2 ^ 32 * (w 1).toNat + 2 ^ 64 * ((w 2).extractLsb' 0 8).toInt), p := ptr } })))
    ∧ (∀ k db pb, d < 32 → db < 32 → pb < 8 → d ≠ db → p ≠ pb → ptrAligned o.snap pb = true →
      mayAccess o (wordAddr o.snap p 0) 4 false = true → mayAccess o (wordAddr o.snap pb 0) 4 false = true →
      k = lsOf (addrReads p 1 p ++ addrReads pb 1 pb) [(.p p, 1, 1), (.p pb, 1, 1), (.d d, 3, 3), (.d db, 3, 3)] → Issues s sp k o →
      exec (.ldWW sp d p db pb) s = .next (s.setCore sp (noteWrites k { o with
        extra := o.extra + bankExtra [wordAddr o.snap p 0, wordAddr o.snap pb 0],
        regs := { o.regs with
          d := (o.regs.d.set d (w 0)).set db (o.sram.word (wordAddr o.snap pb 0)),
          p := (o.regs.p.set p (postAdd o.snap p p)).set pb (postAdd o.snap pb pb) } })))

/-- R280 to R288: a store writes its words, 4 bytes apart, through p[P]: d[D] and up, or the three words of acc[D], the last one
sign-extended; then the pointer is post-modified. Each stored byte holds the byte of the last word that covers it; every other byte of
SRAM, every register but the pointer, and the rest of the machine are unchanged. -/
def Obligations.SpokeStores : Prop :=
  ∀ (s : State) (sp d p mode n cnt : Nat) (o : Core) (w : Nat → Word) (ptr : List Word) (c : Instr) (reads : List (CReg × Bool)) (k : SlotSpec),
    p < 8 → mode < 3 → n < 8 → ptrAligned o.snap p = true →
    ptr = (match postModify o.snap mode p n with | none => o.regs.p | some v => o.regs.p.set p v) →
    (∀ i < cnt, mayAccess o (wordAddr o.snap p i) 4 true = true) →
    (c = .stW sp d p mode n ∧ cnt = 1 ∧ d < 32 ∧ reads = [(.d d, false)] ∧ (∀ i, w i = o.snap.rd (d + i))
      ∨ c = .stD sp d p mode n ∧ cnt = 2 ∧ d < 32 ∧ d % 2 = 0 ∧ reads = [(.d d, false), (.d (d + 1), false)] ∧ (∀ i, w i = o.snap.rd (d + i))
      ∨ c = .stQ sp d p mode n ∧ cnt = 4 ∧ d < 32 ∧ d % 4 = 0 ∧
        reads = [(.d d, false), (.d (d + 1), false), (.d (d + 2), false), (.d (d + 3), false)] ∧ (∀ i, w i = o.snap.rd (d + i))
      ∨ c = .stA sp d p mode n ∧ cnt = 3 ∧ d < 8 ∧ reads = [(.acc d, false)] ∧
        (∀ i, w i = BitVec.ofInt 32 (o.snap.ra d / 2 ^ (32 * i)))) →
    k = lsOf (addrReads p mode n ++ reads) (addrWrites p mode) → Issues s sp k o →
    ∃ m undo, exec c s = .next (s.setCore sp (noteWrites k { o with
        extra := o.extra + bankExtra ((List.range cnt).map (wordAddr o.snap p)), sram := m, undo := undo,
        regs := { o.regs with p := ptr } }))
      ∧ (∀ i j, i < cnt → j < 4 →
        (∀ i', i < i' → i' < cnt → ¬(wordAddr o.snap p i' ≤ wordAddr o.snap p i + j ∧ wordAddr o.snap p i + j < wordAddr o.snap p i' + 4)) →
        m.get (wordAddr o.snap p i + j) = (w i).extractLsb' (8 * j) 8)
      ∧ (∀ a, (∀ i < cnt, ¬(wordAddr o.snap p i ≤ a ∧ a < wordAddr o.snap p i + 4)) → m.get a = o.sram.get a)

/-- R283, R285: with a rim of a length that is not 0, whose end does not pass 2^32, every word address of an access and the pointer after
mode 1 lie in the rim, and their offsets from its base are those of p modulo its length. -/
def Obligations.SpokeRims : Prop :=
  ∀ (r : Regs) (p n i rb rl : Nat), rb = (r.addrReg 2 p).toNat / 4 * 4 → rl = (r.addrReg 3 p).toNat / 4 * 4 → 0 < rl → rb + rl ≤ 2 ^ 32 →
    (rb ≤ wordAddr r p i ∧ wordAddr r p i < rb + rl
      ∧ (wordAddr r p i : Int) % rl = ((r.addrReg 0 p).toNat + 4 * i : Int) % rl)
    ∧ (rb ≤ (postAdd r p n).toNat ∧ (postAdd r p n).toNat < rb + rl
      ∧ ((postAdd r p n).toNat : Int) % rl = ((r.addrReg 0 p).toNat + (r.addrReg 1 n).toInt : Int) % rl)

/-- R290, R294: where the bundle is not the last of an active loop's body, `loop` and `loopr` start a loop of their level over the next
`body` bundles, replacing one of that level; a `loopr` with a count of 0 skips the body and costs 2 cycles. A taken `br`, `bz` or `bnz`
goes on at pc + 8 times its offset, costs 2 cycles and leaves the loops whose body holds the target; a branch not taken goes on in
sequence. -/
def Obligations.SpokeControl : Prop :=
  ∀ (s : State) (sp reg body count : Nat) (lv : Bool) (off : Int) (o e q z : Core), atLoopEnd o = false → 1 ≤ body → body ≤ 32 → reg < 32 →
    e = endBundle 0 { o with loops := o.loops.filter fun l => l.level != lv } →
    z = endBundle 2 { o with loops := o.loops.filter fun l => l.level != lv } →
    q = { o with
      rank := 0, next := o.issue + 1 + o.extra + 2, pc := (((o.pc : Int) + 8 * off) % 2 ^ 32).toNat,
      loops := o.loops.filter fun l =>
        decide ((l.first : Int) ≤ ((o.pc : Int) + 8 * off) % 2 ^ 32) && decide (((o.pc : Int) + 8 * off) % 2 ^ 32 ≤ (l.last : Int)) } →
    (1 ≤ count → count ≤ 64 → Issues s sp (ctlOf [] []) o →
      exec (.loop sp lv body count) s = .next (s.setCore sp { e with
        loops := { level := lv, first := e.pc, last := e.pc + 8 * (body - 1), left := count } :: e.loops }))
    ∧ (Issues s sp (ctlOf (dReads [reg]) []) o →
      ((o.snap.rd reg).toNat % 65536 ≠ 0 →
        exec (.loopr sp lv body reg) s = .next (s.setCore sp { e with
          loops := { level := lv, first := e.pc, last := e.pc + 8 * (body - 1), left := (o.snap.rd reg).toNat % 65536 } :: e.loops }))
      ∧ ((o.snap.rd reg).toNat % 65536 = 0 →
        exec (.loopr sp lv body reg) s = .next (s.setCore sp { z with pc := (z.pc + 8 * body) % 2 ^ 32 })))
    ∧ (-2048 ≤ off → off < 2048 → Issues s sp (ctlOf [] []) o → exec (.br sp off) s = .next (s.setCore sp q))
    ∧ (-64 ≤ off → off < 64 → Issues s sp (ctlOf (dReads [reg]) []) o →
      exec (.bz sp reg off) s = .next (s.setCore sp (if o.snap.rd reg = 0 then q else endBundle 0 o))
      ∧ exec (.bnz sp reg off) s = .next (s.setCore sp (if o.snap.rd reg = 0 then endBundle 0 o else q)))

/-- R296 to R298: with fewer than 8 descriptors outstanding, `dma` queues a descriptor that breaks no rule; `dwait` ends its bundle when at
most K are outstanding and stalls otherwise; DMA_COMPLETE moves the bytes between SRAM and the region of the instance's copy, changes
no other byte of either, and retires the descriptors at the head that have moved.
The model's own choices in it are log entries 93 and 95. -/
def Obligations.SpokeDma : Prop :=
  ∀ (s : State) (sp d k i : Nat) (o c : Core) (q : DmaDesc) (p : List Name) (x : Inst) (r : InstCopy),
    (d < 32 → d % 4 = 0 → o.dmaq.length < 8 → (o.snap.rd (d + 3)).toNat / 2 = 0 → (o.snap.rd (d + 1)).toNat / 2 ^ 28 < 2 →
      q = { loc := (o.snap.rd d).toNat, dram := decide ((o.snap.rd (d + 1)).toNat / 2 ^ 28 = 1),
            offset := (o.snap.rd (d + 1)).toNat % 2 ^ 28, len := (o.snap.rd (d + 2)).toNat, write := (o.snap.rd (d + 3)).getLsbD 0,
            moved := false } →
      q.loc % 4 = 0 → q.offset % 4 = 0 → q.len % 4 = 0 → 4 ≤ q.len → q.len ≤ 65536 → q.offset + q.len ≤ regionSize s o q.dram →
      inAreas o.areas q.loc q.len (!q.write) = true → Issues s sp (ctlOf (dReads [d, d + 1, d + 2, d + 3]) []) o →
      exec (.dma sp d) s = .next (s.setCore sp (endBundle 0 { o with dmaq := o.dmaq ++ [q] })))
    ∧ (k < 8 → Issues s sp (ctlOf [] []) o →
      (o.dmaq.length ≤ k → exec (.dwait sp k) s = .next (s.setCore sp (endBundle 0 o)))
      ∧ (k < o.dmaq.length →
        exec (.dwait sp k) s = .next (s.setCore sp { o with stall := some { k := k, issue := none, since := s.clk.tally } })))
    ∧ (s.coreAt sp = some c → c.dmaq[i]? = some q → c.inst = some p → q.moved = false → s.instAt p = some x → x.copies[c.copy]? = some r →
      ∃ (sram region : Mem) (m : Core), exec (.dmaComplete sp i) s = .next ((s.setCore sp m).updInst p fun x =>
          { x with copies := x.copies.set c.copy (if q.dram then { r with dram := region } else { r with hub := region }) })
        ∧ m.sram = sram ∧ m.regs = c.regs
        ∧ (c.stall = none → m.dmaq = (c.dmaq.set i { q with moved := true }).dropWhile DmaDesc.moved)
        ∧ (q.write = true → sram = c.sram
          ∧ ∀ a, region.get a = if q.offset ≤ a ∧ a < q.offset + q.len then c.sram.get (q.loc + (a - q.offset))
            else (if q.dram then r.dram else r.hub).get a)
        ∧ (q.write = false → region = (if q.dram then r.dram else r.hub)
          ∧ ∀ a, sram.get a = if q.loc ≤ a ∧ a < q.loc + q.len then region.get (q.offset + (a - q.loc)) else c.sram.get a))

/-- R300, R301, R308: INSTANCE_ENTRY starts an instance that the spoke carries, is not FAULTED and has not run its copy in this frame: data
registers, accumulators, flags and loops are cleared, OUTPUTS is zero, the fence is CYCLES and the pc ENTRY_PC. `exit` ends the body:
the primary copy counts OV_FRAMES where a flag is set and updates PEAK, and NEW_STATE is kept. INSTANCE_DRAIN_DONE frees the spoke.
The model's own choices in it are log entry 98. -/
def Obligations.SpokeStages : Prop :=
  ∀ (s : State) (sp t k : Nat) (p : List Name) (c o : Core) (x : Inst),
    (s.coreAt sp = some c → s.snd.running = some t → s.instAt p = some x → copyOn s (.inst p) sp = some k → c.inst = none →
      x.faulted = false → k ∉ x.ran → sp ∉ s.snd.complete → sp ∉ s.snd.aborted →
      ∃ m, exec (.instanceEntry sp p) s = .next ((s.setCore sp m).updInst p fun x => { x with ran := k :: x.ran })
        ∧ m.inst = some p ∧ m.copy = k ∧ m.mode = .body ∧ m.stall = none ∧ m.fence = (imageHdr (instImage s p)).cycles
        ∧ m.pc = Config.areaBase sp p 8 + (imageHdr (instImage s p)).entryPc ∧ m.loops = []
        ∧ m.regs.d = List.replicate 32 0 ∧ m.regs.acc = List.replicate 8 0 ∧ m.regs.ova = false ∧ m.regs.ovr = false
        ∧ ∀ i < 64 * (imageHdr (instImage s p)).outputs, m.sram.get (Config.areaBase sp p 2 + i) = 0)
    ∧ (s.coreAt sp = some c → c.inst = some p → c.mode = .body → o.inst = some p → atLoopEnd o = false → Issues s sp (ctlOf [] []) o →
      ∃ u m, exec (.exit sp) s = .next u ∧ m = { endBundle 0 o with mode := .drain }
        ∧ u = { (s.setCore sp m).updInst p fun x => { x with
              ovFrames := if m.copy = 0 ∧ (m.regs.ova = true ∨ m.regs.ovr = true) then min (x.ovFrames + 1) 0xFFFFFFFF else x.ovFrames,
              peak := if m.copy = 0 then max x.peak m.issue else x.peak,
              copies := x.copies.modify m.copy fun k => { k with
                state := m.sram.bytes (Config.areaBase sp p 5) (imageHdr (instImage s p)).state } } with
            snd := { s.snd with published := u.snd.published } })
    ∧ (s.coreAt sp = some c → c.inst = some p → c.mode = .drain → c.dmaq = [] →
      exec (.instanceDrainDone sp) s = .next (s.updSpoke sp fun y => { y with
        used := y.used + (12 + ((imageHdr (instImage s p)).state + 31) / 32 + 2 * (imageHdr (instImage s p)).outputs) + c.issue + 8,
        core := { c with inst := none, areas := [], mode := .firmware } }))

/-- R291, R302: an illegal bundle of an instance, and a fence that has run out, stop it with codes 1 and 4: the bundle has no effect on
registers, and for the first copy to fault in the frame FAULTS rises by 1, saturating, and FAULT_CODE records the code. -/
def Obligations.SpokeFaults : Prop :=
  ∀ (s : State) (sp : Nat) (bundle : BitVec 64) (p : List Name) (c : Core) (x : Inst),
    s.coreAt sp = some c → c.inst = some p → c.mode = .body → c.stall = none → c.rank = 0 → s.instAt p = some x → x.now = [] →
    (bundleIllegal (atLoopEnd c) bundle.toNat = true →
      ∃ u m y, exec (.illegalBundle sp bundle) s = .next u ∧ u.coreAt sp = some m ∧ m.mode = .stopped ∧ m.regs = c.regs ∧ m.sram = c.sram
        ∧ u.instAt p = some y ∧ y.faults = min (x.faults + 1) 0xFFFFFFFF ∧ y.code = 1 ∧ y.now = [(c.copy, 1)] ∧ y.copies = x.copies
        ∧ u = { s with spokes := u.spokes, insts := u.insts } ∧ ∀ i, i ≠ sp → u.spokes[i]? = s.spokes[i]?)
    ∧ (c.fence < c.next →
      ∃ u m y, exec (.fenceReached sp) s = .next u ∧ u.coreAt sp = some m ∧ m.mode = .stopped ∧ m.regs = c.regs ∧ m.sram = c.sram
        ∧ u.instAt p = some y ∧ y.faults = min (x.faults + 1) 0xFFFFFFFF ∧ y.code = 4 ∧ y.now = [(c.copy, 4)] ∧ y.copies = x.copies
        ∧ u = { s with spokes := u.spokes, insts := u.insts } ∧ ∀ i, i ≠ sp → u.spokes[i]? = s.spokes[i]?)

/-- R318 to R324, R331 to R334, R346: each received period moves its port on, in ACQUIRING by a clean period, in LOCKED to the next
predicted edge with the anomaly it shows; its masked samples join the FIFO of a 48 kHz port, or the words of the gear channel; and the
slots in force change at the slot change point.
The model's own choices in it are log entries 57, 58 and 92. -/
def Obligations.PortPeriods : Prop :=
  ∀ (s : State) (n start : Nat),
    (∀ x bclks words st ws, s.saiAt n = some x → x.change = none → st = periodStep (portHz s (.sai n)) s.clk.holdover (bclks == 32 * x.slots) 1 start x.st →
      ws = (List.range x.slots).map (fun i => if x.rxMask.testBit i = true then
        ((words : List Word).getD i 0).toInt / 2 ^ (32 - pN s (.sai n) 0x103) * 2 ^ (32 - pN s (.sai n) 0x103) else 0) →
      (portHz s (.sai n) = 48000 → (st.fifo.length + 1) * x.slots ≤ 32 →
        exec (.tdmPeriod n start bclks words) s = .next (s.updSai n fun _ => { x with st := { st with fifo := st.fifo ++ [(start, ws)] }, bcnt := min bclks 1023 }))
      ∧ (portHz s (.sai n) = 48000 → 32 < (st.fifo.length + 1) * x.slots → st.state ≠ 2 →
        exec (.tdmPeriod n start bclks words) s = .next (s.updSai n fun _ =>
          { x with st := st, bcnt := min bclks 1023, slip := true, excess := min (x.excess + x.slots) 0xFFFFFFFF }))
      ∧ (portHz s (.sai n) ≠ 48000 → exec (.tdmPeriod n start bclks words) s = .next (gearFeed (.sai n) ws (s.updSai n fun _ => { x with st := st, bcnt := min bclks 1023 }))))
    ∧ (∀ (hz : Nat) hold code (p : PortSt),
      (p.state = 1 → p.clean ≠ 0 → p.clean < 479 → (((start : Int) - p.first) * hz - p.clean * 24576000).natAbs ≤ 8 * hz →
        periodStep hz hold true code start p = { p with last := start, clean := p.clean + 1, count := 0 })
      ∧ (p.state = 2 → p.anomaly = none → (((start : Int) - p.base) * hz - (p.count + 1 : Nat) * 24576000).natAbs ≤ 8 * hz →
        periodStep hz hold true code start p = { p with last := start, count := p.count + 1 })
      ∧ (p.state = 2 → p.anomaly = none → periodStep hz hold false code start p =
        { p with last := start, count := p.count + 1, anomaly := some (code, refInstant hz { p with last := start } (p.count + 1)) })
      ∧ (p.state = 3 → periodStep hz hold true code start p = { p with last := start, state := 1, clean := 1, first := start })
      ∧ (p.state = 4 → hold = true → periodStep hz hold true code start p = { p with last := start }))
    ∧ (∀ (x : SaiPort) b, (∀ y ∈ s.sais, y.n = n → y = x) → x.n = n → x.change = some b → b ≤ start →
      exec (.slotChange n start) s = .next (s.updSai n fun _ =>
        { x with slots := pN s (.sai n) 0x105, rxMask := pN s (.sai n) 0x106, txMask := pN s (.sai n) 0x107, change := none }))
    ∧ (∀ x pre a b, s.aesiAt n = some x → x.sinceZ = none → pre ≠ .z → (∀ y ∈ s.aesis, y.n = n → y = x) → x.chans.length = 2 →
      ∃ t : State, ∃ y : AesIn, exec (.aes3Frame n start pre a b) s = .next t ∧ t = { s with aesis := t.aesis, gears := t.gears }
        ∧ (∀ z ∈ t.aesis, z.n = n → z = y) ∧ (∀ z ∈ s.aesis, z.n ≠ n → z ∈ t.aesis)
        ∧ y.parity = min (x.parity + ((if a.parity then 1 else 0) + if b.parity then 1 else 0)) 0xFFFFFFFF
        ∧ y.biph = min (x.biph + ((if a.biph then 1 else 0) + if b.biph then 1 else 0)) 0xFFFFFFFF
        ∧ y.sinceZ = none ∧ y.block = min x.block 0xFFFFFFFF
        ∧ y.chans.map AesChan.prev = (x.chans.zip [a, b]).map (fun e => if e.2.parity || e.2.biph then e.1.prev else ((256 * (e.2.sample % 2 ^ 24) : Nat) : Int) - if 2 ^ 23 ≤ e.2.sample % 2 ^ 24 then 2 ^ 32 else 0)
        ∧ y.chans.map AesChan.v = (x.chans.zip [a, b]).map fun e => e.2.v)

/-- R323 to R328, R333, R335, R339, R340: at a frame boundary a port is LOCKED after 480 clean periods, in MISMATCH after an anomaly, and
DEAD after a stop, each with its event; channel status and validity change where their rules let them; a stuck microphone is marked for
the next boundary, and one that has recovered too. -/
def Obligations.PortStates : Prop :=
  ∀ (s : State),
    (∀ id p, s.portAt id = some p → s.clk.tally % 8192 = 0 →
      (p.state = 1 → p.stop = none → 480 ≤ p.clean → ∃ t : State, exec (.portLocked id) s = .next t
        ∧ t = { s with sais := t.sais, aesis := t.aesis, gears := t.gears, rings := t.rings, regs := t.regs,
                       ledg := { s.ledg with queue := t.ledg.queue, suppressed := t.ledg.suppressed } }
        ∧ t.portAt id = some { p with
          state := 2, phase := p.base % 512, late := decide (448 ≤ p.base % 512), lockedAt := s.clk.tally, anomaly := none, stop := none, muteAt := none })
      ∧ (∀ c q, p.state = 2 → p.stop = none → p.anomaly = some (c, q) → ∃ t : State, exec (.portMismatch id) s = .next t
        ∧ t = { s with sais := t.sais, aesis := t.aesis, gears := t.gears, rings := t.rings, regs := t.regs,
                       ledg := { s.ledg with queue := t.ledg.queue, suppressed := t.ledg.suppressed } }
        ∧ t.portAt id = some { p with
          state := 3, muteAt := some (s.clk.tally, (q + 1024) / 512 % 16), faults := min (p.faults + 1) 0xFFFFFFFF, anomaly := none, clean := 0 })
      ∧ (∀ c q, p.stop = some (c, q) → p.state = 1 ∨ p.state = 2 ∨ p.state = 3 → ∃ t : State, exec (.portDead id) s = .next t
        ∧ t = { s with sais := t.sais, aesis := t.aesis, gears := t.gears, rings := t.rings, regs := t.regs,
                       ledg := { s.ledg with queue := t.ledg.queue, suppressed := t.ledg.suppressed } }
        ∧ t.portAt id = some { p with
          state := 4, muteAt := if p.state = 2 then some (s.clk.tally, (q + 1024) / 512 % 16) else p.muteAt, faults := min (p.faults + 1) 0xFFFFFFFF,
          anomaly := none, stop := none, clean := 0, fifo := [] }))
    ∧ (∀ id p, s.portAt id = some p → p.state = 1 ∨ p.state = 2 ∨ p.state = 3 → p.stop = none →
      (∀ n, id = .sai n → exec (.portStopDetect id 1) s = .next (s.updPort id (stopPort (portHz s id) 1)))
      ∧ (p.last + 1024 ≤ s.clk.tally → (∀ n, id = .sai n → exec (.portStopDetect id 2) s = .next (s.updPort id (stopPort (portHz s id) 2)))
        ∧ (∀ n, id = .aesi n → exec (.portStopDetect id 3) s = .next (s.updPort id (stopPort (portHz s id) 3))))
      ∧ ∀ hz r, stopPort hz r p = { p with stop := some (r, refInstant hz p (p.count + 1)) })
    ∧ (∀ n ch, s.clk.tally % 8192 = 0 → exec (.aes3ValidityRearm n ch) s = .next { s with
        aesis := s.aesis.map fun x => if x.n = n then { x with chans := x.chans.modify ch fun c =>
          if c.vMute ≠ none ∧ 480 ≤ c.vRun then { c with vMute := none, vBack := some s.clk.tally, vSeen := none } else c } else x })
    ∧ (∀ n, s.clk.tally % (192 * 512) = 0 → exec (.aes3OutBlockStart n) s = .next { s with
        aesos := s.aesos.map fun x => if x.n = n then (match x.change with
          | some b => if b ≤ s.clk.tally then { x with
              mode := pN s (.aeso x.n) 0x101, csA := param s (.aeso x.n) 0x102, csB := param s (.aeso x.n) 0x103, change := none } else x
          | none => x) else x })
    ∧ (∀ m x, s.pdmAt m = some x →
      (∀ bit : Bool, (x.state = 1 ∨ x.state = 2) → x.deadAt = none → exec (.pdmStuck m bit) s = .next (raiseOwn 0x5006 .detect s.clk.tally (some (.pdm m))
        (if bit then 1 else 0) { s with pdms := s.pdms.map fun x => if x.n = m then { x with deadAt := some (s.clk.tally / 8192 * 8192 + 8192), backAt := none } else x }))
      ∧ (x.state = 4 → x.backAt = none → exec (.pdmRecover m) s = .next { s with
        pdms := s.pdms.map fun x => if x.n = m then { x with backAt := some (s.clk.tally / 8192 * 8192 + 8192) } else x }))

/-- R349 to R351, R540: WARMUP of a gear channel ends at the first block without it, a filter fade that is due leaves its new filter
resident, and a gear fault ends after 30 000 frames without a further one. -/
def Obligations.GearRules : Prop :=
  ∀ (s : State) (id : GearId) (g : Gear), s.gearAt id = some g → (∀ x ∈ s.gears, x.id = id → x = g) → s.clk.tally % 8192 = 0 →
    (∀ w, g.warmTo = some w → w ≤ s.clk.tally → (∀ k, id ≠ .pdm k) →
      exec (.gearWarm id) s = .next (raiseOwn 0x6002 .block s.clk.tally (some (gearNode id)) g.warmAll
        { s with gears := s.gears.map fun x => if x.id = id then { g with warmTo := none, rampAt := if g.byLock then some w else none } else x }))
    ∧ (g.warmTo = none → exec (.gearWarm id) s = .next s)
    ∧ (g.filter.len ≠ 0 → g.filter.len ≤ g.filter.pos → g.filter.pending = none →
      exec (.gearFadeDone id) s = .next (raiseOwn 0x6004 .boundary s.clk.tally (some (gearNode id)) g.filter.new
        { s with gears := s.gears.map fun x => if x.id = id then { g with filter := { g.filter with old := g.filter.new, len := 0, pos := 0 } } else x }))
    ∧ (∀ t, s.ladder.gearFaultAt = some t → t + 30000 * 8192 ≤ s.clk.tally → exec .gearFaultClear s = .next { s with ladder := { s.ladder with gearFaultAt := none } })

/-- R441, R445, R446: the writes of a pilot that have come to their instant are taken, ENABLE 1 from HIZ in SOFT_START with r = 0 and the
range stored for it; a RANGE_HIZ window of 5120 ticks ends in SOFT_START with r = 0, or in HIZ where the channel was STOPPING.
The model's own choices in it are log entry 36. -/
def Obligations.PilotRules : Prop :=
  ∀ (s : State) (n : Nat) (p : Pilot) (with_ : Pilot → State), s.pilots[n]? = some p → with_ = (fun q => { s with pilots := s.pilots.set n q }) →
    (∀ e tag v, p.due = [(e, tag, v)] →
      (s.clk.tally < e → exec (.pilotParamApply n) s = .next s)
      ∧ (e ≤ s.clk.tally → tag = 0x104 → exec (.pilotParamApply n) s = .next (with_ { p with due := [], hold := v }))
      ∧ (e ≤ s.clk.tally → tag = 0x102 → p.state = 0 → v ≠ p.stored.getD p.range → exec (.pilotParamApply n) s = .next (with_ { p with due := [], stored := some v }))
      ∧ (e ≤ s.clk.tally → tag = 0x101 → v = 1 → p.state = 0 → p.stored = none → p.on = false →
        ∃ t : State, ∃ q : Pilot, exec (.pilotParamApply n) s = .next t ∧ t.pilots[n]? = some q ∧ q.state = 1 ∧ q.r = 0 ∧ q.since = s.clk.tally
          ∧ q.on = true ∧ q.due = [] ∧ q.range = p.range
          ∧ t = { s with pilots := s.pilots.set n q, rings := t.rings, regs := t.regs, ledg := { s.ledg with queue := t.ledg.queue, suppressed := t.ledg.suppressed } }))
    ∧ (p.state = 3 → p.since + 5120 ≤ s.clk.tally →
      (p.stopping = false → ∃ q : Pilot, exec (.rangeHizEnd n) s = .next (raiseOwn 0x9001 .detect s.clk.tally (some (.pilot n)) 1 (with_ q))
        ∧ q.state = 1 ∧ q.r = 0 ∧ q.since = s.clk.tally ∧ q = { p with state := 1, r := 0, since := s.clk.tally, pin := q.pin })
      ∧ (p.stopping = true → ∃ q : Pilot, exec (.rangeHizEnd n) s = .next (raiseOwn 0x9001 .detect s.clk.tally (some (.pilot n)) 0 (with_ q))
        ∧ q = { p with state := 0, since := s.clk.tally, stopping := false, pin := q.pin } ∧ q.pin = none))

/-- R360, R363 to R367, R375 to R377, R397, R398: a received frame that fails a check is counted and has no other effect; one that passes is
counted with its bytes and acts: a PAUSE frame stops the transmitter from the end of the frame being sent, or lets it go on at once; a
change of link is counted and reported; and a counter wraps and reports a change of its top bit. -/
def Obligations.NetReceive : Prop :=
  ∀ (s : State) (n : Nat) (m : Mac), s.net.macs[n]? = some m →
    (∀ (f : EthFrame) a, macUp s n = true → m.link = 1 → a = macCount n 1 f.length (macCount n 0 1 s) →
      (f.length < 64 → exec (.ethFrameReceive n f) s = .next (macCount n 3 1 s))
      ∧ (64 ≤ f.length → macMax s n < f.length → exec (.ethFrameReceive n f) s = .next (macCount n 4 1 s))
      ∧ (64 ≤ f.length → f.length ≤ macMax s n → f.codeErr = true → exec (.ethFrameReceive n f) s = .next (macCount n 5 1 s))
      ∧ (64 ≤ f.length → f.length ≤ macMax s n → f.codeErr = false → f.fcsOk = false → exec (.ethFrameReceive n f) s = .next (macCount n 2 1 s))
      ∧ (64 ≤ f.length → f.length ≤ macMax s n → f.codeErr = false → f.fcsOk = true →
        (∀ v, f.vid = some v → v ≠ 0 → v ≠ macVlan s n → exec (.ethFrameReceive n f) s = .next (macCount n 8 1 s))
        ∧ ((f.vid = none ∨ f.vid = some 0 ∨ f.vid = some (macVlan s n)) →
          (f.body = .other ∨ f.body = .fragment → exec (.ethFrameReceive n f) s = .next (macCount n 9 1 a))
          ∧ (∀ q, f.body = .pause q → macPauseRx s n = false → exec (.ethFrameReceive n f) s = .next (macCount n 6 1 a))
          ∧ (∀ d i, f.body = .datagram d → nmbFor a { d with mac := n } = some i → exec (.ethFrameReceive n f) s = .next (nmbReceive { d with mac := n } i a)))))
    ∧ (∀ q, m.pause = none → q ≠ 0 → pauseAct n q s = { s with net := { s.net with macs := s.net.macs.set n { m with
        queues := m.queues.map (fun l => l.map fun f => { f with waited := true }), heldAt := s.clk.tally,
        pause := some { quanta := q, start := if m.sending.isSome then none else some s.clk.tally, long := false } } } })
    ∧ (∀ p, m.pause = some p → m.sending ≠ none → pauseAct n 0 s = { s with net := { s.net with macs := s.net.macs.set n { m with pause := none } } })
    ∧ (∀ rate, macUp s n = true → m.link ≠ 0 → exec (.linkChange n false rate) s = .next (raiseOwn 0x7002 .detect s.clk.tally (some (.net n)) 0
        (macCount n 29 1 { s with net := { s.net with macs := s.net.macs.set n { m with link := 0 } } })))
    ∧ (∀ rate, macUp s n = true → m.link ≠ 1 → rate = macSpeed s n → exec (.linkChange n true rate) s = .next (raiseOwn 0x7001 .detect s.clk.tally (some (.net n)) rate
        (macCount n 29 1 { s with net := { s.net with macs := s.net.macs.set n { m with link := 1, rate := rate } } })))
    ∧ (∀ k d (old : Word), m.cnt[k]? = some old → ∃ h r, macCount n k d s = { s with
          net := { s.net with macs := s.net.macs.set n { m with cnt := m.cnt.set k (BitVec.ofNat 32 (old.toNat + d)), halfStat := h } }, regs := r }
        ∧ (old.getLsbD 31 = (BitVec.ofNat 32 (old.toNat + d)).getLsbD 31 → h = m.halfStat ∧ r = s.regs))

/-- R368, R371, R372, R376, R378: the transmitter starts the oldest frame of the highest-numbered queue whose gate is open and that ends in
time, and ends it; a pending gate list is in force from its change instant; a pause that has run for its time ends, and one of more than
8192 ticks on a MAC with an ALARM stream is reported once.
The model's own choices in it are log entry 104. -/
def Obligations.NetTransmit : Prop :=
  ∀ (s : State) (n : Nat) (m : Mac), s.net.macs[n]? = some m → n < 4 →
    (∀ q (f : TxFrame) rest (d : Word), m.link = 1 → m.sending = none → m.pause = none → m.gate = none → m.queues.length = 8 → m.cnt[14]? = some d → m.queues[q]? = some (f :: rest) →
      (∀ j, q < j → j < 8 → m.queues[j]? = some []) → f.waited = false →
      exec (.frameTransmitStart n) s = .next { s with net := { s.net with macs := s.net.macs.set n { m with
        queues := m.queues.set q rest, sending := some (f, s.clk.tally) } } })
    ∧ (∀ rate q f, selectTx rate s.clk.tally m = some (q, f) →
      q < 8 ∧ (m.queues.getD q []).head? = some f
      ∧ (∀ l t0, m.gate = some (l, t0) → bitOf (gatesAt m s.clk.tally) q = true
        ∧ fitsIn rate (8 * (f.bytes + 20)) (openTicks q (l.length + 1) l ((s.clk.tally - t0) % cycleOf l)) = true)
      ∧ ∀ j, q < j → j < 8 → ∀ g, (m.queues.getD j []).head? = some g → ∃ l t0, m.gate = some (l, t0)
        ∧ (bitOf (gatesAt m s.clk.tally) j = false ∨ fitsIn rate (8 * (g.bytes + 20)) (openTicks j (l.length + 1) l ((s.clk.tally - t0) % cycleOf l)) = false))
    ∧ (∀ f t0, m.sending = some (f, t0) → exec (.frameTransmitEnd n) s = .next (macCount n 12 f.bytes (macCount n 11 1
        { s with net := { s.net with macs := s.net.macs.set n { m with
          sending := none, sent := some f, heldAt := if m.pause.isSome then s.clk.tally else m.heldAt,
          pause := m.pause.map fun p => if p.start.isNone then { p with start := some s.clk.tally } else p } } })))
    ∧ (∀ l tc, m.gateNext = some (some l, tc) → tc ≤ s.clk.tally → exec (.gateListApplied n) s = .next (raiseOwn 0x7004 .detect tc (some (.gate n)) l.length
        { s with net := { s.net with macs := s.net.macs.set n { m with
          gateNext := none, gate := some (l, tc), operStart := tc, gatesNow := gatesAt { m with gate := some (l, tc) } s.clk.tally } } }))
    ∧ (∀ l tc, m.gateNext = some (l, tc) → s.clk.tally < tc → exec (.gateListApplied n) s = .next s)
    ∧ (exec (.gateInterval n) s = .next { s with net := { s.net with macs := s.net.macs.set n { m with gatesNow := gatesAt m s.clk.tally } } })
    ∧ (∀ p a, m.pause = some p → p.start = some a → p.quanta * 512 * 24576000 ≤ (s.clk.tally - a) * rateBits m.rate → ∃ t : State, ∃ y : Mac,
      exec (.pauseExpire n) s = .next t ∧ t = { s with net := { s.net with macs := s.net.macs.set n y }, regs := t.regs }
      ∧ y = { m with pause := none, cnt := y.cnt, halfStat := y.halfStat, heldAt := y.heldAt })
    ∧ (∀ q a, m.pause = some ⟨q, some a, false⟩ → a + 8192 < s.clk.tally → carriesAlarm s n = true →
      exec (.pauseLong n) s = .next (raiseOwn 0x7006 .detect s.clk.tally (some (.net n)) q
        { s with net := { s.net with macs := s.net.macs.set n { m with pause := some ⟨q, some a, true⟩ } } }))

/-- R369, R380 to R382, R386, R390, R391: a full packet is handed to its queue on its MAC, and on the partner of a replicated stream, with
its sequence numbers one higher after it; a silent path of a pair is reported while the other is heard; and MEDIA_OFFSET is set at the
first boundary of FOLLOWING, and changed with a mark in every receive stream.
The model's own choices in it are log entry 26. -/
def Obligations.NetStreams : Prop :=
  ∀ (s : State),
    (∀ n k x q0 smp, (s.net.txs.find? fun x => x.mac == n && x.s == k) = some x → x.ready = some (q0, smp) → pN s (.tx n k) 0x10B ≠ 1 →
      exec (.streamPacketHandoff n k) s = .next ((pushTx n (txQueue (classOf s (.tx n k))) (packetFrame s x n q0 smp) s).updTx k fun x =>
        { x with ready := none, seq := (x.seq + 1) % 65536, rseq := (x.rseq + 1) % 65536, packets := (x.packets + 1) % 2 ^ 32 }))
    ∧ (∀ n k x q0 smp, (s.net.txs.find? fun x => x.mac == n && x.s == k) = some x → x.ready = some (q0, smp) → pN s (.tx n k) 0x10B = 1 → ∀ p, cbPartner s n = some p →
      exec (.streamPacketHandoff n k) s = .next ((pushTx p (txQueue (classOf s (.tx n k))) (packetFrame s x p q0 smp)
          (pushTx n (txQueue (classOf s (.tx n k))) (packetFrame s x n q0 smp) s)).updTx k fun x =>
        { x with ready := none, seq := (x.seq + 1) % 65536, rseq := (x.rseq + 1) % 65536, packets := (x.packets + 1) % 2 ^ 32 }))
    ∧ (∀ k mac x t, s.rxAt k = some x → pN s (.rx x.mac k) 0x112 = 1 → mac ∈ streamMacs s x.mac true → findKey mac x.cb.heard = some t → t + 300 * 8192 ≤ s.clk.tally →
      (∃ h ∈ x.cb.heard, h.1 ≠ mac ∧ s.clk.tally < h.2 + 300 * 8192) → x.cb.lost = none →
      exec (.cbPathLost k mac) s = .next (raiseOwn 0x700A .detect s.clk.tally (some (.rx x.mac k)) mac
        { s with net := { s.net with rxs := s.net.rxs.map fun x => if x.s = k then { x with cb := { x.cb with lost := some mac } } else x } }))
    ∧ (∀ off n m, s.clk.tally % 8192 = 0 → servoPort s = some n → s.net.macs[n]? = some m → m.ptp ≠ 3 → s.net.offset = none → pN s (.ptp 0) 0x110 = 0 →
      ∃ t : State, exec (.mediaOffsetSet off) s = .next t ∧ t = { s with
        net := { s.net with macs := s.net.macs.set n { m with ptp := 3 }, offset := some (off % 2 ^ 64), rxOffset := off % 2 ^ 64 },
        rings := t.rings, regs := t.regs, ledg := { s.ledg with queue := t.ledg.queue, suppressed := t.ledg.suppressed } })
    ∧ (∀ off o, s.clk.tally % 8192 = 0 → s.net.offset = some o → pN s (.ptp 0) 0x110 = 0 → ∃ t : State,
      exec (.mediaOffsetChanged off) s = .next t ∧ t = { s with
        net := { s.net with
          offset := some (off % 2 ^ 64), rxOffset := off % 2 ^ 64,
          rxs := s.net.rxs.map fun x => { x with quietTo := some (s.clk.tally + 2 * 8192) } },
        rings := t.rings, regs := t.regs, ledg := { s.ledg with queue := t.ledg.queue, suppressed := t.ledg.suppressed } })

/-- R424, R425, R429 to R436: the maintenance of the DRAM. The refresh factor, the write-eye delay and the owed refresh of a channel are
kept; a retraining pass begins when none gathers and no change of set point waits, and ends after 64 frames with the eyes of the set
point; every window of activates is closed; a change of set point is made at a frame boundary; reads panic and requests are promoted.
The model's own choices in it are log entry 29. -/
def Obligations.DramUpkeep : Prop :=
  ∀ (s : State) (ch : Nat) (c : DramCh) (with_ : DramCh → State), ch < 2 → s.dram.channels[ch]? = some c → s.dram.ready = true →
    with_ = (fun x => { s with dram := { s.dram with channels := s.dram.channels.set ch x } }) →
    (∀ f, f = 1 ∨ f = 2 ∨ f = 4 → exec (.mr4Poll ch f) s = .next (with_ { c with mr4 := f }))
    ∧ (∀ d, exec (.dqsOscTrack ch d) s = .next (with_ { c with delayNext := some d }))
    ∧ exec (.refreshInterval ch) s = .next (with_ { c with owed := min 8 (c.owed + 1) })
    ∧ (c.failed = false → c.gather = none → s.dram.spNext = none → c.passAt + s.plan.retrain * 24576000 ≤ s.clk.tally →
      exec (.retrainStart ch) s = .next (with_ { c with gather := some s.clk.tally, passAt := s.clk.tally }))
    ∧ (s.dram.spNext ≠ none → exec (.retrainStart ch) s = .next s)
    ∧ (∀ g eyes, c.gather = some g → g + 64 * 8192 ≤ s.clk.tally → eyes.length = 4 →
      exec (.retrainDone ch eyes) s = .next (raiseMem 0x8008 .detect s.clk.tally 1 (s.dram.sp * 256 + ch) [{ tag := 0x00C2, vals := eyes.map wd }]
        (with_ { c with gather := none, eyes := (s.dram.sp, eyes) :: c.eyes.filter (fun e => e.1 ≠ s.dram.sp),
                        failing := if 0 ∈ eyes ∧ c.failing = none then some 4 else c.failing })))
    ∧ (exec .hammerWindowClear s = .next { s with dram := { s.dram with
        channels := s.dram.channels.map fun x => { x with hammer := List.replicate 8 [], throttled := [] } } })
    ∧ (∀ top, c.skewAt + 3000 * 8192 ≤ s.clk.tally → top ∈ c.skew → (∀ n ∈ c.skew, n ≤ top) →
      (4 * top ≤ c.skew.sum → exec (.bankSkewWindow ch) s = .next (with_ { c with skew := List.replicate 8 0, skewAt := s.clk.tally, skewRun := 0 }))
      ∧ (c.skew.sum < 4 * top → c.skewRun + 1 ≠ 3600 →
        exec (.bankSkewWindow ch) s = .next (with_ { c with skew := List.replicate 8 0, skewAt := s.clk.tally, skewRun := c.skewRun + 1 }))
      ∧ (c.skew.sum < 4 * top → c.skewRun + 1 = 3600 → ∃ bank, c.skew[bank]? = some top
        ∧ exec (.bankSkewWindow ch) s = .next (raiseMem 0x8005 .detect s.clk.tally 1 (ch * 16 + bank)
            [{ tag := 0x00C1, vals := [wd (top * 1000 / c.skew.sum)] }]
            (with_ { c with skew := List.replicate 8 0, skewAt := s.clk.tally, skewRun := 0 }))))
    ∧ (∀ p, s.dram.spNext = some p → s.clk.tally % 8192 = 0 → (∀ x ∈ s.dram.channels, x.gather = none) →
      exec .setpointChanged s = .next (raiseMem 0x8007 .boundary s.clk.tally 1 p [] { s with dram := { s.dram with sp := p, spNext := none } }))
    ∧ (∀ sp, sp < 40 → 6144 ≤ s.clk.tally % 8192 → exec (.readPanic sp) s = .next { s with dram := { s.dram with
        entries := s.dram.entries.map (fun t => if t.req = sp ∧ t.write = false then { t with panic := true } else t),
        ports := s.dram.ports.map (fun t => if t.req = sp ∧ t.write = false then { t with panic := true } else t) } })
    ∧ (∀ i, exec (.agePromotion i) s = .next { s with dram := { s.dram with
        entries := s.dram.entries.map fun t =>
          if t.num = i ∧ 2 ≤ t.cls ∧ 20 * 24576 ≤ (s.clk.tally - t.at_) * 1000 then { t with promoted := true } else t } })

/-- R406, R415, R416, R422: a request within one data group of the normal space of two working channels is one transaction at the channel,
bank, slot and row of the mapping; a write is visible as it enters a command entry; no two groups share a place.
The model's own choices in it are log entries 31 and 32. -/
def Obligations.DramRequests : Prop :=
  ∀ (s : State) (q : DramReq) (g h : Nat) (tx : DramTx),
    s.dram.ready = true → (∀ c ∈ s.dram.channels, c.failed = false) → s.dram.ports = [] → q.space = .normal →
    q.requester ≤ 46 → q.cls < 4 → 0 < q.bytes → q.bytes % 4 = 0 → q.addr % 4 = 0 →
    g = q.addr / 512 → (q.addr + q.bytes - 1) / 512 = g → h = g / 2 →
    q.addr + q.bytes ≤ 2 * 8 * 3584 * (s.dram.density * 8192 - s.boot.dramCfg.vaultRows - 1) →
    (∀ e ∈ s.dram.entries, e.shared = true) → s.dram.entries.length < 96 → (s.dram.entries.filter fun e => e.req = q.requester).length < 16 →
    (40 ≤ q.requester → q.requester ≤ 43 → (s.dram.entries.filter fun e => 40 ≤ e.req ∧ e.req ≤ 43).length < 8) →
    tx = { num := s.dram.num, req := q.requester, cls := q.cls, ch := (g ^^^ g / 2 ^ 9 ^^^ g / 2 ^ 17 ^^^ g / 2 ^ 25) % 2,
           place := { vault := false, bank := (h % 8) ^^^ (h / 56 % 8) ^^^ (h / 56 / 8 % 8), row := 1 + h / 56, slot := h / 8 % 7, group := g },
           off := q.addr % 512, bytes := q.bytes, write := q.write, data := tx.data, bound := false, shared := true, at_ := s.clk.tally,
           panic := tx.panic, promoted := false, rmw := tx.rmw } →
    (q.write = true → q.data.length = q.bytes → tx.data = q.data → tx.panic = false →
      tx.rmw = (if q.addr % 8 = 0 ∧ q.bytes % 8 = 0 then 0 else 1) →
      ∃ t : State, exec (.dramRequestAccept q) s = .next t
        ∧ t = { s with dram := { s.dram with
            num := s.dram.num + 1, normal := s.dram.normal.putBytes q.addr q.data, entries := s.dram.entries ++ [tx],
            mirrored := s.dram.mirrored.eraseDups, channels := t.dram.channels } })
    ∧ (q.write = false → (∀ e ∈ s.dram.entries, e.write = true → e.place.vault = true ∨ e.place.group ≠ g) →
      tx.data = s.dram.normal.bytes q.addr q.bytes → tx.panic = decide (q.requester < 40 ∧ 6144 ≤ s.clk.tally % 8192) → tx.rmw = 0 →
      exec (.dramRequestAccept q) s = .next { s with dram := { s.dram with
        num := s.dram.num + 1, entries := s.dram.entries ++ [tx], mirrored := s.dram.mirrored.eraseDups } })
    ∧ (∀ g1 g2, (normalPlace s.dram g1).1 = (normalPlace s.dram g2).1 → (normalPlace s.dram g1).2.bank = (normalPlace s.dram g2).2.bank →
      (normalPlace s.dram g1).2.row = (normalPlace s.dram g2).2.row → (normalPlace s.dram g1).2.slot = (normalPlace s.dram g2).2.slot →
      g1 = g2)

/-- R414, R417 to R420, R425, R436, R519: a slot of a working channel is a forced refresh when eight are owed, the transaction that may
have it, or a voluntary refresh when the channel has none; an ordinary slot leaves the bank of the reserved slot to come alone; a repaired
word of the vault is copied; a channel that has failed loses the normal space.
The model's own choices in it are log entries 34 and 96. -/
def Obligations.DramSlots : Prop :=
  ∀ (s : State) (ch : Nat) (c : DramCh) (with_ : DramCh → State), ch < 2 → s.dram.channels[ch]? = some c → s.dram.ready = true → c.failed = false →
    with_ = (fun x => { s with dram := { s.dram with channels := s.dram.channels.set ch x } }) →
    (8 ≤ c.owed → ∃ t : State, exec (.dramSlot ch []) s = .next t ∧ t.dram =
      (with_ { c with owed := c.owed - 1, delay := c.delayNext.getD c.delay, delayNext := none, forced := (c.forced + 1) % 65536 }).dram)
    ∧ (c.owed < 8 → -8 < c.owed → s.dram.entries = [] → c.back = [] → c.heal = [] → c.gather = none →
      exec (.dramSlot ch []) s = .next (with_ { c with
        slot := (c.slot + 1) % 32, trained := if c.slot = 31 then false else c.trained,
        owed := c.owed - 1, delay := c.delayNext.getD c.delay, delayNext := none }))
    ∧ (∀ tx, c.owed < 8 → s.dram.entries = [tx] → s.dram.ports = [] → tx.ch = ch → tx.rmw = 0 →
      (tx.bound = true ∧ c.slot = 4 * tx.place.bank + 3)
        ∨ (tx.bound = false ∧ c.slot ≠ 4 * tx.place.bank + 1 ∧ c.slot ≠ 4 * tx.place.bank + 2 ∧ ∀ e ∈ c.throttled, e.1 ≠ tx.place.bank) →
      ∃ t : State, exec (.dramSlot ch []) s = .next t
        ∧ t = { s with rings := t.rings, regs := t.regs, ledg := { s.ledg with queue := t.ledg.queue, suppressed := t.ledg.suppressed },
                       dram := { s.dram with
                         entries := [], used := s.dram.used.modify tx.cls (· + tx.bytes), channels := t.dram.channels,
                         done := ({ num := tx.num, req := tx.req, data := if tx.write then [] else tx.data, end_ := .good } :: s.dram.done).take 32 } }
        ∧ (t.chAt ch).slot = (c.slot + 1) % 32)
    ∧ (∀ tx, c.owed < 8 → s.dram.entries = [tx] → tx.ch = ch → tx.bound = false → c.slot = 4 * tx.place.bank + 1 ∨ c.slot = 4 * tx.place.bank + 2 →
      c.back = [] → c.heal = [] → c.gather = none → s.clk.tally = c.scrubAt → c.scrubbed ≠ 0 → s.boot.dramCfg.scrub ≠ 0 →
      exec (.dramSlot ch []) s = .next (with_ { c with slot := (c.slot + 1) % 32 }))
    ∧ (∀ p word due rest, c.repair = (p, word, due) :: rest →
      exec (.vaultRepaired ch) s = .next (raiseMem 0x8003 .detect s.clk.tally 0 ch [{ tag := 0x00C0, vals := [eccLoc ch p word ||| 1#32] }]
        { s with dram := { s.dram with
          channels := s.dram.channels.set ch { c with repair := rest },
          vaults := s.dram.vaults.modify ch fun m => m.putBytes (p.group * 512 + 8 * word)
            ((s.dram.vaults.getD (1 - ch) []).bytes (p.group * 512 + 8 * word) 8) } }))
    ∧ (c.failing = none → s.clk.tally % 8192 ≠ 0 → exec (.channelFailed ch 2) s = .next (with_ { c with failing := some 2 }))
    ∧ (∀ x r, c.failing = some r → s.clk.tally % 8192 = 0 → x = closeFrame s →
      ∃ t : State, exec (.channelFailed ch r) s = .next t ∧ t.ladder.pos = max 4 x.ladder.pos
        ∧ t.dram = { x.dram with normal := [], channels := x.dram.channels.modify ch fun y => { y with failed := true, failing := none } }
        ∧ (∀ w ∈ t.vals, ∀ k, w.node ≠ .slot k) ∧ ∀ z ∈ t.fw.scenes, isChip z.node = true)

/-- R509 to R515: a charge is held for 30 000 frames; a doomed spoke is retired at a frame boundary, and the AUDIT spoke of its wheel takes
its schedule, or, without one, its nodes fall silent and a re-placement is pending; a planned promotion does the same for a healthy spoke;
where no placement fits, the ladder is taken whole.
The model's own choices in it are log entries 87 and 101. -/
def Obligations.SparesTaken : Prop :=
  ∀ (s x : State), x = closeFrame s →
    (∀ sp, exec (.auditChargeExpire sp) s = .next { s with fault := { s.fault with
      charges := s.fault.charges.filter fun c => decide (c.1 ≠ sp ∨ s.clk.tally < c.2 + 30000 * 8192) } })
    ∧ (∀ sp, s.clk.tally % 8192 = 0 → (doomedAt s s.clk.tally).contains sp = true →
      (getsSpare x s.clk.tally sp = false → ∃ t : State, exec (.spokeRetired sp) s = .next t
        ∧ t = { x with
          spokes := (setRole sp 3 x).spokes, plan := { x.plan with due := x.plan.due ||| 64 },
          fault := { x.fault with retired := if sp ∈ x.fault.retired then x.fault.retired else x.fault.retired ++ [sp],
                                  doomed := x.fault.doomed.filter fun d => d.1 ≠ sp },
          ladder := { x.ladder with silent := x.ladder.silent ++ plainOn x sp, replacing := some (x.ladder.replacing.getD s.clk.tally) },
          rings := t.rings, regs := t.regs, ledg := { x.ledg with queue := t.ledg.queue, suppressed := t.ledg.suppressed } })
      ∧ (∀ y, getsSpare x s.clk.tally sp = true → wheelSpare x s.clk.tally (sp / 10) = some y → plainOn x sp = [] →
        ∃ t : State, exec (.spokeRetired sp) s = .next t
          ∧ t.adm.place = x.adm.place.map (fun e => (e.1, (if e.2.1 = sp then y else e.2.1), e.2.2.map fun k => if k = sp then y else k))
          ∧ t.spokes = (setRole y 0 (setRole sp 3 x)).spokes ∧ sp ∈ t.fault.retired ∧ t.ladder.replacing = x.ladder.replacing))
    ∧ (∀ sp p y, s.clk.tally % 8192 = 0 → s.plan.promote = [(sp, p)] → p ≤ s.clk.tally → wheelSpare x s.clk.tally (sp / 10) = some y →
      isRetired x sp = false →
      ∃ t : State, exec (.plannedPromotion sp) s = .next t
        ∧ t.adm.place = x.adm.place.map (fun e => (e.1, (if e.2.1 = sp then y else e.2.1), e.2.2.map fun k => if k = sp then y else k))
        ∧ t.spokes = (setRole y 0 (setRole sp 3 x)).spokes ∧ sp ∈ t.fault.retired ∧ t.plan.promote = x.plan.promote.filter (fun e => e.1 ≠ sp))
    ∧ (∀ b, s.clk.tally % 8192 = 0 → s.serving = true → s.ladder.replacing = some b → findPlace x = none →
      ∃ t : State, exec .placementChanged s = .next t ∧ t.ladder.pos = max 7 x.ladder.pos ∧ t.ladder.replacing = none ∧ t.adm.place = x.adm.place)
    ∧ (s.ladder.replacing = none → exec .placementChanged s = .next s)

/-- R523 to R525: the ladder is evaluated at a frame boundary while the firmware serves and no re-placement is pending: it moves up to the
smallest step at which the check passes, or to the last; it moves down one step, 30 000 frames after its last change and not more often
than every 3000 frames, where the check passes with room to spare.
The model's own choices in it are log entries 40 and 61. -/
def Obligations.LadderMoves : Prop :=
  ∀ (s x : State), x = closeFrame s → s.clk.tally % 8192 = 0 → s.serving = true →
    (s.ladder.replacing = none →
      (∀ n, neededStep x = some n → ∃ t : State, exec .ladderEvaluate s = .next t ∧ t.ladder.pos = max n x.ladder.pos ∧ t.dram = x.dram
        ∧ (n ≤ x.ladder.pos → t = x))
      ∧ (neededStep x = none → ∃ t : State, exec .ladderEvaluate s = .next t ∧ t.ladder.pos = max 7 x.ladder.pos ∧ t.dram = x.dram)
      ∧ (s.ladder.checked + 3000 * 8192 ≤ s.clk.tally →
        (x.ladder.pos = 0 ∨ s.clk.tally < x.ladder.changed + 30000 * 8192 →
          exec .ladderUndo s = .next { x with ladder := { x.ladder with checked := s.clk.tally } })
        ∧ (mayUndo { x with ladder := { x.ladder with checked := s.clk.tally } } = true →
          ∃ t : State, exec .ladderUndo s = .next t ∧ t.ladder.pos = x.ladder.pos - 1 ∧ t.ladder.changed = s.clk.tally)))
    ∧ (s.ladder.replacing ≠ none → exec .ladderEvaluate s = .next s ∧ exec .ladderUndo s = .next s)
    ∧ (s.clk.tally < s.ladder.checked + 3000 * 8192 → exec .ladderUndo s = .next s)

/-- R529, R531 to R535: a descriptor of the recorder completes 300 frames after its first record; entries reach the event ledger in order
and OP_SECONDS is saved every 600 s; a re-plan decides voltage, clock, refresh and retraining as its pseudocode says, and ends with a
margin record.
The model's own choices in it are log entry 63. -/
def Obligations.ServiceRecords : Prop :=
  ∀ (s : State),
    (∀ r h c g b, r < 8 → s.regs.hd[r]? = some h → h.cur = some c → c.irq = false → 4 ≤ h.k → h.k ≤ 12 → s.recs[r]? = some g → g.since = some b →
      (b + 300 * 8192 ≤ s.clk.tally → ∃ t : State, exec (.recorderFlush r) s = .next t
        ∧ t = { s with
          recs := s.recs.set r { g with since := none },
          regs := { s.regs with
            hd := s.regs.hd.set r { h with rd := (h.rd + 1) % 2 ^ (h.k + 1), cur := none },
            hdDone := (BitVec.ofNat 32 s.regs.hdDone ||| BitVec.ofNat 32 (2 ^ r)).toNat, hostWrites := t.regs.hostWrites } }
        ∧ t.regs.hostWrites = ((descAddr h h.rd + 12) % 2 ^ 64, bytesOf (BitVec.ofNat 32 (2 ^ 31 + c.fill))) :: s.regs.hostWrites)
      ∧ (s.clk.tally < b + 300 * 8192 → c.fill + 80 ≤ c.len → exec (.recorderFlush r) s = .next s))
    ∧ (∀ e n rest, s.serving = true → s.ledg.queue = (e, n) :: rest → s.ledg.events.length < 8192 →
      ∃ y : LedgerEntry, exec .ledgerEntryWrite s = .next { s with ledg := { s.ledg with
          queue := rest, events := s.ledg.events ++ [y], evNext := (s.ledg.evNext + 1) % 2 ^ 32 } }
        ∧ y.num = s.ledg.evNext ∧ y.ev = e ∧ y.opSec = s.ledg.opSec ∧ y.resets = s.ledg.resets ∧ y.repeats = n)
    ∧ (s.serving = true → s.ledg.opSaved + 600 ≤ s.ledg.opSec → exec .opSecondsSave s = .next { s with ledg := { s.ledg with opSaved := s.ledg.opSec } })
    ∧ (s.ledg.opSec < s.ledg.opSaved + 600 → exec .opSecondsSave s = .next s)
    ∧ (∀ daily reason m (v ps mv : Nat), s.serving = true → (daily = true → s.plan.dailyAt + 86400 ≤ s.ledg.opSec) → reason.testBit 10 = false →
      s.clk.tally % 8192 ≠ 0 → s.ladder.replacing = none → s.ledg.margins.length < 4096 → v = s.plan.vcore →
      (ps : Int) = max 0 (60 - slackMin m) → (mv : Int) = max 0 (50 - ((v : Int) - m.sramVmin)) →
      ∃ t : State, exec (.replan daily reason m) s = .next t
        ∧ (ps ≠ 0 ∨ mv ≠ 0 → t.plan.vcore = min 900 (v + 5 * ((max (10 * ((ps + 9) / 10)) mv + 4) / 5)))
        ∧ (ps = 0 → mv = 0 → daily = false → t.plan.vcore = v)
        ∧ (ps = 0 → mv = 0 → daily = true → 120 < slackMin m → 80 < (v : Int) - m.sramVmin → t.plan.vcore = max 650 (v - 5))
        ∧ (1040 < m.tempMax → t.clk.mhzTarget = max 600 (s.clk.mhzTarget - 25))
        ∧ (m.tempMax ≤ 1040 → daily = true → s.clk.mhzTarget < 750 → 100 < slackMin m → t.plan.vcore ≤ 880 → t.clk.mhzTarget = s.clk.mhzTarget + 25)
        ∧ (256 < m.ceRate → t.plan.scale = 4)
        ∧ (16 < m.ceRate → m.ceRate ≤ 256 → t.plan.scale = max s.plan.scale 2)
        ∧ (m.eyeMin < 40 ∨ 10 < m.eyeDrop → t.plan.retrain = max 10 (s.plan.retrain / 2))
        ∧ (40 ≤ m.eyeMin → m.eyeDrop ≤ 10 → 50 ≤ m.eyeMin → daily = true → t.plan.retrain = min s.boot.dramCfg.retrain (s.plan.retrain * 2))
        ∧ t.plan.due = 0 ∧ t.ladder.asked = true ∧ t.ledg.mgNext = (s.ledg.mgNext + 1) % 2 ^ 32 ∧ t.ledg.margins.length = s.ledg.margins.length + 1
        ∧ t.fw = s.fw ∧ t.vals = s.vals ∧ t.pending = s.pending)
end

