-- ==== Sys2Proof/Laws/Event.lean ====
section
/-! SUPPORT. What raising an event or an interrupt can change, once: the rings, the registers, and the entries that wait for the ledger. -/

namespace Sys2Proof.Machine

theorem raiseVec_frame (v : Nat) (s : State) : raiseVec v s = { s with regs := (raiseVec v s).regs } := rfl

theorem raiseVecIf_frame (c : Bool) (v : Nat) (s : State) : raiseVecIf c v s = { s with regs := (raiseVecIf c v s).regs } := by
  unfold raiseVecIf
  split <;> rfl

theorem raiseOn_frame (e : Event) (s : State) (i : Nat) :
    raiseOn e s i = { s with rings := (raiseOn e s i).rings, regs := (raiseOn e s i).regs } := by
  unfold raiseOn
  split
  · rfl
  · rw [raiseVecIf_frame]

theorem raiseOn_all_frame (e : Event) (l : List Nat) (s : State) :
    l.foldl (raiseOn e) s = { s with rings := (l.foldl (raiseOn e) s).rings, regs := (l.foldl (raiseOn e) s).regs } := by
  induction l generalizing s with
  | nil => rfl
  | cons i l ih =>
    rw [List.foldl_cons, ih, raiseOn_frame]

theorem ledgerQueue_frame (e : Event) (s : State) :
    ledgerQueue e s = { s with ledg := { s.ledg with
      queue := (ledgerQueue e s).ledg.queue, suppressed := (ledgerQueue e s).ledg.suppressed } } := by
  unfold ledgerQueue
  dsimp only
  split
  · rfl
  · split <;> rfl

/-- An event changes the rings, the registers, and the ledger's queue and suppressed counts. -/
theorem raiseEvent_frame (e : Event) (s : State) :
    raiseEvent e s = { s with
      rings := (raiseEvent e s).rings, regs := (raiseEvent e s).regs,
      ledg := { s.ledg with queue := (raiseEvent e s).ledg.queue, suppressed := (raiseEvent e s).ledg.suppressed } } := by
  unfold raiseEvent
  dsimp only
  split
  · rw [ledgerQueue_frame, raiseOn_all_frame]
  · rw [raiseOn_all_frame]

theorem raiseNode_frame (code : Nat) (k : StampKind) (t : Nat) (n : Option Node) (mb d : Nat) (is : List Item) (s : State) :
    raiseNode code k t n mb d is s = { s with
      rings := (raiseNode code k t n mb d is s).rings, regs := (raiseNode code k t n mb d is s).regs,
      ledg := { s.ledg with
        queue := (raiseNode code k t n mb d is s).ledg.queue, suppressed := (raiseNode code k t n mb d is s).ledg.suppressed } } :=
  raiseEvent_frame _ _

theorem raiseOwn_frame (code : Nat) (k : StampKind) (t : Nat) (n : Option Node) (d : Nat) (s : State) :
    raiseOwn code k t n d s = { s with
      rings := (raiseOwn code k t n d s).rings, regs := (raiseOwn code k t n d s).regs,
      ledg := { s.ledg with queue := (raiseOwn code k t n d s).ledg.queue, suppressed := (raiseOwn code k t n d s).ledg.suppressed } } :=
  raiseEvent_frame _ _

end Sys2Proof.Machine
end

