-- ==== Sys2Proof/Laws/Mailbox.lean ====
section
/-! SUPPORT. What a request does, once for every opcode: the steps of R48 before its own chapter, and what follows it. -/

namespace Sys2Proof.Machine

theorem any_out_false {s : State} {r : Request} (h : ∀ e ∈ s.svc.out, e.1 ≠ r.mb) : (s.svc.out.any fun e => e.1 == r.mb) = false := by
  simpa using h

/-- A request that its opcode answers with OK. -/
theorem serve_ok {o : Op} {f : Bool} {r : Request} {s u : State} {items : List Item} {h : Option Word} {a : After} (he : Executes s r)
    (hg : keyGated o = true → Authorised s r) (hc : r.commitAt = 0 ∨ (takesBoundary o && boundaryWord r.commitAt) = true)
    (hr : runOp o f r s = (u, ⟨0, 0, h, items, a⟩)) (hf : Fits r items) :
    serve o f r s = answeredOk s u r (codeOfOp o) (h.getD r.handle) items a := by
  have h1 : (11 ≤ r.mb || (s.svc.out.any fun e => e.1 == r.mb)) = false := by
    simp only [any_out_false he.free, Bool.or_false, decide_eq_false_iff_not]
    have := he.mb
    omega
  have h2 : (keyGated o && isNmb r.mb) = false := by
    cases e : keyGated o
    · rfl
    · simp [(hg e).1]
  have h3 : (keyGated o && authFault s != 0) = false := by
    cases e : keyGated o
    · rfl
    · simp [authFault, (hg e).2.1, (hg e).2.2]
  have h4 : (r.commitAt != 0#32 && !(takesBoundary o && boundaryWord r.commitAt)) = false := by
    rcases hc with hc | hc
    · simp [hc]
    · simp [hc]
  have h5 : (isNmb r.mb && decide (368 < replyWords (carried r items))) = false := by
    cases e : isNmb r.mb
    · rfl
    · have := hf e
      simp only [Bool.true_and, decide_eq_false_iff_not]
      omega
  have e : (if (r.quiet && decide True) = true then [] else items) = carried r items := by simp [carried]
  simp only [serve, h1, he.serving, answer, h2, h3, h4, hr, e, h5, Bool.false_eq_true, if_false, Bool.not_true, Reply.resp, park, answeredOk]

/-- A request that its opcode answers with another status, the state as it was. -/
theorem serve_fail {o : Op} {f : Bool} {r : Request} {s : State} {st d : Nat} (he : Executes s r)
    (hg : keyGated o = true → Authorised s r) (hc : r.commitAt = 0 ∨ (takesBoundary o && boundaryWord r.commitAt) = true)
    (hr : runOp o f r s = (s, Reply.fail st d)) :
    serve o f r s = answeredFail s r (codeOfOp o) st d := by
  have h1 : (11 ≤ r.mb || (s.svc.out.any fun e => e.1 == r.mb)) = false := by
    simp only [any_out_false he.free, Bool.or_false, decide_eq_false_iff_not]
    have := he.mb
    omega
  have h2 : (keyGated o && isNmb r.mb) = false := by
    cases e : keyGated o
    · rfl
    · simp [(hg e).1]
  have h3 : (keyGated o && authFault s != 0) = false := by
    cases e : keyGated o
    · rfl
    · simp [authFault, (hg e).2.1, (hg e).2.2]
  have h4 : (r.commitAt != 0#32 && !(takesBoundary o && boundaryWord r.commitAt)) = false := by
    rcases hc with hc | hc
    · simp [hc]
    · simp [hc]
  have e : (if r.quiet && decide (st = 0) then [] else ([] : List Item)) = [] := by split <;> rfl
  have h5 : (isNmb r.mb && decide (368 < replyWords [])) = false := by simp [replyWords, itemWords]
  simp only [serve, h1, he.serving, answer, h2, h3, h4, hr, Reply.fail, e, h5, Bool.false_eq_true, if_false, Bool.not_true, Reply.resp, park,
    answeredFail, Option.getD_none]

/-- Arming for a boundary far enough ahead that the mailbox has not armed yet (R91). -/
theorem arm_ok {r : Request} {kind : ArmKind} {ws : List Write} {s : State} {b : Nat} (hb : (b : Int) = commitBoundary s r)
    (hl : s.clk.tally + 1024 ≤ b) (hs : ∀ a ∈ s.armed, a.mb = r.mb → a.at_ ≠ b)
    (hr : (s.armed.filter fun a => a.mb == r.mb).length < 8) :
    arm r kind ws s = .ok ({ s with armed := s.armed ++ [{ mb := r.mb, at_ := b, seq := r.seq, kind := kind, writes := ws }] },
      .ok [armItem b (sumNat (ws.map Write.words))]) := by
  have e5 : ((armedAt s r.mb).any fun x => (x : Int) == (b : Int)) = false := by
    simp only [armedAt, List.any_eq_false, List.mem_map, List.mem_filter]
    rintro x ⟨a, ⟨ha, hm⟩, rfl⟩
    have := hs a ha (by simpa using hm)
    simp only [beq_iff_eq]
    omega
  have e6 : ¬8 ≤ (armedAt s r.mb).length := by
    simp only [armedAt, List.length_map]
    omega
  have e7 : ¬(b : Int) < (s.clk.tally : Int) + 1024 := by omega
  simp only [arm, ← hb, e5, if_neg e6, if_neg e7, Bool.false_eq_true, if_false, Int.toNat_natCast]

end Sys2Proof.Machine
end

