-- ==== Sys2Proof/Laws/Mem.lean ====
section
/-! SUPPORT. The laws of byte memories: a byte written reads back, every other byte reads as before, and every write keeps the
canonical form. -/

namespace Sys2Proof.Machine

@[simp] theorem Mem.get_nil (a : Nat) : Mem.get [] a = memDefault := rfl

theorem Mem.get_cons (k : Nat) (v : Byte) (r : Mem) (a : Nat) : Mem.get ((k, v) :: r) a = if a = k then v else Mem.get r a := rfl

theorem Mem.get_drop (m : Mem) (a b : Nat) :
    Mem.get (m.filter fun e => !(e.1 == a)) b = if b = a then memDefault else m.get b := by
  induction m with
  | nil => simp
  | cons e r ih =>
    obtain ⟨k, v⟩ := e
    by_cases h : k = a
    · subst h
      rw [List.filter_cons_of_neg (by simp), ih, Mem.get_cons]
      split <;> simp_all
    · rw [List.filter_cons_of_pos (by simp [h]), Mem.get_cons, Mem.get_cons, ih]
      split
      · subst_vars
        simp [h]
      · rfl

theorem Mem.get_list (m : Mem) (a b : Nat) (v : Byte) (h : ∀ e ∈ m, e.1 ≠ a) :
    Mem.get (Mem.list m a v) b = if b = a then v else m.get b := by
  induction m with
  | nil => rfl
  | cons e r ih =>
    obtain ⟨k, w⟩ := e
    have hk : k ≠ a := h (k, w) (List.mem_cons_self ..)
    unfold Mem.list
    split
    · rfl
    · rw [Mem.get_cons, Mem.get_cons, ih fun e he => h e (List.mem_cons_of_mem _ he)]
      split
      · subst_vars
        simp [hk]
      · rfl

/-- A byte after a write of one byte. -/
theorem Mem.get_put (m : Mem) (a b : Nat) (v : Byte) : (m.put a v).get b = if b = a then v else m.get b := by
  unfold Mem.put
  dsimp only
  split
  · rename_i h
    rw [Mem.get_drop, h]
  · rw [Mem.get_list _ _ _ _ (by simp), Mem.get_drop]
    split <;> rfl

@[simp] theorem Mem.get_put_same (m : Mem) (a : Nat) (v : Byte) : (m.put a v).get a = v := by simp [Mem.get_put]

theorem Mem.get_put_other (m : Mem) {a b : Nat} (v : Byte) (h : b ≠ a) : (m.put a v).get b = m.get b := by
  simp [Mem.get_put, h]

/-- A byte after a write of several. -/
theorem Mem.get_putBytes (bs : List Byte) (m : Mem) (a b : Nat) :
    (m.putBytes a bs).get b = if a ≤ b then (bs[b - a]?).getD (m.get b) else m.get b := by
  induction bs generalizing m a with
  | nil => simp [Mem.putBytes]
  | cons x bs ih =>
    rw [Mem.putBytes, ih, Mem.get_put]
    by_cases h : a ≤ b
    · by_cases e : b = a
      · subst e
        have h1 : ¬b + 1 ≤ b := by omega
        simp [h1]
      · have h1 : a + 1 ≤ b := by omega
        obtain ⟨k, rfl⟩ : ∃ k, b = a + 1 + k := ⟨b - (a + 1), by omega⟩
        have e1 : a + 1 + k - (a + 1) = k := by omega
        have e2 : a + 1 + k - a = k + 1 := by omega
        simp only [h1, h, e, if_true, if_false, e1, e2, List.getElem?_cons_succ]
    · have h1 : ¬a + 1 ≤ b := by omega
      have h2 : b ≠ a := by omega
      simp [h, h1, h2]

theorem Mem.get_putBytes_other (bs : List Byte) (m : Mem) (a b : Nat) (h : b < a ∨ a + bs.length ≤ b) :
    (m.putBytes a bs).get b = m.get b := by
  rw [Mem.get_putBytes]
  split
  · have : bs.length ≤ b - a := by omega
    simp [this]
  · rfl

@[simp] theorem length_bytesOf (w : Word) : (bytesOf w).length = 4 := rfl

theorem Mem.get_putWord_other (m : Mem) (a b : Nat) (w : Word) (h : b < a ∨ a + 4 ≤ b) : (m.putWord a w).get b = m.get b :=
  Mem.get_putBytes_other _ _ _ _ h

theorem wordOfBytes_bytesOf (w : Word) :
    wordOfBytes ((bytesOf w)[0]?.getD 0) ((bytesOf w)[1]?.getD 0) ((bytesOf w)[2]?.getD 0) ((bytesOf w)[3]?.getD 0) = w := by
  simp only [bytesOf, wordOfBytes, List.getElem?_cons_zero, List.getElem?_cons_succ, Option.getD_some]
  apply BitVec.eq_of_getLsbD_eq
  intro i hi
  simp only [BitVec.getLsbD_append, BitVec.getLsbD_extractLsb']
  interval_cases i <;> simp

/-! ### The canonical form -/

theorem Mem.wfFrom_le {lo lo' : Nat} (h : lo' ≤ lo) {m : Mem} (hm : Mem.wfFrom lo m = true) : Mem.wfFrom lo' m = true := by
  cases m with
  | nil => rfl
  | cons e r =>
    simp only [Mem.wfFrom, Bool.and_eq_true, decide_eq_true_eq] at hm ⊢
    exact ⟨⟨by omega, hm.1.2⟩, hm.2⟩

theorem Mem.wfFrom_drop (a : Nat) (m : Mem) (lo : Nat) (h : Mem.wfFrom lo m = true) :
    Mem.wfFrom lo (m.filter fun e => !(e.1 == a)) = true := by
  induction m generalizing lo with
  | nil => rfl
  | cons e r ih =>
    obtain ⟨k, v⟩ := e
    simp only [Mem.wfFrom, Bool.and_eq_true, decide_eq_true_eq] at h
    by_cases hk : k = a
    · rw [List.filter_cons_of_neg (by simp [hk])]
      exact Mem.wfFrom_le (by omega) (ih _ h.2)
    · rw [List.filter_cons_of_pos (by simp [hk])]
      simp only [Mem.wfFrom, Bool.and_eq_true, decide_eq_true_eq]
      exact ⟨h.1, ih _ h.2⟩

theorem Mem.wfFrom_list (a : Nat) (b : Byte) (hb : b ≠ memDefault) (m : Mem) (lo : Nat) (hl : lo ≤ a)
    (hn : ∀ e ∈ m, e.1 ≠ a) (h : Mem.wfFrom lo m = true) : Mem.wfFrom lo (Mem.list m a b) = true := by
  induction m generalizing lo with
  | nil => simp [Mem.list, Mem.wfFrom, hl, hb]
  | cons e r ih =>
    obtain ⟨k, v⟩ := e
    have hk : k ≠ a := hn (k, v) (List.mem_cons_self ..)
    simp only [Mem.wfFrom, Bool.and_eq_true, decide_eq_true_eq] at h
    unfold Mem.list
    split
    · simp only [Mem.wfFrom, Bool.and_eq_true, decide_eq_true_eq]
      exact ⟨⟨hl, by simp [hb]⟩, ⟨by omega, h.1.2⟩, h.2⟩
    · simp only [Mem.wfFrom, Bool.and_eq_true, decide_eq_true_eq]
      exact ⟨h.1, ih _ (by omega) (fun e he => hn e (List.mem_cons_of_mem _ he)) h.2⟩

/-- A write of one byte keeps the canonical form. -/
theorem Mem.wf_put (m : Mem) (a : Nat) (b : Byte) (h : m.wf = true) : (m.put a b).wf = true := by
  unfold Mem.wf Mem.put
  dsimp only
  split
  · exact Mem.wfFrom_drop a m 0 h
  · rename_i hb
    exact Mem.wfFrom_list a b hb _ 0 (by omega) (by simp) (Mem.wfFrom_drop a m 0 h)

theorem Mem.wf_putBytes (bs : List Byte) (m : Mem) (a : Nat) (h : m.wf = true) : (m.putBytes a bs).wf = true := by
  induction bs generalizing m a with
  | nil => exact h
  | cons x bs ih => exact ih _ _ (Mem.wf_put m a x h)

theorem Mem.wf_putWord (m : Mem) (a : Nat) (w : Word) (h : m.wf = true) : (m.putWord a w).wf = true :=
  Mem.wf_putBytes _ _ _ h

theorem Mem.wf_ringPut (size : Nat) (ws : List Word) (m : Mem) (pos : Nat) (h : m.wf = true) :
    (ringPut size m pos ws).wf = true := by
  induction ws generalizing m pos with
  | nil => exact h
  | cons w ws ih => exact ih _ _ (Mem.wf_putWord m _ w h)

end Sys2Proof.Machine
end

