-- ==== Sys2Proof/Laws/Skel.lean ====
section
/-! SUPPORT. The skeleton of a state: what almost no command changes. It holds the queue, the tally with the two boundaries to come, and
how many mailboxes, network mailboxes, event rings, recorder rings and spokes there are. One lemma per definition says
that it keeps the skeleton; nothing that cites them unfolds a meaning again. -/

namespace Sys2Proof.Machine

/-- The skeleton of a state. -/
structure Skel where
  pending    : List Instr
  tally      : Nat
  nextSample : Nat
  nextFrame  : Nat
  mboxes     : Nat
  nmbs       : Nat
  rings      : Nat
  recs       : Nat
  spokes     : Nat

def State.skel (s : State) : Skel :=
  ⟨s.pending, s.clk.tally, s.clk.nextSample, s.clk.nextFrame, s.mbox.length, s.nmbs.length, s.rings.length, s.recs.length,
    s.spokes.length⟩

@[simp] theorem skel_fold (s : State) :
    Skel.mk s.pending s.clk.tally s.clk.nextSample s.clk.nextFrame s.mbox.length s.nmbs.length s.rings.length s.recs.length
      s.spokes.length = s.skel := rfl

@[simp] theorem skel_mk (clk boot flash regs mbox svc nmbs fw armed vals rings limits fault ladder recs plan ledg maint render snd feeds till chans buses zones sceneRun spokes insts tandems sais aesis aesos pdms gears gearTop net dram pilots adm alarm bell free pending) :
    State.skel ⟨clk, boot, flash, regs, mbox, svc, nmbs, fw, armed, vals, rings, limits, fault, ladder, recs, plan, ledg, maint, render, snd, feeds, till, chans, buses, zones, sceneRun, spokes, insts, tandems, sais, aesis, aesos, pdms, gears, gearTop, net, dram, pilots, adm, alarm, bell, free, pending⟩ =
      ⟨pending, clk.tally, clk.nextSample, clk.nextFrame, mbox.length, nmbs.length, rings.length, recs.length, spokes.length⟩ := rfl

@[simp] theorem skel_ite (c : Prop) [Decidable c] (a b : State) : (if c then a else b).skel = if c then a.skel else b.skel := by
  split <;> rfl

theorem skel_ite_eq {c : Prop} [Decidable c] {a b : State} {k : Skel} (ha : a.skel = k) (hb : b.skel = k) :
    (if c then a else b).skel = k := by
  split <;> assumption

theorem skel_ite_fst {β : Type} {c : Prop} [Decidable c] {a b : State × β} {k : Skel} (ha : a.1.skel = k) (hb : b.1.skel = k) :
    (if c then a else b).1.skel = k := by
  split <;> assumption

/-- The same for what a read answers. -/
theorem skel_opt {c : Prop} [Decidable c] {a b : Option (Word × State)} {k : Skel} (ha : ∀ r, a = some r → r.2.skel = k)
    (hb : ∀ r, b = some r → r.2.skel = k) : ∀ r, (if c then a else b) = some r → r.2.skel = k := by
  split <;> assumption

theorem skel_some {w : Word} {s : State} {k : Skel} (h : s.skel = k) : ∀ r, some (w, s) = some r → r.2.skel = k := by
  intro r e
  cases e
  exact h

theorem skel_opt' {c : Prop} [Decidable c] {a b : Option State} {k : Skel} (ha : ∀ r, a = some r → r.skel = k)
    (hb : ∀ r, b = some r → r.skel = k) : ∀ r, (if c then a else b) = some r → r.skel = k := by
  split <;> assumption

theorem skel_some' {s : State} {k : Skel} (h : s.skel = k) : ∀ r, some s = some r → r.skel = k := by
  intro r e
  cases e
  exact h

/-- The skeleton of the state an outcome goes on with. -/
def nextSkel : Host.Outcome State Fault Refusal → Option Skel
  | .next s => some s.skel
  | _ => none

@[simp] theorem nextSkel_next (s : State) : nextSkel (.next s) = some s.skel := rfl

@[simp] theorem nextSkel_ite (c : Prop) [Decidable c] (a b : Host.Outcome State Fault Refusal) :
    nextSkel (if c then a else b) = if c then nextSkel a else nextSkel b := by
  split <;> rfl

/-- A fold of steps that keep the skeleton keeps it. -/
@[simp] theorem skel_foldl {α : Type} (f : State → α → State) (h : ∀ s a, (f s a).skel = s.skel) :
    ∀ (l : List α) (s : State), (l.foldl f s).skel = s.skel
  | [], _ => rfl
  | a :: l, s => (skel_foldl f h l (f s a)).trans (h s a)

/-- The same for a fold that carries more than the state. -/
theorem skel_foldl_of {α β : Type} (p : β → State) (f : β → α → β) (h : ∀ x a, (p (f x a)).skel = (p x).skel) :
    ∀ (l : List α) (x : β), (p (l.foldl f x)).skel = (p x).skel
  | [], _ => rfl
  | a :: l, x => (skel_foldl_of p f h l (f x a)).trans (h x a)

end Sys2Proof.Machine
end

