-- ==== Sys2Proof/Laws/SkelOps.lean ====
section
/-! SUPPORT. What keeps the skeleton of a state (`State.skel`): the shared operations, feeds, the console and the renderer. -/

namespace Sys2Proof.Machine

set_option maxRecDepth 4000

@[simp] theorem State.updMbox_skel (s a1 a2) : (State.updMbox s a1 a2).skel = s.skel := by
  simp [State.updMbox]

@[simp] theorem State.updRegs_skel (s a1) : (State.updRegs s a1).skel = s.skel := by
  rfl

@[simp] theorem State.updErr_skel (s a1) : (State.updErr s a1).skel = s.skel := by
  rfl

@[simp] theorem State.updFault_skel (s a1) : (State.updFault s a1).skel = s.skel := by
  rfl

@[simp] theorem raiseVec_skel (a0 s) : (raiseVec a0 s).skel = s.skel := by
  rfl

@[simp] theorem raiseVecIf_skel (a0 a1 s) : (raiseVecIf a0 a1 s).skel = s.skel := by
  simp [raiseVecIf]

@[simp] theorem raiseOn_skel (a0 s a2) : (raiseOn a0 s a2).skel = s.skel := by
  unfold raiseOn; split <;> simp

@[simp] theorem ledgerQueue_skel (a0 s) : (ledgerQueue a0 s).skel = s.skel := by
  simp [ledgerQueue]

@[simp] theorem raiseEvent_skel (a0 s) : (raiseEvent a0 s).skel = s.skel := by
  simp [raiseEvent]

@[simp] theorem raiseNode_skel (a0 a1 a2 a3 a4 a5 a6 s) : (raiseNode a0 a1 a2 a3 a4 a5 a6 s).skel = s.skel := by
  simp [raiseNode]

@[simp] theorem raiseOwn_skel (a0 a1 a2 a3 a4 s) : (raiseOwn a0 a1 a2 a3 a4 s).skel = s.skel := by
  simp [raiseOwn]

@[simp] theorem raiseLimited_skel (a0 a1 a2 a3 a4 a5 s) : (raiseLimited a0 a1 a2 a3 a4 a5 s).skel = s.skel := by
  simp [raiseLimited]

@[simp] theorem drawFree_skel (s) : (drawFree s).2.skel = s.skel := by
  rfl

@[simp] theorem busError_skel (a0 a1 a2 a3 a4 s) : (busError a0 a1 a2 a3 a4 s).skel = s.skel := by
  simp [busError]

@[simp] theorem State.updFeed_skel (s a1 a2) : (State.updFeed s a1 a2).skel = s.skel := by
  rfl

@[simp] theorem State.setBank_skel (s a1) : (State.setBank s a1).skel = s.skel := by
  rfl

@[simp] theorem State.dropBank_skel (s a1 a2) : (State.dropBank s a1 a2).skel = s.skel := by
  rfl

@[simp] theorem startSwap_skel (a0 a1 s) : (startSwap a0 a1 s).skel = s.skel := by
  simp [startSwap]

@[simp] theorem requestSwap_skel (a0 a1 a2 s) : (requestSwap a0 a1 a2 s).skel = s.skel := by
  unfold requestSwap; split <;> simp

@[simp] theorem settleCorr_skel (s a1) : (settleCorr s a1).skel = s.skel := by
  unfold settleCorr; dsimp only; (repeat' split) <;> simp_all

@[simp] theorem requestAlign_skel (a0 a1 a2 s) : (requestAlign a0 a1 a2 s).skel = s.skel := by
  unfold requestAlign; split <;> simp

@[simp] theorem settleAlign_skel (s a1) : (settleAlign s a1).skel = s.skel := by
  unfold settleAlign; dsimp only; (repeat' split) <;> simp_all

@[simp] theorem requestEq_skel (a0 a1 s) : (requestEq a0 a1 s).skel = s.skel := by
  unfold requestEq; split <;> simp

@[simp] theorem settleEq_skel (s a1) : (settleEq s a1).skel = s.skel := by
  unfold settleEq; dsimp only; (repeat' split) <;> simp_all

@[simp] theorem askLane_skel (a0 s) : (askLane a0 s).skel = s.skel := by
  unfold askLane; split <;> simp

@[simp] theorem raiseWait_skel (a0 a1 s) : (raiseWait a0 a1 s).skel = s.skel := by
  unfold raiseWait; split <;> simp

@[simp] theorem settleTill_skel (s) : (settleTill s).skel = s.skel := by
  simp [settleTill]

@[simp] theorem settleFeeds_skel (s) : (settleFeeds s).skel = s.skel := by
  simp [settleFeeds]

@[simp] theorem applyFeedWrite_skel (a0 a1 a2 s) : (applyFeedWrite a0 a1 a2 s).skel = s.skel := by
  unfold applyFeedWrite; split <;> simp

@[simp] theorem abandonLoads_skel (a0 a1 a2 a3 s) : (abandonLoads a0 a1 a2 a3 s).skel = s.skel := by
  simp [abandonLoads]

@[simp] theorem shedTails_skel (a0 a1 s) : (shedTails a0 a1 s).skel = s.skel := by
  simp [shedTails]

@[simp] theorem restoreTails_skel (a0 a1 s) : (restoreTails a0 a1 s).skel = s.skel := by
  simp [restoreTails]

@[simp] theorem opFilterLoad_skel (a0 s) : (opFilterLoad a0 s).1.skel = s.skel := by
  unfold opFilterLoad; dsimp only; (repeat' split) <;> simp_all

@[simp] theorem execFilterReady_skel (a0 a1 s) : nextSkel (execFilterReady a0 a1 s) = some s.skel := by
  unfold execFilterReady; split <;> simp

@[simp] theorem execLoadAbandoned_skel (a0 a1 s) : nextSkel (execLoadAbandoned a0 a1 s) = some s.skel := by
  unfold execLoadAbandoned; split <;> simp

@[simp] theorem execLaneReserve_skel (a0 s) : nextSkel (execLaneReserve a0 s) = some s.skel := by
  simp [execLaneReserve]

@[simp] theorem execLaneFillDone_skel (a0 s) : nextSkel (execLaneFillDone a0 s) = some s.skel := by
  unfold execLaneFillDone; (repeat' split) <;> simp

@[simp] theorem State.updChan_skel (s a1 a2) : (State.updChan s a1 a2).skel = s.skel := by
  rfl

@[simp] theorem State.updBus_skel (s a1 a2) : (State.updBus s a1 a2).skel = s.skel := by
  rfl

@[simp] theorem State.updZone_skel (s a1 a2) : (State.updZone s a1 a2).skel = s.skel := by
  rfl

@[simp] theorem fadeReplaced_skel (a0 a1 a2 s) : (fadeReplaced a0 a1 a2 s).skel = s.skel := by
  unfold fadeReplaced
  simp only [raiseNode_skel]
  split <;> first | rfl | simp only [State.updChan_skel, State.updBus_skel]

@[simp] theorem applyChannel_skel (a0 a1 a2 a3 s) : (applyChannel a0 a1 a2 a3 s).skel = s.skel := by
  unfold applyChannel
  extract_lets n v gain route
  split
  · rfl
  · rename_i st _
    have k (f : Channel → Channel) (b : Bool) (m : Node) (u : Nat) :
        (if b then fadeReplaced a0 m u (s.updChan a2 f) else s.updChan a2 f).skel = s.skel := by
      cases b
      · exact State.updChan_skel _ _ _
      · exact (fadeReplaced_skel _ _ _ _).trans (State.updChan_skel _ _ _)
    repeat' first
      | exact State.updChan_skel _ _ _
      | exact k _ _ _ _
      | apply skel_ite_eq
    · split
      · rfl
      · exact k _ _ _ _
    · rfl

@[simp] theorem applyStripBank_skel (a0 a1 a2 s) : (applyStripBank a0 a1 a2 s).skel = s.skel := by
  unfold applyStripBank; (repeat' split) <;> simp

@[simp] theorem applyBus_skel (a0 a1 a2 a3 s) : (applyBus a0 a1 a2 a3 s).skel = s.skel := by
  unfold applyBus; (repeat' split) <;> simp

@[simp] theorem swapDests_skel (a0 s) : (swapDests a0 s).skel = s.skel := by
  unfold swapDests
  refine skel_foldl _ (fun s b => skel_foldl _ (fun s i => ?_) _ _) _ _
  split
  · rfl
  · dsimp only
    split <;> simp only [fadeReplaced_skel, State.updBus_skel]

@[simp] theorem settleScale_skel (a0 s) : (settleScale a0 s).skel = s.skel := by
  simp [settleScale]

@[simp] theorem settleStrips_skel (s) : (settleStrips s).skel = s.skel := by
  rfl

@[simp] theorem shedStrips_skel (s) : (shedStrips s).skel = s.skel := by
  rfl

@[simp] theorem restoreStrips_skel (s) : (restoreStrips s).skel = s.skel := by
  rfl

@[simp] theorem execAmbHoldEnd_skel (a0 s) : nextSkel (execAmbHoldEnd a0 s) = some s.skel := by
  unfold execAmbHoldEnd; (repeat' split) <;> simp

@[simp] theorem endRoute_skel (a0 a1 s) : (endRoute a0 a1 s).skel = s.skel := by
  unfold endRoute; split <;> simp

@[simp] theorem endRamp_skel (a0 a1 s) : (endRamp a0 a1 s).skel = s.skel := by
  unfold endRamp; split <;> simp

@[simp] theorem execRampEnd_skel (a0 a1 s) : nextSkel (execRampEnd a0 a1 s) = some s.skel := by
  simp [execRampEnd]

@[simp] theorem State.updObj_skel (s a1 a2) : (State.updObj s a1 a2).skel = s.skel := by
  rfl

@[simp] theorem planEvents_skel (a0 a1 a2 s) : (planEvents a0 a1 a2 s).skel = s.skel := by
  unfold planEvents; (repeat' split) <;> simp

@[simp] theorem planAll_skel (s) : (planAll s).skel = s.skel := by
  simp [planAll]

@[simp] theorem applyObject_skel (a0 a1 a2 s) : (applyObject a0 a1 a2 s).skel = s.skel := by
  rfl

@[simp] theorem cabSwapApplied_skel (a0 s) : (cabSwapApplied a0 s).skel = s.skel := by
  simp [cabSwapApplied]

@[simp] theorem settleObjs_skel (s) : (settleObjs s).skel = s.skel := by
  rfl

end Sys2Proof.Machine
end

