-- ==== Sys2Proof/Laws/SkelSpoke.lean ====
section
/-! SUPPORT. What keeps the skeleton of a state (`State.skel`): the spokes. -/

namespace Sys2Proof.Machine

set_option maxRecDepth 4000

@[simp] theorem State.updSpoke_skel (s a1 a2) : (State.updSpoke s a1 a2).skel = s.skel := by
  simp [State.updSpoke]

@[simp] theorem State.setCore_skel (s a1 a2) : (State.setCore s a1 a2).skel = s.skel := by
  simp [State.setCore]

@[simp] theorem State.updInst_skel (s a1 a2) : (State.updInst s a1 a2).skel = s.skel := by
  rfl

@[simp] theorem stageFault_skel (a0 a1 s) : (stageFault a0 a1 s).skel = s.skel := by
  unfold stageFault; (repeat' split) <;> simp

@[simp] theorem runSlot_skel (a0 a1 a2 s) : nextSkel (runSlot a0 a1 a2 s) = some s.skel := by
  unfold runSlot; dsimp only; (repeat' split) <;> simp_all

@[simp] theorem loadSlot_skel (a0 a1 a2 a3 a4 a5 s) : nextSkel (loadSlot a0 a1 a2 a3 a4 a5 s) = some s.skel := by
  simp [loadSlot]

@[simp] theorem storeSlot_skel (a0 a1 a2 a3 a4 a5 s) : nextSkel (storeSlot a0 a1 a2 a3 a4 a5 s) = some s.skel := by
  simp [storeSlot]

@[simp] theorem execLnop_skel (a0 s) : nextSkel (execLnop a0 s) = some s.skel := by
  simp [execLnop]

@[simp] theorem execLdW_skel (a0 a1 a2 a3 a4 s) : nextSkel (execLdW a0 a1 a2 a3 a4 s) = some s.skel := by
  simp [execLdW]

@[simp] theorem execLdD_skel (a0 a1 a2 a3 a4 s) : nextSkel (execLdD a0 a1 a2 a3 a4 s) = some s.skel := by
  simp [execLdD]

@[simp] theorem execLdQ_skel (a0 a1 a2 a3 a4 s) : nextSkel (execLdQ a0 a1 a2 a3 a4 s) = some s.skel := by
  simp [execLdQ]

@[simp] theorem execStW_skel (a0 a1 a2 a3 a4 s) : nextSkel (execStW a0 a1 a2 a3 a4 s) = some s.skel := by
  simp [execStW]

@[simp] theorem execStD_skel (a0 a1 a2 a3 a4 s) : nextSkel (execStD a0 a1 a2 a3 a4 s) = some s.skel := by
  simp [execStD]

@[simp] theorem execStQ_skel (a0 a1 a2 a3 a4 s) : nextSkel (execStQ a0 a1 a2 a3 a4 s) = some s.skel := by
  simp [execStQ]

@[simp] theorem execLdWW_skel (a0 a1 a2 a3 a4 s) : nextSkel (execLdWW a0 a1 a2 a3 a4 s) = some s.skel := by
  simp [execLdWW]

@[simp] theorem execLdA_skel (a0 a1 a2 a3 a4 s) : nextSkel (execLdA a0 a1 a2 a3 a4 s) = some s.skel := by
  simp [execLdA]

@[simp] theorem execStA_skel (a0 a1 a2 a3 a4 s) : nextSkel (execStA a0 a1 a2 a3 a4 s) = some s.skel := by
  simp [execStA]

@[simp] theorem execMnop_skel (a0 s) : nextSkel (execMnop a0 s) = some s.skel := by
  simp [execMnop]

@[simp] theorem execMac1_skel (a0 a1 a2 a3 a4 a5 a6 s) : nextSkel (execMac1 a0 a1 a2 a3 a4 a5 a6 s) = some s.skel := by
  simp [execMac1]

@[simp] theorem execMac4V_skel (a0 a1 a2 a3 a4 a5 a6 s) : nextSkel (execMac4V a0 a1 a2 a3 a4 a5 a6 s) = some s.skel := by
  simp [execMac4V]

@[simp] theorem execMac4B_skel (a0 a1 a2 a3 a4 a5 a6 s) : nextSkel (execMac4B a0 a1 a2 a3 a4 a5 a6 s) = some s.skel := by
  simp [execMac4B]

@[simp] theorem execMac4W_skel (a0 a1 a2 a3 a4 a5 a6 s) : nextSkel (execMac4W a0 a1 a2 a3 a4 a5 a6 s) = some s.skel := by
  simp [execMac4W]

@[simp] theorem execCmac_skel (a0 a1 a2 a3 a4 a5 a6 a7 s) : nextSkel (execCmac a0 a1 a2 a3 a4 a5 a6 a7 s) = some s.skel := by
  simp [execCmac]

@[simp] theorem execRed_skel (a0 a1 a2 a3 a4 s) : nextSkel (execRed a0 a1 a2 a3 a4 s) = some s.skel := by
  simp [execRed]

@[simp] theorem execRed4_skel (a0 a1 a2 a3 a4 s) : nextSkel (execRed4 a0 a1 a2 a3 a4 s) = some s.skel := by
  simp [execRed4]

@[simp] theorem execAclr_skel (a0 a1 a2 s) : nextSkel (execAclr a0 a1 a2 s) = some s.skel := by
  simp [execAclr]

@[simp] theorem aluSlot_skel (a0 a1 a2 a3 a4 s) : nextSkel (aluSlot a0 a1 a2 a3 a4 s) = some s.skel := by
  simp [aluSlot]

@[simp] theorem execMulr_skel (a0 a1 a2 a3 a4 s) : nextSkel (execMulr a0 a1 a2 a3 a4 s) = some s.skel := by
  simp [execMulr]

@[simp] theorem execAdd_skel (a0 a1 a2 a3 a4 s) : nextSkel (execAdd a0 a1 a2 a3 a4 s) = some s.skel := by
  simp [execAdd]

@[simp] theorem execSub_skel (a0 a1 a2 a3 a4 s) : nextSkel (execSub a0 a1 a2 a3 a4 s) = some s.skel := by
  simp [execSub]

@[simp] theorem execShl_skel (a0 a1 a2 a3 a4 a5 s) : nextSkel (execShl a0 a1 a2 a3 a4 a5 s) = some s.skel := by
  simp [execShl]

@[simp] theorem execShr_skel (a0 a1 a2 a3 a4 s) : nextSkel (execShr a0 a1 a2 a3 a4 s) = some s.skel := by
  simp [execShr]

@[simp] theorem execAnd_skel (a0 a1 a2 a3 s) : nextSkel (execAnd a0 a1 a2 a3 s) = some s.skel := by
  simp [execAnd]

@[simp] theorem execOr_skel (a0 a1 a2 a3 s) : nextSkel (execOr a0 a1 a2 a3 s) = some s.skel := by
  simp [execOr]

@[simp] theorem execXor_skel (a0 a1 a2 a3 s) : nextSkel (execXor a0 a1 a2 a3 s) = some s.skel := by
  simp [execXor]

@[simp] theorem execMin_skel (a0 a1 a2 a3 s) : nextSkel (execMin a0 a1 a2 a3 s) = some s.skel := by
  simp [execMin]

@[simp] theorem execMax_skel (a0 a1 a2 a3 s) : nextSkel (execMax a0 a1 a2 a3 s) = some s.skel := by
  simp [execMax]

@[simp] theorem execAbs_skel (a0 a1 a2 a3 s) : nextSkel (execAbs a0 a1 a2 a3 s) = some s.skel := by
  simp [execAbs]

@[simp] theorem execNeg_skel (a0 a1 a2 a3 s) : nextSkel (execNeg a0 a1 a2 a3 s) = some s.skel := by
  simp [execNeg]

@[simp] theorem execMov_skel (a0 a1 a2 s) : nextSkel (execMov a0 a1 a2 s) = some s.skel := by
  simp [execMov]

@[simp] theorem ctlSlot_skel (a0 a1 a2 s) : nextSkel (ctlSlot a0 a1 a2 s) = some s.skel := by
  simp [ctlSlot]

@[simp] theorem execCnop_skel (a0 s) : nextSkel (execCnop a0 s) = some s.skel := by
  simp [execCnop]

@[simp] theorem execCmacShort_skel (a0 a1 a2 a3 a4 a5 s) : nextSkel (execCmacShort a0 a1 a2 a3 a4 a5 s) = some s.skel := by
  simp [execCmacShort]

@[simp] theorem execLoop_skel (a0 a1 a2 a3 s) : nextSkel (execLoop a0 a1 a2 a3 s) = some s.skel := by
  simp [execLoop]

@[simp] theorem execLoopr_skel (a0 a1 a2 a3 s) : nextSkel (execLoopr a0 a1 a2 a3 s) = some s.skel := by
  simp [execLoopr]

@[simp] theorem branchSlot_skel (a0 a1 a2 a3 a4 s) : nextSkel (branchSlot a0 a1 a2 a3 a4 s) = some s.skel := by
  simp [branchSlot]

@[simp] theorem execBr_skel (a0 a1 s) : nextSkel (execBr a0 a1 s) = some s.skel := by
  simp [execBr]

@[simp] theorem execBz_skel (a0 a1 a2 s) : nextSkel (execBz a0 a1 a2 s) = some s.skel := by
  simp [execBz]

@[simp] theorem execBnz_skel (a0 a1 a2 s) : nextSkel (execBnz a0 a1 a2 s) = some s.skel := by
  simp [execBnz]

@[simp] theorem execMovp_skel (a0 a1 a2 a3 a4 s) : nextSkel (execMovp a0 a1 a2 a3 a4 s) = some s.skel := by
  simp [execMovp]

@[simp] theorem execFlag_skel (a0 a1 a2 a3 a4 s) : nextSkel (execFlag a0 a1 a2 a3 a4 s) = some s.skel := by
  simp [execFlag]

@[simp] theorem execDma_skel (a0 a1 s) : nextSkel (execDma a0 a1 s) = some s.skel := by
  simp [execDma]

@[simp] theorem execDwait_skel (a0 a1 s) : nextSkel (execDwait a0 a1 s) = some s.skel := by
  simp [execDwait]

@[simp] theorem execDmaComplete_skel (a0 a1 s) : nextSkel (execDmaComplete a0 a1 s) = some s.skel := by
  unfold execDmaComplete; (repeat' split) <;> simp

@[simp] theorem execMoviD_skel (a0 a1 a2 s) : nextSkel (execMoviD a0 a1 a2 s) = some s.skel := by
  simp [execMoviD]

@[simp] theorem moviAddr_skel (a0 a1 a2 a3 s) : nextSkel (moviAddr a0 a1 a2 a3 s) = some s.skel := by
  simp [moviAddr]

@[simp] theorem execMoviP_skel (a0 a1 a2 s) : nextSkel (execMoviP a0 a1 a2 s) = some s.skel := by
  simp [execMoviP]

@[simp] theorem execMoviN_skel (a0 a1 a2 s) : nextSkel (execMoviN a0 a1 a2 s) = some s.skel := by
  simp [execMoviN]

@[simp] theorem execMoviRb_skel (a0 a1 a2 s) : nextSkel (execMoviRb a0 a1 a2 s) = some s.skel := by
  simp [execMoviRb]

@[simp] theorem execMoviRl_skel (a0 a1 a2 s) : nextSkel (execMoviRl a0 a1 a2 s) = some s.skel := by
  simp [execMoviRl]

@[simp] theorem execIllegalBundle_skel (a0 a1 s) : nextSkel (execIllegalBundle a0 a1 s) = some s.skel := by
  unfold execIllegalBundle; split <;> simp

@[simp] theorem execFenceReached_skel (a0 s) : nextSkel (execFenceReached a0 s) = some s.skel := by
  unfold execFenceReached; split <;> simp

end Sys2Proof.Machine
end

