-- ==== Sys2Proof/Laws/SkelPorts.lean ====
section
/-! SUPPORT. What keeps the skeleton of a state (`State.skel`): sample ports, the gear unit and the network block. -/

namespace Sys2Proof.Machine

set_option maxRecDepth 4000

@[simp] theorem State.updSai_skel (s a1 a2) : (State.updSai s a1 a2).skel = s.skel := by
  rfl

@[simp] theorem State.updAesi_skel (s a1 a2) : (State.updAesi s a1 a2).skel = s.skel := by
  rfl

@[simp] theorem State.updAeso_skel (s a1 a2) : (State.updAeso s a1 a2).skel = s.skel := by
  rfl

@[simp] theorem State.updPdm_skel (s a1 a2) : (State.updPdm s a1 a2).skel = s.skel := by
  rfl

@[simp] theorem State.updGear_skel (s a1 a2) : (State.updGear s a1 a2).skel = s.skel := by
  rfl

@[simp] theorem State.updPort_skel (s a1 a2) : (State.updPort s a1 a2).skel = s.skel := by
  unfold State.updPort; split <;> simp

@[simp] theorem gearFeed_skel (a0 a1 s) : (gearFeed a0 a1 s).skel = s.skel := by
  rfl

@[simp] theorem execTdmPeriod_skel (a0 a1 a2 a3 s) : nextSkel (execTdmPeriod a0 a1 a2 a3 s) = some s.skel := by
  unfold execTdmPeriod; split <;> simp

@[simp] theorem execSlotChange_skel (a0 a1 s) : nextSkel (execSlotChange a0 a1 s) = some s.skel := by
  rfl

@[simp] theorem completeBlock_skel (a0 a1 s) : (completeBlock a0 a1 s).skel = s.skel := by
  unfold completeBlock; split <;> simp

@[simp] theorem execAes3Frame_skel (a0 a1 a2 a3 a4 s) : nextSkel (execAes3Frame a0 a1 a2 a3 a4 s) = some s.skel := by
  unfold execAes3Frame; split <;> simp

@[simp] theorem execAes3ValidityRearm_skel (a0 a1 s) : nextSkel (execAes3ValidityRearm a0 a1 s) = some s.skel := by
  simp [execAes3ValidityRearm]

@[simp] theorem settlePort_skel (a0 s) : (settlePort a0 s).skel = s.skel := by
  unfold settlePort; (repeat' split) <;> simp

@[simp] theorem settleIf_skel (a0 a1 s) : nextSkel (settleIf a0 a1 s) = some s.skel := by
  simp [settleIf]

@[simp] theorem execPortLocked_skel (a0 s) : nextSkel (execPortLocked a0 s) = some s.skel := by
  simp [execPortLocked]

@[simp] theorem execPortMismatch_skel (a0 s) : nextSkel (execPortMismatch a0 s) = some s.skel := by
  simp [execPortMismatch]

@[simp] theorem execPortDead_skel (a0 s) : nextSkel (execPortDead a0 s) = some s.skel := by
  simp [execPortDead]

@[simp] theorem execPortStopDetect_skel (a0 a1 s) : nextSkel (execPortStopDetect a0 a1 s) = some s.skel := by
  unfold execPortStopDetect; split <;> simp

@[simp] theorem stopQuietPorts_skel (s) : (stopQuietPorts s).skel = s.skel := by
  unfold stopQuietPorts
  refine skel_foldl _ (fun s id => ?_) _ _
  (repeat' split) <;> first | rfl | simp only [settlePort_skel, State.updPort_skel]

@[simp] theorem execPdmStuck_skel (a0 a1 s) : nextSkel (execPdmStuck a0 a1 s) = some s.skel := by
  unfold execPdmStuck; split <;> simp

@[simp] theorem execPdmRecover_skel (a0 s) : nextSkel (execPdmRecover a0 s) = some s.skel := by
  unfold execPdmRecover; split <;> simp

@[simp] theorem wantReset_skel (a0 a1 a2 s) : (wantReset a0 a1 a2 s).skel = s.skel := by
  rfl

@[simp] theorem settlePdm_skel (a0 s) : (settlePdm a0 s).skel = s.skel := by
  unfold settlePdm; split <;> simp

@[simp] theorem applyPort_skel (a0 a1 a2 s) : (applyPort a0 a1 a2 s).skel = s.skel := by
  unfold applyPort; (repeat' split) <;> simp

@[simp] theorem settleTx_skel (s) : (settleTx s).skel = s.skel := by
  rfl

@[simp] theorem endTx_skel (a0 a1 s) : (endTx a0 a1 s).skel = s.skel := by
  unfold endTx; split <;> simp

@[simp] theorem execAes3OutBlockStart_skel (a0 s) : nextSkel (execAes3OutBlockStart a0 s) = some s.skel := by
  simp [execAes3OutBlockStart]

@[simp] theorem gearReset_skel (a0 a1 a2 s) : (gearReset a0 a1 a2 s).skel = s.skel := by
  simp [gearReset]

@[simp] theorem gearFadeStarted_skel (a0 a1 s) : (gearFadeStarted a0 a1 s).skel = s.skel := by
  simp [gearFadeStarted]

@[simp] theorem settleFilter_skel (a0 s) : (settleFilter a0 s).skel = s.skel := by
  unfold settleFilter; dsimp only; (repeat' split) <;> simp_all

@[simp] theorem applyFilter_skel (a0 a1 s) : (applyFilter a0 a1 s).skel = s.skel := by
  unfold applyFilter; split <;> simp

@[simp] theorem endWarm_skel (a0 s) : (endWarm a0 s).skel = s.skel := by
  unfold endWarm; (repeat' split) <;> simp

@[simp] theorem settleGear_skel (a0 s) : (settleGear a0 s).skel = s.skel := by
  unfold settleGear; dsimp only; (repeat' split) <;> simp_all

@[simp] theorem execGearWarm_skel (a0 s) : nextSkel (execGearWarm a0 s) = some s.skel := by
  simp [execGearWarm]

@[simp] theorem execGearFadeDone_skel (a0 s) : nextSkel (execGearFadeDone a0 s) = some s.skel := by
  simp [execGearFadeDone]

@[simp] theorem applyGear_skel (a0 a1 a2 s) : (applyGear a0 a1 a2 s).skel = s.skel := by
  simp [applyGear]

@[simp] theorem gearBlocks_skel (a0 s) : (gearBlocks a0 s).skel = s.skel := by
  simp [gearBlocks]

@[simp] theorem gearDisagree_skel (a0 s) : (gearDisagree a0 s).skel = s.skel := by
  unfold gearDisagree; split <;> simp

@[simp] theorem gearLoad_skel (a0 s) : (gearLoad a0 s).skel = s.skel := by
  rfl

@[simp] theorem State.updMac_skel (s a1 a2) : (State.updMac s a1 a2).skel = s.skel := by
  rfl

@[simp] theorem State.updTx_skel (s a1 a2) : (State.updTx s a1 a2).skel = s.skel := by
  rfl

@[simp] theorem State.updRx_skel (s a1 a2) : (State.updRx s a1 a2).skel = s.skel := by
  rfl

@[simp] theorem macCount_skel (a0 a1 a2 s) : (macCount a0 a1 a2 s).skel = s.skel := by
  simp [macCount]

@[simp] theorem flushHeld_skel (a0 s) : (flushHeld a0 s).skel = s.skel := by
  simp [flushHeld]

@[simp] theorem pushTx_skel (a0 a1 a2 s) : (pushTx a0 a1 a2 s).skel = s.skel := by
  simp [pushTx]

@[simp] theorem execFrameTransmitStart_skel (a0 s) : nextSkel (execFrameTransmitStart a0 s) = some s.skel := by
  unfold execFrameTransmitStart; dsimp only; (repeat' split) <;> simp_all

@[simp] theorem execFrameTransmitEnd_skel (a0 s) : nextSkel (execFrameTransmitEnd a0 s) = some s.skel := by
  unfold execFrameTransmitEnd; split <;> simp

@[simp] theorem requestGate_skel (a0 a1 s) : (requestGate a0 a1 s).skel = s.skel := by
  simp [requestGate]

@[simp] theorem applyGate_skel (a0 s) : (applyGate a0 s).skel = s.skel := by
  unfold applyGate; split <;> simp

@[simp] theorem execGateListApplied_skel (a0 s) : nextSkel (execGateListApplied a0 s) = some s.skel := by
  simp [execGateListApplied]

@[simp] theorem execGateInterval_skel (a0 s) : nextSkel (execGateInterval a0 s) = some s.skel := by
  rfl

@[simp] theorem pauseAct_skel (a0 a1 s) : (pauseAct a0 a1 s).skel = s.skel := by
  simp [pauseAct]

@[simp] theorem execPauseExpire_skel (a0 s) : nextSkel (execPauseExpire a0 s) = some s.skel := by
  unfold execPauseExpire; split <;> simp

@[simp] theorem execPauseLong_skel (a0 s) : nextSkel (execPauseLong a0 s) = some s.skel := by
  unfold execPauseLong; split <;> simp

@[simp] theorem execLinkChange_skel (a0 a1 a2 s) : nextSkel (execLinkChange a0 a1 a2 s) = some s.skel := by
  simp [execLinkChange]

@[simp] theorem execStreamPacketHandoff_skel (a0 a1 s) : nextSkel (execStreamPacketHandoff a0 a1 s) = some s.skel := by
  unfold execStreamPacketHandoff; (repeat' split) <;> simp

@[simp] theorem execCbPathLost_skel (a0 a1 s) : nextSkel (execCbPathLost a0 a1 s) = some s.skel := by
  unfold execCbPathLost; split <;> simp

@[simp] theorem overrun_skel (a0 a1 a2 s) : (overrun a0 a1 a2 s).skel = s.skel := by
  simp [overrun]

@[simp] theorem placePacket_skel (a0 a1 a2 s) : (placePacket a0 a1 a2 s).skel = s.skel := by
  unfold placePacket; dsimp only; (repeat' split) <;> simp_all

@[simp] theorem rtpStream_skel (a0 a1 a2 s) : (rtpStream a0 a1 a2 s).skel = s.skel := by
  unfold rtpStream; dsimp only; (repeat' split) <;> simp_all

@[simp] theorem rxSamples_skel (a0 s) : (rxSamples a0 s).1.skel = s.skel := by
  unfold rxSamples
  refine skel_foldl_of Prod.fst _ (fun acc x => ?_) _ _
  dsimp only
  (repeat' split) <;> first | rfl | simp only [raiseOwn_skel, State.updRx_skel]

@[simp] theorem changeOffset_skel (a0 s) : (changeOffset a0 s).skel = s.skel := by
  simp [changeOffset]

@[simp] theorem ptpState_skel (a0 a1 s) : (ptpState a0 a1 s).skel = s.skel := by
  simp [ptpState]

@[simp] theorem execMediaOffsetSet_skel (a0 s) : nextSkel (execMediaOffsetSet a0 s) = some s.skel := by
  unfold execMediaOffsetSet; split <;> simp

@[simp] theorem execMediaOffsetChanged_skel (a0 s) : nextSkel (execMediaOffsetChanged a0 s) = some s.skel := by
  simp [execMediaOffsetChanged]

@[simp] theorem applyEnable_skel (a0 s) : (applyEnable a0 s).skel = s.skel := by
  unfold applyEnable; split <;> simp

@[simp] theorem applyNet_skel (a0 a1 s) : (applyNet a0 a1 s).skel = s.skel := by
  unfold applyNet; split <;> simp

@[simp] theorem sendDatagram_skel (a0 a1 a2 s) : (sendDatagram a0 a1 a2 s).skel = s.skel := by
  simp [sendDatagram]

@[simp] theorem nmbDrop_skel (a0 s) : (nmbDrop a0 s).skel = s.skel := by
  simp [nmbDrop]

@[simp] theorem nmbReceive_skel (a0 a1 s) : (nmbReceive a0 a1 s).skel = s.skel := by
  unfold nmbReceive; dsimp only; (repeat' split) <;> simp_all

@[simp] theorem execNmbDatagram_skel (a0 s) : nextSkel (execNmbDatagram a0 s) = some s.skel := by
  unfold execNmbDatagram; (repeat' split) <;> simp

@[simp] theorem replyFrame_skel (a0 a1 s) : (replyFrame a0 a1 s).skel = s.skel := by
  simp [replyFrame]

@[simp] theorem acceptFrame_skel (a0 a1 s) : (acceptFrame a0 a1 s).skel = s.skel := by
  unfold acceptFrame; (repeat' split) <;> simp

@[simp] theorem execEthFrameReceive_skel (a0 a1 s) : nextSkel (execEthFrameReceive a0 a1 s) = some s.skel := by
  simp [execEthFrameReceive]

end Sys2Proof.Machine
end

