-- ==== Sys2Proof/Laws/SkelDram.lean ====
section
/-! SUPPORT. What keeps the skeleton of a state (`State.skel`): the DRAM controller, pilot channels and the Bell path. -/

namespace Sys2Proof.Machine

set_option maxRecDepth 4000

@[simp] theorem State.updDram_skel (s a1) : (State.updDram s a1).skel = s.skel := by
  rfl

@[simp] theorem State.updCh_skel (s a1 a2) : (State.updCh s a1 a2).skel = s.skel := by
  rfl

@[simp] theorem raiseMem_skel (a0 a1 a2 a3 a4 a5 s) : (raiseMem a0 a1 a2 a3 a4 a5 s).skel = s.skel := by
  simp [raiseMem]

@[simp] theorem enterTx_skel (a0 a1 s) : (enterTx a0 a1 s).skel = s.skel := by
  simp [enterTx]

@[simp] theorem admitPorts_skel (s) : (admitPorts s).skel = s.skel := by
  unfold admitPorts
  refine (skel_foldl _ (fun s t => ?_) _ _).trans (State.updDram_skel _ _)
  (repeat' split) <;> first | rfl | simp only [enterTx_skel]

@[simp] theorem acceptReq_skel (a0 s) : (acceptReq a0 s).skel = s.skel := by
  simp [acceptReq]

@[simp] theorem execDramRequestAccept_skel (a0 s) : nextSkel (execDramRequestAccept a0 s) = some s.skel := by
  simp [execDramRequestAccept]

@[simp] theorem activate_skel (a0 a1 a2 a3 a4 s) : (activate a0 a1 a2 a3 a4 s).skel = s.skel := by
  simp [activate]

@[simp] theorem eccCorrected_skel (a0 a1 a2 a3 s) : (eccCorrected a0 a1 a2 a3 s).skel = s.skel := by
  simp [eccCorrected]

@[simp] theorem eccUncorrected_skel (a0 a1 a2 a3 a4 s) : (eccUncorrected a0 a1 a2 a3 a4 s).skel = s.skel := by
  simp [eccUncorrected]

@[simp] theorem eccScan_skel (a0 a1 s) : (eccScan a0 a1 s).1.skel = s.skel := by
  unfold eccScan
  refine skel_foldl_of Prod.fst _ (fun x e => ?_) _ _
  dsimp only
  (repeat' split) <;> first | rfl | simp only [eccCorrected_skel, eccUncorrected_skel]

@[simp] theorem zeroMerged_skel (a0 a1 s) : (zeroMerged a0 a1 s).skel = s.skel := by
  rfl

@[simp] theorem issueTx_skel (a0 a1 a2 s) : (issueTx a0 a1 a2 s).skel = s.skel := by
  simp [issueTx]

@[simp] theorem refresh_skel (a0 s) : (refresh a0 s).skel = s.skel := by
  rfl

@[simp] theorem forcedRefresh_skel (a0 s) : (forcedRefresh a0 s).skel = s.skel := by
  simp [forcedRefresh]

@[simp] theorem scrubGroup_skel (a0 a1 s) : (scrubGroup a0 a1 s).skel = s.skel := by
  simp [scrubGroup]

@[simp] theorem unclaimedSlot_skel (a0 a1 a2 s) : (unclaimedSlot a0 a1 a2 s).skel = s.skel := by
  unfold unclaimedSlot; dsimp only; (repeat' split) <;> simp_all

@[simp] theorem execDramSlot_skel (a0 a1 s) : nextSkel (execDramSlot a0 a1 s) = some s.skel := by
  unfold execDramSlot; dsimp only; (repeat' split) <;> simp_all

@[simp] theorem execVaultRepaired_skel (a0 s) : nextSkel (execVaultRepaired a0 s) = some s.skel := by
  unfold execVaultRepaired; split <;> simp

@[simp] theorem execRefreshInterval_skel (a0 s) : nextSkel (execRefreshInterval a0 s) = some s.skel := by
  simp [execRefreshInterval]

@[simp] theorem execReadPanic_skel (a0 s) : nextSkel (execReadPanic a0 s) = some s.skel := by
  simp [execReadPanic]

@[simp] theorem execAgePromotion_skel (a0 s) : nextSkel (execAgePromotion a0 s) = some s.skel := by
  rfl

@[simp] theorem execMr4Poll_skel (a0 a1 s) : nextSkel (execMr4Poll a0 a1 s) = some s.skel := by
  simp [execMr4Poll]

@[simp] theorem execDqsOscTrack_skel (a0 a1 s) : nextSkel (execDqsOscTrack a0 a1 s) = some s.skel := by
  simp [execDqsOscTrack]

@[simp] theorem execRetrainStart_skel (a0 s) : nextSkel (execRetrainStart a0 s) = some s.skel := by
  simp [execRetrainStart]

@[simp] theorem execRetrainDone_skel (a0 a1 s) : nextSkel (execRetrainDone a0 a1 s) = some s.skel := by
  unfold execRetrainDone; split <;> simp

@[simp] theorem execHammerWindowClear_skel (s) : nextSkel (execHammerWindowClear s) = some s.skel := by
  rfl

@[simp] theorem execBankSkewWindow_skel (a0 s) : nextSkel (execBankSkewWindow a0 s) = some s.skel := by
  simp [execBankSkewWindow]

@[simp] theorem execSetpointChanged_skel (s) : nextSkel (execSetpointChanged s) = some s.skel := by
  unfold execSetpointChanged; split <;> simp

@[simp] theorem dropReads_skel (a0 s) : (dropReads a0 s).skel = s.skel := by
  simp [dropReads]

@[simp] theorem creditRestart_skel (s) : (creditRestart s).skel = s.skel := by
  rfl

theorem ddrRead_skel (a0 s) : ∀ r, (ddrRead a0 s) = some r → r.2.skel = s.skel := by
  unfold ddrRead; (repeat' split) <;> simp

@[simp] theorem withWrites_skel (s a1) : (withWrites s a1).skel = s.skel := by
  rfl

@[simp] theorem withArmed_skel (s) : (withArmed s).skel = s.skel := by
  rfl

@[simp] theorem State.updPilot_skel (s a1 a2) : (State.updPilot s a1 a2).skel = s.skel := by
  simp [State.updPilot]

@[simp] theorem enterPilot_skel (a0 a1 a2 s) : (enterPilot a0 a1 a2 s).skel = s.skel := by
  simp [enterPilot]

@[simp] theorem pilotOn_skel (a0 s) : (pilotOn a0 s).skel = s.skel := by
  unfold pilotOn; dsimp only; (repeat' split) <;> simp_all

@[simp] theorem pilotOff_skel (a0 s) : (pilotOff a0 s).skel = s.skel := by
  unfold pilotOff; dsimp only; (repeat' split) <;> simp_all

@[simp] theorem pilotRange_skel (a0 a1 a2 s) : (pilotRange a0 a1 a2 s).skel = s.skel := by
  simp [pilotRange]

@[simp] theorem pilotTake_skel (a0 a1 s) : (pilotTake a0 a1 s).skel = s.skel := by
  unfold pilotTake; dsimp only; (repeat' split) <;> simp_all

@[simp] theorem pilotDueAt_skel (a0 a1 s) : (pilotDueAt a0 a1 s).skel = s.skel := by
  simp [pilotDueAt]

@[simp] theorem pilotDue_skel (a0 s) : (pilotDue a0 s).skel = s.skel := by
  simp [pilotDue]

@[simp] theorem execPilotParamApply_skel (a0 s) : nextSkel (execPilotParamApply a0 s) = some s.skel := by
  simp [execPilotParamApply]

@[simp] theorem pilotHizEnd_skel (a0 s) : (pilotHizEnd a0 s).skel = s.skel := by
  simp [pilotHizEnd]

@[simp] theorem execRangeHizEnd_skel (a0 s) : nextSkel (execRangeHizEnd a0 s) = some s.skel := by
  simp [execRangeHizEnd]

@[simp] theorem applyPilot_skel (a0 a1 a2 s) : (applyPilot a0 a1 a2 s).skel = s.skel := by
  simp [applyPilot]

@[simp] theorem admitPilot_skel (a0 a1 a2 s) : (admitPilot a0 a1 a2 s).skel = s.skel := by
  simp [admitPilot]

@[simp] theorem dropPilot_skel (a0 a1 s) : (dropPilot a0 a1 s).skel = s.skel := by
  simp [dropPilot]

@[simp] theorem pilotRampStep_skel (a0 s) : (pilotRampStep a0 s).skel = s.skel := by
  unfold pilotRampStep; dsimp only; (repeat' split) <;> simp_all

@[simp] theorem pilotSample_skel (a0 a1 a2 s) : (pilotSample a0 a1 a2 s).skel = s.skel := by
  simp [pilotSample]

@[simp] theorem pilotLine_skel (a0 a1 s) : (pilotLine a0 a1 s).skel = s.skel := by
  simp [pilotLine]

@[simp] theorem pilotCal_skel (a0 a1 s) : (pilotCal a0 a1 s).skel = s.skel := by
  simp [pilotCal]

@[simp] theorem pilotFrame_skel (a0 s) : (pilotFrame a0 s).skel = s.skel := by
  simp [pilotFrame]

@[simp] theorem pilotHiz_skel (a0 s) : (pilotHiz a0 s).skel = s.skel := by
  simp [pilotHiz]

@[simp] theorem pilotsOff_skel (s : State) : (pilotsOff s).skel = s.skel := skel_foldl _ (fun s n => pilotHiz_skel n s) _ s


theorem skel_off (s : State) (p : List Pilot) : State.skel { pilotsOff s with pilots := p } = s.skel := by
  generalize h : pilotsOff s = z
  have e := pilotsOff_skel s
  rw [h] at e
  exact e

@[simp] theorem bellEnablePilot_skel (a0 a1 s) : (bellEnablePilot a0 a1 s).skel = s.skel := by
  simp [bellEnablePilot]

@[simp] theorem State.updTrig_skel (s a1 a2) : (State.updTrig s a1 a2).skel = s.skel := by
  rfl

@[simp] theorem State.updRoute_skel (s a1 a2) : (State.updRoute s a1 a2).skel = s.skel := by
  rfl

@[simp] theorem bellEvent_skel (a0 a1 s) : (bellEvent a0 a1 s).skel = s.skel := by
  simp [bellEvent]

@[simp] theorem bellBegin_skel (a0 s) : (bellBegin a0 s).skel = s.skel := by
  simp [bellBegin]

@[simp] theorem bellStop_skel (a0 s) : (bellStop a0 s).skel = s.skel := by
  simp [bellStop]

@[simp] theorem bellLook_skel (a0 s) : (bellLook a0 s).skel = s.skel := by
  simp [bellLook]

@[simp] theorem bellLookAll_skel (s) : (bellLookAll s).skel = s.skel := by
  simp [bellLookAll]

@[simp] theorem execBellTrigRecognise_skel (a0 a1 s) : nextSkel (execBellTrigRecognise a0 a1 s) = some s.skel := by
  simp [execBellTrigRecognise]

@[simp] theorem bellRepEnd_skel (a0 a1 s) : (bellRepEnd a0 a1 s).skel = s.skel := by
  unfold bellRepEnd; split <;> simp

@[simp] theorem execBellRepetitionEnd_skel (a0 s) : nextSkel (execBellRepetitionEnd a0 s) = some s.skel := by
  simp [execBellRepetitionEnd]

@[simp] theorem bellGapOver_skel (a0 s) : (bellGapOver a0 s).skel = s.skel := by
  unfold bellGapOver; dsimp only; (repeat' split) <;> simp_all

@[simp] theorem execBellGapEnd_skel (a0 s) : nextSkel (execBellGapEnd a0 s) = some s.skel := by
  simp [execBellGapEnd]

@[simp] theorem routeSelect_skel (a0 a1 s) : (routeSelect a0 a1 s).skel = s.skel := by
  unfold routeSelect; dsimp only; (repeat' split) <;> simp_all

@[simp] theorem applyBell_skel (a0 a1 a2 a3 s) : (applyBell a0 a1 a2 a3 s).skel = s.skel := by
  unfold applyBell; split <;> simp

theorem skel_withBell (s : State) (b : Bell) : ({ s with bell := b } : State).skel = s.skel := rfl


@[simp] theorem bellSample_skel (a0 s) : (bellSample a0 s).skel = s.skel := by
  unfold bellSample
  refine (skel_foldl _ (fun s n => ?_) _ _).trans ?_
  · split
    · rfl
    · dsimp only
      split <;> simp
  refine (skel_foldl _ (fun s l => ?_) _ _).trans ?_
  · split <;> simp only [raiseOwn_skel]
  refine (skel_withBell _ _).trans ((skel_withBell _ _).trans ?_)
  refine (skel_foldl _ (fun s n => State.updRoute_skel _ _ _) _ _).trans ?_
  refine (skel_foldl _ (fun s n => by simp only [routeSelect_skel, State.updRoute_skel]) _ _).trans ?_
  exact skel_foldl _ (fun s n => by split <;> simp only [bellRepEnd_skel, bellGapOver_skel]) _ _

@[simp] theorem bellLoad_skel (a0 a1 s) : (bellLoad a0 a1 s).skel = s.skel := by
  rfl

end Sys2Proof.Machine
end

