-- ==== Sys2Proof/Laws/SkelTree.lean ====
section
/-! SUPPORT. What keeps the skeleton of a state (`State.skel`): the tree, escrow, commits and admission. -/

namespace Sys2Proof.Machine

set_option maxRecDepth 4000

@[simp] theorem pinRef_skel (a0 a1 s) : (pinRef a0 a1 s).1.skel = s.skel := by
  unfold pinRef; split <;> simp

@[simp] theorem freeNumbers_skel (s) : (freeNumbers s).skel = s.skel := by
  rfl

theorem unpin_skel (a0 a1 s) : ∀ r, (unpin a0 a1 s) = some r → r.skel = s.skel := by
  unfold unpin; split <;> simp

@[simp] theorem revokeWhere_skel (a0 a1 s) : (revokeWhere a0 a1 s).skel = s.skel := by
  simp [revokeWhere]

@[simp] theorem opPing_skel (a0 s) : (opPing a0 s).1.skel = s.skel := by
  unfold opPing; split <;> simp

@[simp] theorem opLookup_skel (a0 s) : (opLookup a0 s).1.skel = s.skel := by
  unfold opLookup; dsimp only; (repeat' split) <;> simp_all

@[simp] theorem opRelease_skel (a0 s) : (opRelease a0 s).1.skel = s.skel := by
  unfold opRelease
  split
  · rfl
  · split
    · rename_i s' h
      exact unpin_skel _ _ _ _ h
    · rfl

@[simp] theorem opQuery_skel (a0 s) : (opQuery a0 s).1.skel = s.skel := by
  unfold opQuery; (repeat' split) <;> simp

@[simp] theorem opRead_skel (a0 s) : (opRead a0 s).1.skel = s.skel := by
  unfold opRead; (repeat' split) <;> simp

@[simp] theorem stageView_skel (s a1 a2) : (stageView s a1 a2).skel = s.skel := by
  rfl

@[simp] theorem opStage_skel (a0 s) : (opStage a0 s).1.skel = s.skel := by
  unfold opStage; dsimp only; (repeat' split) <;> simp_all

@[simp] theorem clearStaged_skel (a0 s) : (clearStaged a0 s).skel = s.skel := by
  rfl

@[simp] theorem opDiscard_skel (a0 s) : (opDiscard a0 s).1.skel = s.skel := by
  unfold opDiscard; split <;> simp

theorem arm_skel (a0 a1 a2 s) : ∀ r, (arm a0 a1 a2 s) = .ok r → r.1.skel = s.skel := by
  unfold arm; dsimp only; (repeat' split) <;> simp_all

@[simp] theorem opCommit_skel (a0 s) : (opCommit a0 s).1.skel = s.skel := by
  unfold opCommit
  dsimp only
  (repeat' split) <;> first
    | rfl
    | (rename_i h; exact (arm_skel _ _ _ _ _ h).trans (clearStaged_skel _ _))

@[simp] theorem storeScene_skel (a0 a1 s) : (storeScene a0 a1 s).1.skel = s.skel := by
  simp [storeScene]

@[simp] theorem opSceneStore_skel (a0 s) : (opSceneStore a0 s).1.skel = s.skel := by
  unfold opSceneStore
  split
  · rfl
  · extract_lets real list w0 w1' alarm mode nodes bad src i0 i1 staged ws sc
    clear_value bad sc ws src i0 i1
    refine skel_ite_fst rfl (skel_ite_fst rfl ?_)
    cases bad with
    | some i => rfl
    | none =>
      refine skel_ite_fst rfl (skel_ite_fst rfl (skel_ite_fst rfl (skel_ite_fst rfl (skel_ite_fst rfl (skel_ite_fst rfl ?_)))))
      exact (storeScene_skel _ _ _).trans (skel_ite_eq (clearStaged_skel _ _) rfl)

@[simp] theorem opSceneRecall_skel (a0 s) : (opSceneRecall a0 s).1.skel = s.skel := by
  unfold opSceneRecall
  dsimp only
  (repeat' split) <;> first
    | rfl
    | (rename_i h; exact arm_skel _ _ _ _ _ h)

@[simp] theorem applyWrite_skel (a0 a1 s2 a3 a4 s) : (applyWrite a0 a1 s2 a3 a4 s).skel = s.skel := by
  unfold applyWrite; split <;> simp

@[simp] theorem applyOnce_skel (a0 a1 s2 a3 a4 s) : (applyOnce a0 a1 s2 a3 a4 s).skel = s.skel := by
  unfold applyOnce; split <;> simp

@[simp] theorem writeEffects_skel (a0 a1 s2 a3 s) : (writeEffects a0 a1 s2 a3 s).skel = s.skel := by
  simp [writeEffects]

@[simp] theorem commitWrites_skel (a0 a1 a2 s) : (commitWrites a0 a1 a2 s).skel = s.skel := by
  simp [commitWrites]

@[simp] theorem raiseContested_skel (a0 a1 a2 s) : (raiseContested a0 a1 a2 s).skel = s.skel := by
  simp [raiseContested]

@[simp] theorem raiseApplied_skel (a0 a1 a2 s) : (raiseApplied a0 a1 a2 s).skel = s.skel := by
  simp [raiseApplied]

@[simp] theorem startScene_skel (a0 a1 s) : (startScene a0 a1 s).skel = s.skel := by
  simp [startScene]

@[simp] theorem settleScene_skel (a0 s) : (settleScene a0 s).skel = s.skel := by
  unfold settleScene; dsimp only; (repeat' split) <;> simp_all

@[simp] theorem askScene_skel (a0 a1 s) : (askScene a0 a1 s).skel = s.skel := by
  unfold askScene; split <;> simp

@[simp] theorem settleBypasses_skel (s) : (settleBypasses s).skel = s.skel := by
  rfl

@[simp] theorem settleFades_skel (a0 s) : (settleFades a0 s).skel = s.skel := by
  simp [settleFades]

@[simp] theorem applyDue_skel (a0 s) : (applyDue a0 s).skel = s.skel := by
  unfold applyDue; dsimp only; (repeat' split) <;> simp_all

@[simp] theorem settleUnit_skel (a0 s) : (settleUnit a0 s).skel = s.skel := by
  unfold settleUnit; split <;> simp

@[simp] theorem endRouteFade_skel (a0 a1 s) : (endRouteFade a0 a1 s).skel = s.skel := by
  unfold endRouteFade; split <;> simp

@[simp] theorem under_skel (s a1 a2) : (under s a1 a2).skel = s.skel := by
  rfl

@[simp] theorem recordView_skel (s a1) : (recordView s a1).skel = s.skel := by
  unfold recordView; split <;> simp

@[simp] theorem opAdmit_skel (a0 s) : (opAdmit a0 s).1.skel = s.skel := by
  unfold opAdmit; dsimp only; (repeat' split) <;> simp_all

@[simp] theorem raiseDisarmed_skel (a0 a1 a2 a3 s) : (raiseDisarmed a0 a1 a2 a3 s).skel = s.skel := by
  simp [raiseDisarmed]

@[simp] theorem disarmGone_skel (s0 s) : (disarmGone s0 s).skel = s.skel := by
  unfold disarmGone; dsimp only; (repeat' split) <;> simp_all

@[simp] theorem staleScenes_skel (s0 s) : (staleScenes s0 s).skel = s.skel := by
  simp [staleScenes]

@[simp] theorem shedNew_skel (s a1) : (shedNew s a1).skel = s.skel := by
  rfl

@[simp] theorem admitBanks_skel (s0 a1 s) : (admitBanks s0 a1 s).skel = s.skel := by
  simp [admitBanks]

@[simp] theorem admitNodes_skel (s0 a1 s) : (admitNodes s0 a1 s).skel = s.skel := by
  simp [admitNodes]

@[simp] theorem admitMacs_skel (s0 a1 s) : (admitMacs s0 a1 s).skel = s.skel := by
  simp [admitMacs]

@[simp] theorem admitPilots_skel (s0 a1 a2 s) : (admitPilots s0 a1 a2 s).skel = s.skel := by
  simp [admitPilots]

@[simp] theorem admitOffset_skel (s) : (admitOffset s).skel = s.skel := by
  simp [admitOffset]

@[simp] theorem admitNow_skel (a0 s) : (admitNow a0 s).skel = s.skel := by
  unfold admitNow
  dsimp only
  simp only [raiseEvent_skel, settleScale_skel, writeEffects_skel, admitOffset_skel, admitPilots_skel, admitMacs_skel, admitNodes_skel,
    skel_mk]
  refine (revokeWhere_skel _ _ _).trans ((skel_foldl _ (fun s n => ?_) _ _).trans ?_)
  · split <;> first | rfl | simp only [abandonLoads_skel]
  · simp only [staleScenes_skel, disarmGone_skel]

@[simp] theorem applyAdmission_skel (a0 s) : (applyAdmission a0 s).skel = s.skel := by
  unfold applyAdmission; split <;> simp

end Sys2Proof.Machine
end

