-- ==== Sys2Proof/Laws/SkelAlarm.lean ====
section
/-! SUPPORT. What keeps the skeleton of a state (`State.skel`): ALARM frames, the computation of a frame, the ladder and faults. -/

namespace Sys2Proof.Machine

set_option maxRecDepth 4000

@[simp] theorem charge_skel (a0 s) : (charge a0 s).skel = s.skel := by
  simp [charge]

@[simp] theorem expireCharges_skel (a0 s) : (expireCharges a0 s).skel = s.skel := by
  rfl

@[simp] theorem execAuditChargeExpire_skel (a0 s) : nextSkel (execAuditChargeExpire a0 s) = some s.skel := by
  rfl

@[simp] theorem chargeCopy_skel (a0 a1 a2 a3 s) : (chargeCopy a0 a1 a2 a3 s).skel = s.skel := by
  simp [chargeCopy]

@[simp] theorem resolveNode_skel (a0 a1 a2 s) : (resolveNode a0 a1 a2 s).skel = s.skel := by
  unfold resolveNode; dsimp only; (repeat' split) <;> simp_all

@[simp] theorem noteFaults_skel (a0 a1 s) : (noteFaults a0 a1 s).skel = s.skel := by
  unfold noteFaults; dsimp only; (repeat' split) <;> simp_all

@[simp] theorem markNode_skel (a0 a1 a2 s) : (markNode a0 a1 a2 s).skel = s.skel := by
  unfold markNode; split <;> simp

@[simp] theorem execAlarmMark_skel (a0 s) : nextSkel (execAlarmMark a0 s) = some s.skel := by
  unfold execAlarmMark; split <;> simp

@[simp] theorem execAuditResolution_skel (a0 a1 s) : nextSkel (execAuditResolution a0 a1 s) = some s.skel := by
  unfold execAuditResolution; split <;> simp

@[simp] theorem closeMark_skel (a0 s) : (closeMark a0 s).skel = s.skel := by
  simp [closeMark]

@[simp] theorem countAlarm_skel (s) : (countAlarm s).skel = s.skel := by
  simp [countAlarm]

@[simp] theorem execSpokeOverrun_skel (a0 s) : nextSkel (execSpokeOverrun a0 s) = some s.skel := by
  unfold execSpokeOverrun; split <;> simp

@[simp] theorem lossFades_skel (a0 s) : (lossFades a0 s).skel = s.skel := by
  rfl

@[simp] theorem notePast_skel (s a1) : (notePast s a1).skel = s.skel := by
  rfl

@[simp] theorem ambAll_skel (a0 a1 a2 s) : (ambAll a0 a1 a2 s).skel = s.skel := by
  simp [ambAll]

@[simp] theorem clipEvents_skel (a0 a1 a2 a3 s) : (clipEvents a0 a1 a2 a3 s).skel = s.skel := by
  simp [clipEvents]

@[simp] theorem computeFrame_skel (a0 s) : (computeFrame a0 s).skel = s.skel := by
  simp [computeFrame]

@[simp] theorem closeInsts_skel (a0 s) : (closeInsts a0 s).skel = s.skel := by
  simp [closeInsts]

@[simp] theorem closeRunning_skel (s) : (closeRunning s).skel = s.skel := by
  unfold closeRunning; split <;> simp

@[simp] theorem rotateGather_skel (s) : (rotateGather s).skel = s.skel := by
  simp [rotateGather]

@[simp] theorem closeFrame_skel (s) : (closeFrame s).skel = s.skel := by
  simp [closeFrame]

@[simp] theorem boundaryWork_skel (s) : (boundaryWork s).skel = s.skel := by
  simp [boundaryWork]

@[simp] theorem execCommitApply_skel (s) : nextSkel (execCommitApply s) = some s.skel := by
  simp [execCommitApply]

@[simp] theorem execAdmissionApply_skel (s) : nextSkel (execAdmissionApply s) = some s.skel := by
  simp [execAdmissionApply]

@[simp] theorem execSwapDone_skel (a0 s) : nextSkel (execSwapDone a0 s) = some s.skel := by
  simp [execSwapDone]

@[simp] theorem execRouteFadeEnd_skel (a0 a1 s) : nextSkel (execRouteFadeEnd a0 a1 s) = some s.skel := by
  simp [execRouteFadeEnd]

@[simp] theorem execSceneDone_skel (s) : nextSkel (execSceneDone s) = some s.skel := by
  simp [execSceneDone]

@[simp] theorem restartNodes_skel (a0 s) : (restartNodes a0 s).skel = s.skel := by
  simp [restartNodes]

@[simp] theorem fadeNodesOut_skel (a0 a1 a2 s) : (fadeNodesOut a0 a1 a2 s).skel = s.skel := by
  rfl

@[simp] theorem fadeNodesIn_skel (a0 a1 a2 s) : (fadeNodesIn a0 a1 a2 s).skel = s.skel := by
  rfl

@[simp] theorem takeStep_skel (a0 a1 s) : (takeStep a0 a1 s).skel = s.skel := by
  unfold takeStep; split <;> simp

@[simp] theorem undoStep_skel (a0 a1 s) : (undoStep a0 a1 s).skel = s.skel := by
  unfold undoStep; split <;> simp

@[simp] theorem moveTo_skel (a0 a1 s) : (moveTo a0 a1 s).skel = s.skel := by
  rfl

@[simp] theorem takeSteps_skel (a0 a1 a2 s) : (takeSteps a0 a1 a2 s).skel = s.skel := by
  simp [takeSteps]

@[simp] theorem evaluateLadder_skel (a0 s) : (evaluateLadder a0 s).skel = s.skel := by
  unfold evaluateLadder; split <;> simp

@[simp] theorem execLadderEvaluate_skel (s) : nextSkel (execLadderEvaluate s) = some s.skel := by
  simp [execLadderEvaluate]

@[simp] theorem undoOne_skel (a0 s) : (undoOne a0 s).skel = s.skel := by
  simp [undoOne]

@[simp] theorem execLadderUndo_skel (s) : nextSkel (execLadderUndo s) = some s.skel := by
  simp [execLadderUndo]

@[simp] theorem fadeWords_skel (a0 a1 s) : (fadeWords a0 a1 s).skel = s.skel := by
  rfl

@[simp] theorem healCopies_skel (a0 s) : (healCopies a0 s).skel = s.skel := by
  rfl

@[simp] theorem moveAuditors_skel (a0 a1 s) : (moveAuditors a0 a1 s).skel = s.skel := by
  unfold moveAuditors
  refine skel_foldl _ (fun s e => ?_) _ _
  dsimp only
  split
  · rfl
  · simp only [raiseOwn_skel]
    rfl

@[simp] theorem setRole_skel (a0 a1 s) : (setRole a0 a1 s).skel = s.skel := by
  simp [setRole]

@[simp] theorem markRetired_skel (a0 s) : (markRetired a0 s).skel = s.skel := by
  simp [markRetired]

@[simp] theorem takeSchedule_skel (a0 a1 a2 a3 s) : (takeSchedule a0 a1 a2 a3 s).skel = s.skel := by
  simp [takeSchedule]

@[simp] theorem retireSpoke_skel (a0 a1 s) : (retireSpoke a0 a1 s).skel = s.skel := by
  unfold retireSpoke; dsimp only; (repeat' split) <;> simp_all

@[simp] theorem retireAll_skel (a0 s) : (retireAll a0 s).skel = s.skel := by
  simp [retireAll]

@[simp] theorem execSpokeRetired_skel (a0 s) : nextSkel (execSpokeRetired a0 s) = some s.skel := by
  simp [execSpokeRetired]

@[simp] theorem execPlannedPromotion_skel (a0 s) : nextSkel (execPlannedPromotion a0 s) = some s.skel := by
  unfold execPlannedPromotion; dsimp only; (repeat' split) <;> simp_all

@[simp] theorem applyPlace_skel (a0 a1 a2 a3 a4 s) : (applyPlace a0 a1 a2 a3 a4 s).skel = s.skel := by
  unfold applyPlace; split <;> simp

@[simp] theorem execPlacementChanged_skel (s) : nextSkel (execPlacementChanged s) = some s.skel := by
  unfold execPlacementChanged; dsimp only; (repeat' split) <;> simp_all

@[simp] theorem restartStores_skel (a0 s) : (restartStores a0 s).skel = s.skel := by
  rfl

@[simp] theorem failChannel_skel (a0 a1 a2 s) : (failChannel a0 a1 a2 s).skel = s.skel := by
  simp [failChannel]

@[simp] theorem failPending_skel (a0 s) : (failPending a0 s).skel = s.skel := by
  unfold failPending
  refine skel_foldl _ (fun s ch => ?_) _ _
  (repeat' split) <;> first | rfl | simp only [failChannel_skel]

@[simp] theorem execChannelFailed_skel (a0 a1 s) : nextSkel (execChannelFailed a0 a1 s) = some s.skel := by
  unfold execChannelFailed; dsimp only; (repeat' split) <;> simp_all

@[simp] theorem gearCount_skel (a0 s) : (gearCount a0 s).skel = s.skel := by
  unfold gearCount
  extract_lets now ds
  split
  · exact (raiseOwn_skel _ _ _ _ _ _).trans (skel_mk ..)
  · exact skel_mk ..

@[simp] theorem execGearFaultClear_skel (s) : nextSkel (execGearFaultClear s) = some s.skel := by
  unfold execGearFaultClear; split <;> simp

@[simp] theorem settleFaults_skel (s) : (settleFaults s).skel = s.skel := by
  simp [settleFaults]

@[simp] theorem execFaultOutput_skel (s) : nextSkel (execFaultOutput s) = some s.skel := by
  simp [execFaultOutput]

@[simp] theorem execReleaseWordTimeout_skel (a0 s) : nextSkel (execReleaseWordTimeout a0 s) = some s.skel := by
  simp [execReleaseWordTimeout]

@[simp] theorem execFaultClockStop_skel (a0 s) : nextSkel (execFaultClockStop a0 s) = some s.skel := by
  unfold execFaultClockStop; split <;> simp

@[simp] theorem updPair_skel (a0 a1 s) : (updPair a0 a1 s).skel = s.skel := by
  rfl

@[simp] theorem setPairState_skel (a0 a1 s) : (setPairState a0 a1 s).skel = s.skel := by
  simp [setPairState]

@[simp] theorem detectFailure_skel (s) : (detectFailure s).skel = s.skel := by
  simp [detectFailure]

@[simp] theorem execTellerDivergence_skel (s) : nextSkel (execTellerDivergence s) = some s.skel := by
  simp [execTellerDivergence]

@[simp] theorem execHeartbeatTimeout_skel (s) : nextSkel (execHeartbeatTimeout s) = some s.skel := by
  simp [execHeartbeatTimeout]

@[simp] theorem setService_skel (a0 a1 s) : (setService a0 a1 s).skel = s.skel := by
  simp [setService]

@[simp] theorem enterFailover_skel (s) : (enterFailover s).skel = s.skel := by
  unfold enterFailover; split <;> simp

@[simp] theorem execFailoverEnter_skel (s) : nextSkel (execFailoverEnter s) = some s.skel := by
  simp [execFailoverEnter]

@[simp] theorem execTellerSelfTestDone_skel (a0 a1 s) : nextSkel (execTellerSelfTestDone a0 a1 s) = some s.skel := by
  simp [execTellerSelfTestDone]

end Sys2Proof.Machine
end

