-- ==== Sys2Proof/Laws/SkelMailbox.lean ====
section
/-! SUPPORT. What keeps the skeleton of a state (`State.skel`): the recorder, the re-plan, the ledgers, updates, mailboxes and stages. -/

namespace Sys2Proof.Machine

set_option maxRecDepth 4000

@[simp] theorem State.updHd_skel (s a1 a2) : (State.updHd s a1 a2).skel = s.skel := by
  rfl

@[simp] theorem hostWrite_skel (a0 a1 s) : (hostWrite a0 a1 s).skel = s.skel := by
  rfl

@[simp] theorem completeDesc_skel (a0 a1 a2 a3 s) : (completeDesc a0 a1 a2 a3 s).skel = s.skel := by
  simp [completeDesc]

@[simp] theorem drainRing_skel (a0 a1 s) : (drainRing a0 a1 s).skel = s.skel := by
  induction a1 generalizing s with
  | zero => rfl
  | succ k ih =>
    unfold drainRing
    dsimp only
    split
    · split
      · rw [ih]
        simp
      · simp
    · rfl

@[simp] theorem execHostDmaDescriptor_skel (a0 a1 s) : nextSkel (execHostDmaDescriptor a0 a1 s) = some s.skel := by
  simp [execHostDmaDescriptor]

@[simp] theorem stageRecord_skel (a0 a1 s) : (stageRecord a0 a1 s).skel = s.skel := by
  simp [stageRecord]

@[simp] theorem recordBlock_skel (a0 s) : (recordBlock a0 s).skel = s.skel := by
  unfold recordBlock
  exact (skel_foldl _ (fun s r => drainRing_skel _ _ _) _ _).trans (skel_foldl _ (fun s i => stageRecord_skel _ _ _) _ _)

@[simp] theorem execRecorderFlush_skel (a0 s) : nextSkel (execRecorderFlush a0 s) = some s.skel := by
  unfold execRecorderFlush; split <;> simp

@[simp] theorem writeMargin_skel (a0 a1 s) : (writeMargin a0 a1 s).skel = s.skel := by
  rfl

@[simp] theorem restorePlan_skel (s) : (restorePlan s).skel = s.skel := by
  unfold restorePlan; split <;> simp

@[simp] theorem decidePlan_skel (a0 a1 s) : (decidePlan a0 a1 s).skel = s.skel := by
  simp [decidePlan]

@[simp] theorem execReplan_skel (a0 a1 a2 s) : nextSkel (execReplan a0 a1 a2 s) = some s.skel := by
  simp [execReplan]

@[simp] theorem writeEntry_skel (a0 a1 s) : (writeEntry a0 a1 s).skel = s.skel := by
  rfl

@[simp] theorem execLedgerEntryWrite_skel (s) : nextSkel (execLedgerEntryWrite s) = some s.skel := by
  unfold execLedgerEntryWrite; split <;> simp

@[simp] theorem execOpSecondsSave_skel (s) : nextSkel (execOpSecondsSave s) = some s.skel := by
  simp [execOpSecondsSave]

@[simp] theorem opLedgerRead_skel (a0 s) : (opLedgerRead a0 s).1.skel = s.skel := by
  unfold opLedgerRead; dsimp only; (repeat' split) <;> simp_all

@[simp] theorem opLedgerClear_skel (a0 s) : (opLedgerClear a0 s).1.skel = s.skel := by
  unfold opLedgerClear; dsimp only; (repeat' split) <;> simp_all

@[simp] theorem raiseRefused_skel (a0 a1 s) : (raiseRefused a0 a1 s).skel = s.skel := by
  simp [raiseRefused]

@[simp] theorem printLine_skel (a0 s) : (printLine a0 s).skel = s.skel := by
  rfl

@[simp] theorem traceLine_skel (a0 a1 a2 s) : (traceLine a0 a1 a2 s).skel = s.skel := by
  simp [traceLine]

@[simp] theorem setCfg_skel (a0 a1 s) : (setCfg a0 a1 s).skel = s.skel := by
  rfl

@[simp] theorem applyNmb_skel (a0 a1 s) : (applyNmb a0 a1 s).skel = s.skel := by
  simp [applyNmb]

@[simp] theorem applyFlashNmb_skel (s) : (applyFlashNmb s).skel = s.skel := by
  unfold applyFlashNmb; split <;> simp

@[simp] theorem internalEntry_skel (a0 s) : (internalEntry a0 s).1.skel = s.skel := by
  rfl

@[simp] theorem opNmbConfig_skel (a0 a1 s) : (opNmbConfig a0 a1 s).1.skel = s.skel := by
  unfold opNmbConfig; dsimp only; (repeat' split) <;> simp_all

@[simp] theorem raiseFw_skel (a0 a1 a2 s) : (raiseFw a0 a1 a2 s).skel = s.skel := by
  simp [raiseFw]

@[simp] theorem cancelUpdate_skel (a0 s) : (cancelUpdate a0 s).skel = s.skel := by
  unfold cancelUpdate; split <;> simp

@[simp] theorem eraseTarget_skel (a0 s) : (eraseTarget a0 s).skel = s.skel := by
  simp [eraseTarget]

@[simp] theorem opFwBegin_skel (a0 s) : (opFwBegin a0 s).1.skel = s.skel := by
  unfold opFwBegin; dsimp only; (repeat' split) <;> simp_all

@[simp] theorem opFwData_skel (a0 s) : (opFwData a0 s).1.skel = s.skel := by
  unfold opFwData; dsimp only; (repeat' split) <;> simp_all

@[simp] theorem commitUpdate_skel (a0 s) : (commitUpdate a0 s).skel = s.skel := by
  simp [commitUpdate]

@[simp] theorem opFwEnd_skel (a0 s) : (opFwEnd a0 s).1.skel = s.skel := by
  unfold opFwEnd; (repeat' split) <;> simp

@[simp] theorem execFwUpdateTimeout_skel (s) : nextSkel (execFwUpdateTimeout s) = some s.skel := by
  unfold execFwUpdateTimeout; split <;> simp

@[simp] theorem opEventRingSet_skel (a0 s) : (opEventRingSet a0 s).1.skel = s.skel := by
  unfold opEventRingSet; dsimp only; (repeat' split) <;> simp_all

@[simp] theorem applyRing_skel (a0 a1 s) : (applyRing a0 a1 s).skel = s.skel := by
  simp [applyRing]

@[simp] theorem writeEvRd_skel (a0 a1 s) : (writeEvRd a0 a1 s).skel = s.skel := by
  unfold writeEvRd; split <;> simp

@[simp] theorem execHubEvRdWrite_skel (a0 a1 s) : nextSkel (execHubEvRdWrite a0 a1 s) = some s.skel := by
  simp [execHubEvRdWrite]

@[simp] theorem withdraw_skel (a0 s) : (withdraw a0 s).skel = s.skel := by
  simp [withdraw]

@[simp] theorem execKeyChanged_skel (a0 s) : nextSkel (execKeyChanged a0 s) = some s.skel := by
  simp [execKeyChanged]

@[simp] theorem execSealBitSample_skel (a0 s) : nextSkel (execSealBitSample a0 s) = some s.skel := by
  simp [execSealBitSample]

@[simp] theorem writeInWr_skel (a0 a1 s) : (writeInWr a0 a1 s).skel = s.skel := by
  simp [writeInWr]

@[simp] theorem writeOutRd_skel (a0 a1 s) : (writeOutRd a0 a1 s).skel = s.skel := by
  simp [writeOutRd]

@[simp] theorem execHubMbInWrWrite_skel (a0 a1 s) : nextSkel (execHubMbInWrWrite a0 a1 s) = some s.skel := by
  simp [execHubMbInWrWrite]

@[simp] theorem execHubMbOutRdWrite_skel (a0 a1 s) : nextSkel (execHubMbOutRdWrite a0 a1 s) = some s.skel := by
  simp [execHubMbOutRdWrite]

@[simp] theorem consume_skel (a0 a1 s) : (consume a0 a1 s).skel = s.skel := by
  simp [consume]

@[simp] theorem park_skel (a0 a1 s) : (park a0 a1 s).skel = s.skel := by
  rfl

@[simp] theorem applyAfter_skel (a0 s) : (applyAfter a0 s).skel = s.skel := by
  unfold applyAfter; split <;> simp

@[simp] theorem fixAdmission_skel (a0 s) : (fixAdmission a0 s).skel = s.skel := by
  unfold fixAdmission; split <;> simp

@[simp] theorem answerNet_skel (a0 a1 s) : (answerNet a0 a1 s).skel = s.skel := by
  unfold answerNet; split <;> simp

@[simp] theorem writeResp_skel (a0 s) : (writeResp a0 s).skel = s.skel := by
  unfold writeResp; dsimp only; (repeat' split) <;> simp_all

@[simp] theorem execResponseWrite_skel (a0 s) : nextSkel (execResponseWrite a0 s) = some s.skel := by
  simp [execResponseWrite]

@[simp] theorem runOp_skel (a0 a1 a2 s) : (runOp a0 a1 a2 s).1.skel = s.skel := by
  unfold runOp; split <;> simp

@[simp] theorem answer_skel (a0 a1 a2 s) : (answer a0 a1 a2 s).1.skel = s.skel := by
  unfold answer; dsimp only; (repeat' split) <;> simp_all

@[simp] theorem serve_skel (a0 a1 a2 s) : (serve a0 a1 a2 s).skel = s.skel := by
  simp [serve]

@[simp] theorem checkAndServe_skel (a0 a1 a2 s) : (checkAndServe a0 a1 a2 s).skel = s.skel := by
  unfold checkAndServe; dsimp only; (repeat' split) <;> simp_all

@[simp] theorem rejectLength_skel (a0 a1 a2 a3 s) : (rejectLength a0 a1 a2 a3 s).skel = s.skel := by
  simp [rejectLength]

@[simp] theorem takeFrom_skel (a0 s) : (takeFrom a0 s).skel = s.skel := by
  unfold takeFrom; dsimp only; (repeat' split) <;> simp_all

@[simp] theorem execRequestTake_skel (s) : nextSkel (execRequestTake s) = some s.skel := by
  unfold execRequestTake; (repeat' split) <;> simp

@[simp] theorem execRequestTimeout_skel (a0 s) : nextSkel (execRequestTimeout a0 s) = some s.skel := by
  simp [execRequestTimeout]

@[simp] theorem execHubBusyAnswer_skel (a0 s) : nextSkel (execHubBusyAnswer a0 s) = some s.skel := by
  unfold execHubBusyAnswer; (repeat' split) <;> simp

@[simp] theorem undoRequest_skel (s) : (undoRequest s).skel = s.skel := by
  unfold undoRequest; (repeat' split) <;> simp

@[simp] theorem execTellerTakeover_skel (s) : nextSkel (execTellerTakeover s) = some s.skel := by
  unfold execTellerTakeover; (repeat' split) <;> simp

@[simp] theorem execPing_skel (a0 s) : nextSkel (execPing a0 s) = some s.skel := by
  simp [execPing]

@[simp] theorem execLookup_skel (a0 s) : nextSkel (execLookup a0 s) = some s.skel := by
  simp [execLookup]

@[simp] theorem execRelease_skel (a0 s) : nextSkel (execRelease a0 s) = some s.skel := by
  simp [execRelease]

@[simp] theorem execQuery_skel (a0 s) : nextSkel (execQuery a0 s) = some s.skel := by
  simp [execQuery]

@[simp] theorem execRead_skel (a0 s) : nextSkel (execRead a0 s) = some s.skel := by
  simp [execRead]

@[simp] theorem execStage_skel (a0 s) : nextSkel (execStage a0 s) = some s.skel := by
  simp [execStage]

@[simp] theorem execCommit_skel (a0 s) : nextSkel (execCommit a0 s) = some s.skel := by
  simp [execCommit]

@[simp] theorem execDiscard_skel (a0 s) : nextSkel (execDiscard a0 s) = some s.skel := by
  simp [execDiscard]

@[simp] theorem execAdmitConfig_skel (a0 s) : nextSkel (execAdmitConfig a0 s) = some s.skel := by
  simp [execAdmitConfig]

@[simp] theorem execSceneStore_skel (a0 s) : nextSkel (execSceneStore a0 s) = some s.skel := by
  simp [execSceneStore]

@[simp] theorem execSceneRecall_skel (a0 s) : nextSkel (execSceneRecall a0 s) = some s.skel := by
  simp [execSceneRecall]

@[simp] theorem execFilterLoad_skel (a0 s) : nextSkel (execFilterLoad a0 s) = some s.skel := by
  simp [execFilterLoad]

@[simp] theorem execEventRingSet_skel (a0 s) : nextSkel (execEventRingSet a0 s) = some s.skel := by
  simp [execEventRingSet]

@[simp] theorem execLedgerRead_skel (a0 s) : nextSkel (execLedgerRead a0 s) = some s.skel := by
  simp [execLedgerRead]

@[simp] theorem execLedgerClear_skel (a0 s) : nextSkel (execLedgerClear a0 s) = some s.skel := by
  simp [execLedgerClear]

@[simp] theorem execFwBegin_skel (a0 s) : nextSkel (execFwBegin a0 s) = some s.skel := by
  simp [execFwBegin]

@[simp] theorem execFwData_skel (a0 s) : nextSkel (execFwData a0 s) = some s.skel := by
  simp [execFwData]

@[simp] theorem execFwEnd_skel (a0 s) : nextSkel (execFwEnd a0 s) = some s.skel := by
  simp [execFwEnd]

@[simp] theorem execNmbConfig_skel (a0 a1 s) : nextSkel (execNmbConfig a0 a1 s) = some s.skel := by
  simp [execNmbConfig]

@[simp] theorem execInstanceEntry_skel (a0 a1 s) : nextSkel (execInstanceEntry a0 a1 s) = some s.skel := by
  unfold execInstanceEntry; split <;> simp

@[simp] theorem exitInst_skel (a0 a1 a2 s) : (exitInst a0 a1 a2 s).skel = s.skel := by
  rfl

@[simp] theorem execExit_skel (a0 s) : nextSkel (execExit a0 s) = some s.skel := by
  unfold execExit
  split
  · rfl
  · split
    · simp only [ctlSlot_skel]
    · dsimp only
      have h := runSlot_skel a0 (ctlSpec true [] []) (fun c =>
        if atLoopEnd c then (c, some 1) else ({ endBundle 0 c with mode := .drain }, none)) s
      split
      · rename_i s' e
        rw [e] at h
        (repeat' split) <;> simp_all
      · exact h

@[simp] theorem execInstanceDrainDone_skel (a0 s) : nextSkel (execInstanceDrainDone a0 s) = some s.skel := by
  unfold execInstanceDrainDone; (repeat' split) <;> simp

end Sys2Proof.Machine
end

