-- ==== Sys2Proof/Laws/SkelHost.lean ====
section
/-! SUPPORT. What keeps the skeleton of a state (`State.skel`): host access and registers. -/

namespace Sys2Proof.Machine

set_option maxRecDepth 4000

@[simp] theorem pairErr_skel (s) : (pairErr s).skel = s.skel := by
  rfl

@[simp] theorem dropHalf_skel (a0 s) : (dropHalf a0 s).skel = s.skel := by
  rfl

@[simp] theorem writeHalf_skel (a0 a1 a2 s) : (writeHalf a0 a1 a2 s).skel = s.skel := by
  simp [writeHalf]

@[simp] theorem pairEffect_skel (a0 a1 s) : (pairEffect a0 a1 s).skel = s.skel := by
  simp [pairEffect]

@[simp] theorem writeComplement_skel (a0 a1 a2 s) : (writeComplement a0 a1 a2 s).skel = s.skel := by
  unfold writeComplement; split <;> simp

@[simp] theorem writeSnapshot_skel (a0 s) : (writeSnapshot a0 s).skel = s.skel := by
  simp [writeSnapshot]

theorem netRead_skel (a0 a1 s) : ∀ r, (netRead a0 a1 s) = some r → r.2.skel = s.skel := by
  unfold netRead; (repeat' split) <;> simp

theorem indRead_skel (a0 s) : ∀ r, (indRead a0 s) = some r → r.2.skel = s.skel := by
  unfold indRead
  intro r h
  split at h
  · exact ddrRead_skel _ _ _ h
  · split at h
    · exact netRead_skel _ _ _ _ h
    · cases h
      rfl

@[simp] theorem updBank_skel (a0 a1 s) : (updBank a0 a1 s).skel = s.skel := by
  unfold updBank; split <;> simp

@[simp] theorem indDataRead_skel (a0 s) : (indDataRead a0 s).2.skel = s.skel := by
  unfold indDataRead
  dsimp only
  split
  · simp only [updBank_skel]
  · split
    · simp only [updBank_skel]
    · cases h : indRead (bankOf s a0).addr.toNat (updBank a0 stepBank s) with
      | none => simp only [Option.getD_none, updBank_skel]
      | some r => exact (indRead_skel _ _ _ h).trans (updBank_skel _ _ _)

@[simp] theorem indDataWrite_skel (a0 a1 s) : (indDataWrite a0 a1 s).skel = s.skel := by
  unfold indDataWrite; dsimp only; (repeat' split) <;> simp_all

theorem mboxRead_skel (a0 a1 s) : ∀ r, (mboxRead a0 a1 s) = some r → r.2.skel = s.skel := by
  unfold mboxRead; split <;> simp

theorem evRead_skel (a0 a1 s) : ∀ r, (evRead a0 a1 s) = some r → r.2.skel = s.skel := by
  unfold evRead; (repeat' split) <;> simp

theorem hdRead_skel (a0 a1 s) : ∀ r, (hdRead a0 a1 s) = some r → r.2.skel = s.skel := by
  unfold hdRead; split <;> simp

theorem wheelRead_skel (a0 a1 s) : ∀ r, (wheelRead a0 a1 s) = some r → r.2.skel = s.skel := by
  unfold wheelRead; split <;> simp

theorem portRead_skel (a0 s) : ∀ r, (portRead a0 s) = some r → r.2.skel = s.skel := by
  unfold portRead; dsimp only; (repeat' split) <;> simp_all

theorem plainRead_skel (a0 s) : ∀ r, (plainRead a0 s) = some r → r.2.skel = s.skel := by
  unfold plainRead
  repeat' (with_reducible refine skel_opt ?_ ?_)
  all_goals first
    | with_reducible exact mboxRead_skel _ _ _
    | with_reducible exact evRead_skel _ _ _
    | with_reducible exact hdRead_skel _ _ _
    | with_reducible exact wheelRead_skel _ _ _
    | with_reducible exact portRead_skel _ _
    | refine skel_some ?_
    | exact fun r h => nomatch h
  all_goals first
    | exact State.updErr_skel _ _
    | exact State.updRegs_skel _ _
    | exact State.updPilot_skel _ _ _
    | rfl

theorem regRead_skel (a0 a1 s) : ∀ r, (regRead a0 a1 s) = some r → r.2.skel = s.skel := by
  intro r h
  unfold regRead at h
  dsimp only at h
  (repeat' split at h) <;> first
    | (cases h; first | rfl | simp only [indDataRead_skel])
    | exact plainRead_skel _ _ _ h

@[simp] theorem writeHdWr_skel (a0 a1 s) : (writeHdWr a0 a1 s).skel = s.skel := by
  simp [writeHdWr]

@[simp] theorem hdWrite_skel (a0 a1 a2 s) : (hdWrite a0 a1 a2 s).skel = s.skel := by
  unfold hdWrite; split <;> simp

theorem regWrite_skel (a0 a1 a2 s) : ∀ r, (regWrite a0 a1 a2 s) = some r → r.skel = s.skel := by
  unfold regWrite
  repeat' first
    | (apply skel_some'; first
        | exact writeHalf_skel _ _ _ _
        | exact writeComplement_skel _ _ _ _
        | exact writeSnapshot_skel _ _
        | exact updBank_skel _ _ _
        | exact indDataWrite_skel _ _ _
        | exact State.updRegs_skel _ _
        | exact writeInWr_skel _ _ _
        | exact writeOutRd_skel _ _ _
        | exact State.updMbox_skel _ _ _
        | exact writeEvRd_skel _ _ _
        | exact hdWrite_skel _ _ _ _)
    | apply skel_opt'
  intro r h
  obtain ⟨_, _, e⟩ := Option.map_eq_some_iff.mp h
  exact e ▸ rfl

@[simp] theorem evWord_skel (a0 a1 s) : (evWord a0 a1 s).2.skel = s.skel := by
  unfold evWord; dsimp only; (repeat' split) <;> simp_all

@[simp] theorem outWord_skel (a0 a1 s) : (outWord a0 a1 s).2.skel = s.skel := by
  unfold outWord; split <;> simp

theorem ringRead_skel (a0 s) : ∀ r, (ringRead a0 s) = some r → r.2.skel = s.skel := by
  unfold ringRead; split <;> simp

theorem windowAccess_skel (a0 a1 a2 s) : ∀ r, (windowAccess a0 a1 a2 s) = .ok r → r.2.skel = s.skel := by
  unfold windowAccess; (repeat' split) <;> simp

@[simp] theorem refuse_skel (a0 a1 a2 a3 s) : (refuse a0 a1 a2 a3 s).skel = s.skel := by
  simp [refuse]

@[simp] theorem busRead_skel (a0 a1 s) : (busRead a0 a1 s).2.skel = s.skel := by
  unfold busRead
  dsimp only
  (repeat' split) <;> first
    | rfl
    | exact refuse_skel _ _ _ _ _
    | (rename_i h; exact regRead_skel _ _ _ _ h)
    | (rename_i h; exact ringRead_skel _ _ _ h)
    | (rename_i h; exact windowAccess_skel _ _ _ _ _ h)

@[simp] theorem msixWrite_skel (a0 a1 s) : (msixWrite a0 a1 s).skel = s.skel := by
  rfl

@[simp] theorem busWrite_skel (a0 a1 a2 s) : (busWrite a0 a1 a2 s).2.skel = s.skel := by
  unfold busWrite
  dsimp only
  (repeat' split) <;> first
    | rfl
    | exact refuse_skel _ _ _ _ _
    | exact State.updRegs_skel _ _
    | exact State.updMbox_skel _ _ _
    | exact msixWrite_skel _ _ _
    | (rename_i h; exact regWrite_skel _ _ _ _ _ h)
    | (rename_i h; exact windowAccess_skel _ _ _ _ _ h)

@[simp] theorem readRun_skel (a0 a1 a2 a3 s) : (readRun a0 a1 a2 a3 s).2.skel = s.skel := by
  induction a2 generalizing a3 s with
  | zero => rfl
  | succ n ih =>
    unfold readRun
    exact (ih _ _).trans (busRead_skel _ _ _)

@[simp] theorem writeRun_skel (a0 a1 a2 a3 s) : (writeRun a0 a1 a2 a3 s).2.skel = s.skel := by
  induction a2 generalizing a3 s with
  | nil => rfl
  | cons w ws ih =>
    unfold writeRun
    exact (ih _ _).trans (busWrite_skel _ _ _ _)

@[simp] theorem access_skel (a0 a1 a2 s) : (access a0 a1 a2 s).2.skel = s.skel := by
  unfold access; (repeat' split) <;> simp

@[simp] theorem narrowWrite_skel (a0 a1 a2 a3 s) : (narrowWrite a0 a1 a2 a3 s).skel = s.skel := by
  unfold narrowWrite; dsimp only; (repeat' split) <;> simp_all

@[simp] theorem accessWrite_skel (a0 a1 a2 a3 s) : (accessWrite a0 a1 a2 a3 s).skel = s.skel := by
  simp [accessWrite]

@[simp] theorem masterRead_skel (a0 a1 a2 s) : (masterRead a0 a1 a2 s).skel = s.skel := by
  simp [masterRead]

@[simp] theorem masterWrite_skel (a0 a1 a2 a3 s) : (masterWrite a0 a1 a2 a3 s).skel = s.skel := by
  simp [masterWrite]

@[simp] theorem execRegisterWrite_skel (a0 a1 a2 a3 s) : nextSkel (execRegisterWrite a0 a1 a2 a3 s) = some s.skel := by
  simp [execRegisterWrite]

@[simp] theorem execRcRead_skel (a0 a1 a2 s) : nextSkel (execRcRead a0 a1 a2 s) = some s.skel := by
  simp [execRcRead]

@[simp] theorem execSysTallyLoRead_skel (a0 s) : nextSkel (execSysTallyLoRead a0 s) = some s.skel := by
  simp [execSysTallyLoRead]

@[simp] theorem execSysSnapshotWrite_skel (a0 s) : nextSkel (execSysSnapshotWrite a0 s) = some s.skel := by
  simp [execSysSnapshotWrite]

@[simp] theorem execSysIndDataAccess_skel (a0 a1 a2 s) : nextSkel (execSysIndDataAccess a0 a1 a2 s) = some s.skel := by
  simp [execSysIndDataAccess]

@[simp] theorem execPairedWriteHalf_skel (a0 a1 a2 s) : nextSkel (execPairedWriteHalf a0 a1 a2 s) = some s.skel := by
  simp [execPairedWriteHalf]

@[simp] theorem execPairWindowExpire_skel (a0 s) : nextSkel (execPairWindowExpire a0 s) = some s.skel := by
  simp [execPairWindowExpire]

@[simp] theorem execSysRemapWrite_skel (a0 a1 s) : nextSkel (execSysRemapWrite a0 a1 s) = some s.skel := by
  simp [execSysRemapWrite]

@[simp] theorem execSysBar2BaseWrite_skel (a0 a1 s) : nextSkel (execSysBar2BaseWrite a0 a1 s) = some s.skel := by
  simp [execSysBar2BaseWrite]

@[simp] theorem execSysDramWinBaseWrite_skel (a0 a1 s) : nextSkel (execSysDramWinBaseWrite a0 a1 s) = some s.skel := by
  simp [execSysDramWinBaseWrite]

@[simp] theorem execBellSwtrigWrite_skel (a0 a1 s) : nextSkel (execBellSwtrigWrite a0 a1 s) = some s.skel := by
  simp [execBellSwtrigWrite]

@[simp] theorem execAonFaultTestWrite_skel (a0 a1 s) : nextSkel (execAonFaultTestWrite a0 a1 s) = some s.skel := by
  simp [execAonFaultTestWrite]

@[simp] theorem execHubHdWrWrite_skel (a0 a1 s) : nextSkel (execHubHdWrWrite a0 a1 s) = some s.skel := by
  simp [execHubHdWrWrite]

@[simp] theorem resetMaster_skel (a0 s) : (resetMaster a0 s).skel = s.skel := by
  simp [resetMaster]

@[simp] theorem setSpi_skel (a0 a1 s) : (setSpi a0 a1 s).skel = s.skel := by
  rfl

@[simp] theorem spiWriteTx_skel (a0 a1 s) : (spiWriteTx a0 a1 s).skel = s.skel := by
  simp [spiWriteTx]

@[simp] theorem spiReadTx_skel (a0 a1 a2 s) : (spiReadTx a0 a1 a2 s).skel = s.skel := by
  simp [spiReadTx]

@[simp] theorem execSpiWrite_skel (a0 s) : nextSkel (execSpiWrite a0 s) = some s.skel := by
  simp [execSpiWrite]

@[simp] theorem execSpiWriteFixed_skel (a0 s) : nextSkel (execSpiWriteFixed a0 s) = some s.skel := by
  simp [execSpiWriteFixed]

@[simp] theorem execSpiRead_skel (a0 s) : nextSkel (execSpiRead a0 s) = some s.skel := by
  simp [execSpiRead]

@[simp] theorem execSpiReadFixed_skel (a0 s) : nextSkel (execSpiReadFixed a0 s) = some s.skel := by
  simp [execSpiReadFixed]

@[simp] theorem execSpiStatus_skel (s) : nextSkel (execSpiStatus s) = some s.skel := by
  simp [execSpiStatus]

@[simp] theorem execSpiReadAbandon_skel (a0 s) : nextSkel (execSpiReadAbandon a0 s) = some s.skel := by
  simp [execSpiReadAbandon]

@[simp] theorem execPcieReset_skel (a0 s) : nextSkel (execPcieReset a0 s) = some s.skel := by
  simp [execPcieReset]

@[simp] theorem execPcieLinkUp_skel (s) : nextSkel (execPcieLinkUp s) = some s.skel := by
  simp [execPcieLinkUp]

@[simp] theorem execConfigurationRequest_skel (s) : nextSkel (execConfigurationRequest s) = some s.skel := by
  simp [execConfigurationRequest]

end Sys2Proof.Machine
end

