-- ==== Sys2Proof/Laws/SkelPower.lean ====
section
/-! SUPPORT. What keeps the skeleton of a state (`State.skel`): power, resets, boot, the monitor and JTAG. -/

namespace Sys2Proof.Machine

set_option maxRecDepth 4000

@[simp] theorem bootConfig_skel (s) : (bootConfig s).skel = s.skel := by
  rfl

@[simp] theorem bellPilots_skel (s) : (bellPilots s).skel = s.skel := by
  simp [bellPilots]

@[simp] theorem bootLoadBell_skel (s) : (bootLoadBell s).skel = s.skel := by
  simp [bootLoadBell]

@[simp] theorem recordCause_skel (a0 a1 s) : (recordCause a0 a1 s).skel = s.skel := by
  simp [recordCause]

@[simp] theorem bootJump_skel (s) : (bootJump s).skel = s.skel := by
  unfold bootJump; split <;> simp

@[simp] theorem warmPilots_skel (a0 s) : (warmPilots a0 s).skel = s.skel := by
  simp [warmPilots]

@[simp] theorem execDramBringupDone_skel (a0 a1 s) : nextSkel (execDramBringupDone a0 a1 s) = some s.skel := by
  simp [execDramBringupDone]

@[simp] theorem wheelRoles_skel (a0 a1 s) : (wheelRoles a0 a1 s).skel = s.skel := by
  simp [wheelRoles]

@[simp] theorem setDomain_skel (a0 a1 s) : (setDomain a0 a1 s).skel = s.skel := by
  unfold setDomain
  simp only [skel_ite, wheelRoles_skel, skel_off]
  simp only [skel_mk, skel_fold, ite_self]

@[simp] theorem execDomainSwitch_skel (a0 a1 s) : nextSkel (execDomainSwitch a0 a1 s) = some s.skel := by
  simp [execDomainSwitch]

@[simp] theorem printOk_skel (s) : (printOk s).skel = s.skel := by
  rfl

@[simp] theorem printErr_skel (a0 s) : (printErr a0 s).skel = s.skel := by
  rfl

@[simp] theorem lineTaken_skel (s) : (lineTaken s).skel = s.skel := by
  rfl

@[simp] theorem monitor_skel (f : State → State) (h : ∀ s, (f s).skel = s.skel) (s : State) : (monitor f s).skel = s.skel := by
  unfold monitor
  split
  · exact (h _).trans (lineTaken_skel _)
  · rfl

@[simp] theorem monEvent_skel (a0 a1 s) : (monEvent a0 a1 s).skel = s.skel := by
  simp [monEvent]

@[simp] theorem monGated_skel (f : State → Bool × State) (h : ∀ s, (f s).2.skel = s.skel) (s : State) :
    (monGated f s).skel = s.skel := by
  unfold monGated
  dsimp only
  (repeat' split) <;> simp only [printErr_skel, printOk_skel, h, monEvent_skel]

@[simp] theorem dropOwnHalves_skel (a0 s) : (dropOwnHalves a0 s).skel = s.skel := by
  simp [dropOwnHalves]

@[simp] theorem monWrite_skel (a0 a1 a2 s) : (monWrite a0 a1 a2 s).2.skel = s.skel := by
  unfold monWrite; split <;> simp

@[simp] theorem monReadRun_skel (a0 a1 a2 s) : (monReadRun a0 a1 a2 s).2.2.skel = s.skel := by
  induction a1 generalizing a2 s with
  | zero => rfl
  | succ n ih =>
    unfold monReadRun
    dsimp only
    split
    · exact busRead_skel _ _ _
    · exact (ih _ _).trans (busRead_skel _ _ _)

@[simp] theorem execMonRd_skel (a0 a1 s) : nextSkel (execMonRd a0 a1 s) = some s.skel := by
  simp [execMonRd]

@[simp] theorem execMonWr_skel (a0 a1 s) : nextSkel (execMonWr a0 a1 s) = some s.skel := by
  simp [execMonWr]

@[simp] theorem execMonFill_skel (a0 a1 a2 s) : nextSkel (execMonFill a0 a1 a2 s) = some s.skel := by
  simp [execMonFill]

@[simp] theorem execMonWrp_skel (a0 a1 s) : nextSkel (execMonWrp a0 a1 s) = some s.skel := by
  simp [execMonWrp]

@[simp] theorem setMind_skel (a0 s) : (setMind a0 s).skel = s.skel := by
  rfl

@[simp] theorem mindRun_skel (a0 s) : (mindRun a0 s).2.skel = s.skel := by
  induction a0 generalizing s with
  | zero => rfl
  | succ n ih =>
    unfold mindRun
    exact (ih _).trans (indDataRead_skel _ _)

@[simp] theorem execMonRdi_skel (a0 a1 s) : nextSkel (execMonRdi a0 a1 s) = some s.skel := by
  simp [execMonRdi]

@[simp] theorem execMonWri_skel (a0 a1 s) : nextSkel (execMonWri a0 a1 s) = some s.skel := by
  simp [execMonWri]

@[simp] theorem execMonMb_skel (a0 s) : nextSkel (execMonMb a0 s) = some s.skel := by
  simp [execMonMb]

@[simp] theorem execMonTrace_skel (a0 s) : nextSkel (execMonTrace a0 s) = some s.skel := by
  simp [execMonTrace]

@[simp] theorem execMonLedger_skel (a0 a1 a2 s) : nextSkel (execMonLedger a0 a1 a2 s) = some s.skel := by
  simp [execMonLedger]

@[simp] theorem execMonState_skel (s) : nextSkel (execMonState s) = some s.skel := by
  simp [execMonState]

@[simp] theorem execMonKey_skel (s) : nextSkel (execMonKey s) = some s.skel := by
  simp [execMonKey]

@[simp] theorem execMonBaud_skel (a0 s) : nextSkel (execMonBaud a0 s) = some s.skel := by
  simp [execMonBaud]

@[simp] theorem execMonBaudRevert_skel (s) : nextSkel (execMonBaudRevert s) = some s.skel := by
  unfold execMonBaudRevert
  split
  · split <;> rfl
  · rfl

@[simp] theorem jtag_skel (a0 a1 s) : (jtag a0 a1 s).skel = s.skel := by
  rfl

@[simp] theorem execJtagBypass_skel (a0 s) : nextSkel (execJtagBypass a0 s) = some s.skel := by
  rfl

@[simp] theorem execJtagIdcode_skel (s) : nextSkel (execJtagIdcode s) = some s.skel := by
  rfl

@[simp] theorem execJtagSamplePreload_skel (a0 a1 s) : nextSkel (execJtagSamplePreload a0 a1 s) = some s.skel := by
  rfl

@[simp] theorem execJtagExtest_skel (s) : nextSkel (execJtagExtest s) = some s.skel := by
  rfl

/-- The skeleton after a reset that keeps the tally: boundaries from the tally on, two network mailboxes, 8 recorder rings and 40 spokes. -/
def Skel.renewed (k : Skel) : Skel :=
  { k with nextSample := ceilDiv k.tally sampleTicks * sampleTicks, nextFrame := boundaryFrom k.tally, nmbs := 2, recs := 8,
           spokes := 40 }

theorem resetCore_skel (s) : (resetCore s).skel = s.skel.renewed := by
  simp [resetCore, State.skel, Skel.renewed, resetSpokes, State.reset, -skel_fold]

theorem porstState_skel (s) :
    (porstState s).skel = { s.skel with tally := 0, nextSample := 0, nextFrame := 0, nmbs := 2, recs := 8, spokes := 40 } := by
  simp [porstState, resetCore, State.skel, resetSpokes, State.reset, Clk.reset, -skel_fold]
  decide

theorem warmReset_skel (a0 s) : (warmReset a0 s).skel = s.skel.renewed := by
  unfold warmReset
  dsimp only
  split <;> simp [resetCore_skel]

theorem execWarmReset_skel (a0 s) :
    nextSkel (execWarmReset a0 s) = some (if s.boot.porst then s.skel else s.skel.renewed) := by
  unfold execWarmReset
  split <;> simp_all [warmReset_skel]

theorem execPorstAssert_skel (s) :
    nextSkel (execPorstAssert s) = some { s.skel with tally := 0, nextSample := 0, nextFrame := 0, nmbs := 2, recs := 8, spokes := 40 } := by
  simp [execPorstAssert, porstState_skel]

theorem execColdReset_skel (a0 a1 a2 s) :
    nextSkel (execColdReset a0 a1 a2 s) =
      some (if s.boot.porst then s.skel
        else { s.skel with tally := 0, nextSample := 0, nextFrame := 0, nmbs := 2, recs := 8, spokes := 40 }) := by
  unfold execColdReset
  split <;> simp_all [porstState_skel]

theorem execBootWatchdogExpire_skel (s) :
    nextSkel (execBootWatchdogExpire s) =
      some (if s.boot.jumpAt.isNone || s.boot.served then s.skel else s.skel.renewed) := by
  unfold execBootWatchdogExpire
  split <;> simp_all [warmReset_skel]

theorem execFirstServing_skel (s) :
    nextSkel (execFirstServing s) = some s.skel ∨
      nextSkel (execFirstServing s) = some { s.skel with
        nextSample := ceilDiv s.clk.tally sampleTicks * sampleTicks, nextFrame := boundaryFrom s.clk.tally } := by
  unfold execFirstServing
  split
  · exact .inl rfl
  dsimp only
  split
  · left; simp
  · right
    split <;> simp <;> exact ⟨rfl, rfl, rfl, rfl, rfl, rfl, rfl⟩

end Sys2Proof.Machine
end

