-- ==== Sys2Proof/Laws/SkelFrame.lean ====
section
/-! SUPPORT. What keeps the skeleton of a state (`State.skel`): the cadence. -/

namespace Sys2Proof.Machine

set_option maxRecDepth 4000

@[simp] theorem sampleOut_skel (a0 s) : (sampleOut a0 s).skel = s.skel := by
  simp [sampleOut]

@[simp] theorem sampleIn_skel (a0 s) : (sampleIn a0 s).skel = s.skel := by
  simp [sampleIn]

@[simp] theorem settlePorts_skel (s) : (settlePorts s).skel = s.skel := by
  simp [settlePorts]

@[simp] theorem enterHoldover_skel (s) : (enterHoldover s).skel = s.skel := by
  simp [enterHoldover]

@[simp] theorem execHoldoverEnter_skel (s) : nextSkel (execHoldoverEnter s) = some s.skel := by
  simp [execHoldoverEnter]

@[simp] theorem execMclkReturn_skel (s) : nextSkel (execMclkReturn s) = some s.skel := by
  simp [execMclkReturn]

@[simp] theorem execMclkRatioMeasure_skel (a0 s) : nextSkel (execMclkRatioMeasure a0 s) = some s.skel := by
  simp [execMclkRatioMeasure]

@[simp] theorem execHoldoverExit_skel (s) : nextSkel (execHoldoverExit s) = some s.skel := by
  simp [execHoldoverExit]

@[simp] theorem execSpokeFrameComplete_skel (a0 s) : nextSkel (execSpokeFrameComplete a0 s) = some s.skel := by
  simp [execSpokeFrameComplete]

@[simp] theorem execSpokeClockStep_skel (s) : nextSkel (execSpokeClockStep s) = some s.skel := by
  simp [execSpokeClockStep]

@[simp] theorem settleAudits_skel (a0 a1 s) : (settleAudits a0 a1 s).skel = s.skel := by
  simp [settleAudits]

@[simp] theorem settleAesi_skel (a0 a1 s) : (settleAesi a0 a1 s).skel = s.skel := by
  simp [settleAesi]

@[simp] theorem settleInputs_skel (a0 s) : (settleInputs a0 s).skel = s.skel := by
  simp [settleInputs]

@[simp] theorem settleLadder_skel (a0 s) : (settleLadder a0 s).skel = s.skel := by
  simp [settleLadder]

@[simp] theorem planFrame_skel (s) : (planFrame s).skel = s.skel := by
  simp [planFrame]

@[simp] theorem dispatchFrame_skel (a0 s) : (dispatchFrame a0 s).skel = s.skel := by
  simp [dispatchFrame]

@[simp] theorem settleEnv_skel (a0 s) : (settleEnv a0 s).skel = s.skel := by
  simp [settleEnv]

@[simp] theorem everyFrame_skel (a0 s) : (everyFrame a0 s).skel = s.skel := by
  simp [everyFrame]

theorem advance_skel (a0 s) : (advance a0 s).skel = { s.skel with tally := max s.clk.tally a0 } := rfl

theorem idle_skel (s) : (idle s).skel = { s.skel with tally := s.clk.tally + 1 } := by
  unfold idle
  rw [advance_skel]
  simp

theorem nextSample_skel (t : Nat) (s : State) :
    ({ s with clk := { s.clk with nextSample := t } } : State).skel = { s.skel with nextSample := t } := rfl

theorem nextFrame_skel (t : Nat) (s : State) :
    ({ s with clk := { s.clk with nextFrame := t } } : State).skel = { s.skel with nextFrame := t } := rfl

theorem sampleAt_skel (a0 a1 s) :
    (sampleAt a0 a1 s).skel = { s.skel with tally := max s.clk.tally a0, nextSample := a0 + sampleTicks } := by
  unfold sampleAt
  dsimp only
  refine (nextSample_skel _ _).trans ?_
  have e : (if atFrame (advance a0 s) then settlePorts (closeFrame (advance a0 s)) else advance a0 s).skel =
      { s.skel with tally := max s.clk.tally a0 } := by
    split <;> simp [advance_skel]
  simp [e]

theorem execSampleBoundary_skel (a0 s) :
    nextSkel (execSampleBoundary a0 s) =
      some { s.skel with tally := max s.clk.tally (sampleNext s), nextSample := sampleNext s + sampleTicks } := by
  simp [execSampleBoundary, sampleAt_skel]

theorem frameAt_skel (a0 a1 s) :
    (frameAt a0 a1 s).skel = { s.skel with tally := max s.clk.tally a0, nextFrame := a0 + frameTicks } := by
  unfold frameAt
  dsimp only
  refine (nextFrame_skel _ _).trans ?_
  have e : (closeFrame (advance a0 s)).skel = { s.skel with tally := max s.clk.tally a0 } := by simp [advance_skel]
  generalize closeFrame (advance a0 s) = x at e
  have e2 : ∀ y, (if x.snd.outStamp = a0 ∧ 0 < a0 then recordBlock y x else x).skel = x.skel := by
    intro y
    split <;> simp
  simp [e, e2]

end Sys2Proof.Machine
end

