-- ==== Sys2Proof/Laws/Slot.lean ====
section
/-! SUPPORT. What a slot of a spoke does, once for all of them: a slot that issues has its body's effect; and the arithmetic of the
datapath as the rules word it. -/

namespace Sys2Proof.Machine

/-- A slot that issues, whose body does not fault, leaves what its body leaves; its writes are noted. -/
theorem runSlot_next {s : State} {sp : Nat} {k : SlotSpec} {o r : Core} {body : Core → Core × Option Nat} (h : Issues s sp k o)
    (hb : body o = (r, none)) : runSlot sp k body s = .next (s.setCore sp (noteWrites k r)) := by
  obtain ⟨c, h1, h2, rfl, h3, h4⟩ := h
  simp [runSlot, h1, h2, h3, h4, hb]

/-- A slot that issues, whose body faults, is a fault of the stage. -/
theorem runSlot_fault {s : State} {sp f : Nat} {k : SlotSpec} {o r : Core} {body : Core → Core × Option Nat} (h : Issues s sp k o)
    (hb : body o = (r, some f)) : runSlot sp k body s = .next (stageFault sp f (s.setCore sp o)) := by
  obtain ⟨c, h1, h2, rfl, h3, h4⟩ := h
  simp [runSlot, h1, h2, h3, h4, hb]

theorem wrapBits_ofInt (z : Int) : BitVec.ofInt 32 (wrapBits 32 z) = BitVec.ofInt 32 z := by
  apply BitVec.eq_of_toInt_eq
  simp only [wrapBits, BitVec.toInt_ofInt, Int.bmod]
  norm_num

/-- A 32-bit result and its overflow (R275, R278). -/
theorem wordNarrow_eq (sat : Bool) (z : Int) : wordNarrow sat z = (satWord sat z, wordOver z) := by
  have e : outBits 32 z = wordOver z := by
    simp [outBits, wordOver]
  simp only [wordNarrow, narrow, e, satWord, wi]
  refine Prod.ext ?_ rfl
  by_cases h : wordOver z = true
  · simp only [h, if_true]
    cases sat
    · simp [wrapBits_ofInt]
    · simp [clampBits]
  · have h' : -(2 ^ 31) ≤ z ∧ z ≤ 2 ^ 31 - 1 := by
      simp [wordOver] at h
      omega
    rw [if_neg h]
    cases sat
    · rfl
    · have : max (-(2 ^ 31)) (min (2 ^ 31 - 1) z) = z := by omega
      simp only [this, if_true]

/-- An accumulator and its overflow (R275). -/
theorem accNarrow_eq (sat : Bool) (z : Int) : accNarrow sat z = (satAcc sat z, accOver z) := by
  have e : outBits 72 z = accOver z := by
    simp [outBits, accOver]
  simp only [accNarrow, narrow, e, satAcc]
  refine Prod.ext ?_ rfl
  by_cases h : accOver z = true
  · simp only [h, if_true]
    cases sat
    · simp only [wrapBits, Int.bmod, Bool.false_eq_true, if_false]
      norm_num
      split <;> omega
    · simp [clampBits]
  · have h' : -(2 ^ 71) ≤ z ∧ z ≤ 2 ^ 71 - 1 := by
      simp [accOver] at h
      omega
    rw [if_neg h]
    cases sat
    · simp only [Int.bmod, Bool.false_eq_true, if_false]
      norm_num at h' ⊢
      split <;> omega
    · simp only [if_true]
      omega

@[simp] theorem setOva_snap (b : Bool) (c : Core) : (setOva b c).snap = c.snap := rfl

/-- One accumulation is one term of `accDone`. -/
theorem accOp_eq (s z : Bool) (a : Nat) (t : Int) (c : Core) : accOp s z a t c = accDone c s z [(a, t)] := by
  simp only [accOp, accumulate, accNarrow_eq]
  rfl

theorem accDone_append (c : Core) (s z : Bool) (l m : List (Nat × Int)) :
    accDone c s z (l ++ m) = accDone (accDone c s z l) s z m := by
  induction l generalizing c with
  | nil => rfl
  | cons e l ih => exact ih _

@[simp] theorem accDone_snap (c : Core) (s z : Bool) (l : List (Nat × Int)) : (accDone c s z l).snap = c.snap := by
  induction l generalizing c with
  | nil => rfl
  | cons e l ih => exact ih _

/-- After reset every slot that breaks no rule of its own issues on every spoke. -/
theorem issues_reset (k : SlotSpec) (hk : k.legal = true) : ∃ o, Issues State.reset 0 k o := by
  refine ⟨_, (SpokeSt.reset 0).core, by decide, by decide, rfl, ?_, ?_⟩
  · unfold pastFence openSlot
    rfl
  · unfold slotIllegal openSlot
    simp [hk, SpokeSt.reset, Core.reset]

end Sys2Proof.Machine
end

