-- ==== Sys2Proof/Laws/State.lean ====
section
/-! SUPPORT. What each update of one part of the state leaves: one lemma per field per update. The field an update writes
reads as the update's own words say; every other field reads as before. -/

namespace Sys2Proof.Machine

/-! `State.updTrig` -/

@[simp] theorem State.updTrig_clk (s : State) (n : Nat) (f : BellTrig → BellTrig) : (s.updTrig n f).clk = s.clk := rfl
@[simp] theorem State.updTrig_boot (s : State) (n : Nat) (f : BellTrig → BellTrig) : (s.updTrig n f).boot = s.boot := rfl
@[simp] theorem State.updTrig_flash (s : State) (n : Nat) (f : BellTrig → BellTrig) : (s.updTrig n f).flash = s.flash := rfl
@[simp] theorem State.updTrig_regs (s : State) (n : Nat) (f : BellTrig → BellTrig) : (s.updTrig n f).regs = s.regs := rfl
@[simp] theorem State.updTrig_mbox (s : State) (n : Nat) (f : BellTrig → BellTrig) : (s.updTrig n f).mbox = s.mbox := rfl
@[simp] theorem State.updTrig_svc (s : State) (n : Nat) (f : BellTrig → BellTrig) : (s.updTrig n f).svc = s.svc := rfl
@[simp] theorem State.updTrig_nmbs (s : State) (n : Nat) (f : BellTrig → BellTrig) : (s.updTrig n f).nmbs = s.nmbs := rfl
@[simp] theorem State.updTrig_fw (s : State) (n : Nat) (f : BellTrig → BellTrig) : (s.updTrig n f).fw = s.fw := rfl
@[simp] theorem State.updTrig_armed (s : State) (n : Nat) (f : BellTrig → BellTrig) : (s.updTrig n f).armed = s.armed := rfl
@[simp] theorem State.updTrig_vals (s : State) (n : Nat) (f : BellTrig → BellTrig) : (s.updTrig n f).vals = s.vals := rfl
@[simp] theorem State.updTrig_rings (s : State) (n : Nat) (f : BellTrig → BellTrig) : (s.updTrig n f).rings = s.rings := rfl
@[simp] theorem State.updTrig_limits (s : State) (n : Nat) (f : BellTrig → BellTrig) : (s.updTrig n f).limits = s.limits := rfl
@[simp] theorem State.updTrig_fault (s : State) (n : Nat) (f : BellTrig → BellTrig) : (s.updTrig n f).fault = s.fault := rfl
@[simp] theorem State.updTrig_ladder (s : State) (n : Nat) (f : BellTrig → BellTrig) : (s.updTrig n f).ladder = s.ladder := rfl
@[simp] theorem State.updTrig_recs (s : State) (n : Nat) (f : BellTrig → BellTrig) : (s.updTrig n f).recs = s.recs := rfl
@[simp] theorem State.updTrig_plan (s : State) (n : Nat) (f : BellTrig → BellTrig) : (s.updTrig n f).plan = s.plan := rfl
@[simp] theorem State.updTrig_ledg (s : State) (n : Nat) (f : BellTrig → BellTrig) : (s.updTrig n f).ledg = s.ledg := rfl
@[simp] theorem State.updTrig_maint (s : State) (n : Nat) (f : BellTrig → BellTrig) : (s.updTrig n f).maint = s.maint := rfl
@[simp] theorem State.updTrig_render (s : State) (n : Nat) (f : BellTrig → BellTrig) : (s.updTrig n f).render = s.render := rfl
@[simp] theorem State.updTrig_snd (s : State) (n : Nat) (f : BellTrig → BellTrig) : (s.updTrig n f).snd = s.snd := rfl
@[simp] theorem State.updTrig_feeds (s : State) (n : Nat) (f : BellTrig → BellTrig) : (s.updTrig n f).feeds = s.feeds := rfl
@[simp] theorem State.updTrig_till (s : State) (n : Nat) (f : BellTrig → BellTrig) : (s.updTrig n f).till = s.till := rfl
@[simp] theorem State.updTrig_chans (s : State) (n : Nat) (f : BellTrig → BellTrig) : (s.updTrig n f).chans = s.chans := rfl
@[simp] theorem State.updTrig_buses (s : State) (n : Nat) (f : BellTrig → BellTrig) : (s.updTrig n f).buses = s.buses := rfl
@[simp] theorem State.updTrig_zones (s : State) (n : Nat) (f : BellTrig → BellTrig) : (s.updTrig n f).zones = s.zones := rfl
@[simp] theorem State.updTrig_sceneRun (s : State) (n : Nat) (f : BellTrig → BellTrig) : (s.updTrig n f).sceneRun = s.sceneRun := rfl
@[simp] theorem State.updTrig_spokes (s : State) (n : Nat) (f : BellTrig → BellTrig) : (s.updTrig n f).spokes = s.spokes := rfl
@[simp] theorem State.updTrig_insts (s : State) (n : Nat) (f : BellTrig → BellTrig) : (s.updTrig n f).insts = s.insts := rfl
@[simp] theorem State.updTrig_tandems (s : State) (n : Nat) (f : BellTrig → BellTrig) : (s.updTrig n f).tandems = s.tandems := rfl
@[simp] theorem State.updTrig_sais (s : State) (n : Nat) (f : BellTrig → BellTrig) : (s.updTrig n f).sais = s.sais := rfl
@[simp] theorem State.updTrig_aesis (s : State) (n : Nat) (f : BellTrig → BellTrig) : (s.updTrig n f).aesis = s.aesis := rfl
@[simp] theorem State.updTrig_aesos (s : State) (n : Nat) (f : BellTrig → BellTrig) : (s.updTrig n f).aesos = s.aesos := rfl
@[simp] theorem State.updTrig_pdms (s : State) (n : Nat) (f : BellTrig → BellTrig) : (s.updTrig n f).pdms = s.pdms := rfl
@[simp] theorem State.updTrig_gears (s : State) (n : Nat) (f : BellTrig → BellTrig) : (s.updTrig n f).gears = s.gears := rfl
@[simp] theorem State.updTrig_gearTop (s : State) (n : Nat) (f : BellTrig → BellTrig) : (s.updTrig n f).gearTop = s.gearTop := rfl
@[simp] theorem State.updTrig_net (s : State) (n : Nat) (f : BellTrig → BellTrig) : (s.updTrig n f).net = s.net := rfl
@[simp] theorem State.updTrig_dram (s : State) (n : Nat) (f : BellTrig → BellTrig) : (s.updTrig n f).dram = s.dram := rfl
@[simp] theorem State.updTrig_pilots (s : State) (n : Nat) (f : BellTrig → BellTrig) : (s.updTrig n f).pilots = s.pilots := rfl
@[simp] theorem State.updTrig_adm (s : State) (n : Nat) (f : BellTrig → BellTrig) : (s.updTrig n f).adm = s.adm := rfl
@[simp] theorem State.updTrig_alarm (s : State) (n : Nat) (f : BellTrig → BellTrig) : (s.updTrig n f).alarm = s.alarm := rfl
@[simp] theorem State.updTrig_bell (s : State) (n : Nat) (f : BellTrig → BellTrig) :
    (s.updTrig n f).bell = { s.bell with trigs := s.bell.trigs.modify n f } := rfl
@[simp] theorem State.updTrig_free (s : State) (n : Nat) (f : BellTrig → BellTrig) : (s.updTrig n f).free = s.free := rfl
@[simp] theorem State.updTrig_pending (s : State) (n : Nat) (f : BellTrig → BellTrig) : (s.updTrig n f).pending = s.pending := rfl

/-! `State.updRoute` -/

@[simp] theorem State.updRoute_clk (s : State) (i : Nat) (f : BellRoute → BellRoute) : (s.updRoute i f).clk = s.clk := rfl
@[simp] theorem State.updRoute_boot (s : State) (i : Nat) (f : BellRoute → BellRoute) : (s.updRoute i f).boot = s.boot := rfl
@[simp] theorem State.updRoute_flash (s : State) (i : Nat) (f : BellRoute → BellRoute) : (s.updRoute i f).flash = s.flash := rfl
@[simp] theorem State.updRoute_regs (s : State) (i : Nat) (f : BellRoute → BellRoute) : (s.updRoute i f).regs = s.regs := rfl
@[simp] theorem State.updRoute_mbox (s : State) (i : Nat) (f : BellRoute → BellRoute) : (s.updRoute i f).mbox = s.mbox := rfl
@[simp] theorem State.updRoute_svc (s : State) (i : Nat) (f : BellRoute → BellRoute) : (s.updRoute i f).svc = s.svc := rfl
@[simp] theorem State.updRoute_nmbs (s : State) (i : Nat) (f : BellRoute → BellRoute) : (s.updRoute i f).nmbs = s.nmbs := rfl
@[simp] theorem State.updRoute_fw (s : State) (i : Nat) (f : BellRoute → BellRoute) : (s.updRoute i f).fw = s.fw := rfl
@[simp] theorem State.updRoute_armed (s : State) (i : Nat) (f : BellRoute → BellRoute) : (s.updRoute i f).armed = s.armed := rfl
@[simp] theorem State.updRoute_vals (s : State) (i : Nat) (f : BellRoute → BellRoute) : (s.updRoute i f).vals = s.vals := rfl
@[simp] theorem State.updRoute_rings (s : State) (i : Nat) (f : BellRoute → BellRoute) : (s.updRoute i f).rings = s.rings := rfl
@[simp] theorem State.updRoute_limits (s : State) (i : Nat) (f : BellRoute → BellRoute) : (s.updRoute i f).limits = s.limits := rfl
@[simp] theorem State.updRoute_fault (s : State) (i : Nat) (f : BellRoute → BellRoute) : (s.updRoute i f).fault = s.fault := rfl
@[simp] theorem State.updRoute_ladder (s : State) (i : Nat) (f : BellRoute → BellRoute) : (s.updRoute i f).ladder = s.ladder := rfl
@[simp] theorem State.updRoute_recs (s : State) (i : Nat) (f : BellRoute → BellRoute) : (s.updRoute i f).recs = s.recs := rfl
@[simp] theorem State.updRoute_plan (s : State) (i : Nat) (f : BellRoute → BellRoute) : (s.updRoute i f).plan = s.plan := rfl
@[simp] theorem State.updRoute_ledg (s : State) (i : Nat) (f : BellRoute → BellRoute) : (s.updRoute i f).ledg = s.ledg := rfl
@[simp] theorem State.updRoute_maint (s : State) (i : Nat) (f : BellRoute → BellRoute) : (s.updRoute i f).maint = s.maint := rfl
@[simp] theorem State.updRoute_render (s : State) (i : Nat) (f : BellRoute → BellRoute) : (s.updRoute i f).render = s.render := rfl
@[simp] theorem State.updRoute_snd (s : State) (i : Nat) (f : BellRoute → BellRoute) : (s.updRoute i f).snd = s.snd := rfl
@[simp] theorem State.updRoute_feeds (s : State) (i : Nat) (f : BellRoute → BellRoute) : (s.updRoute i f).feeds = s.feeds := rfl
@[simp] theorem State.updRoute_till (s : State) (i : Nat) (f : BellRoute → BellRoute) : (s.updRoute i f).till = s.till := rfl
@[simp] theorem State.updRoute_chans (s : State) (i : Nat) (f : BellRoute → BellRoute) : (s.updRoute i f).chans = s.chans := rfl
@[simp] theorem State.updRoute_buses (s : State) (i : Nat) (f : BellRoute → BellRoute) : (s.updRoute i f).buses = s.buses := rfl
@[simp] theorem State.updRoute_zones (s : State) (i : Nat) (f : BellRoute → BellRoute) : (s.updRoute i f).zones = s.zones := rfl
@[simp] theorem State.updRoute_sceneRun (s : State) (i : Nat) (f : BellRoute → BellRoute) : (s.updRoute i f).sceneRun = s.sceneRun := rfl
@[simp] theorem State.updRoute_spokes (s : State) (i : Nat) (f : BellRoute → BellRoute) : (s.updRoute i f).spokes = s.spokes := rfl
@[simp] theorem State.updRoute_insts (s : State) (i : Nat) (f : BellRoute → BellRoute) : (s.updRoute i f).insts = s.insts := rfl
@[simp] theorem State.updRoute_tandems (s : State) (i : Nat) (f : BellRoute → BellRoute) : (s.updRoute i f).tandems = s.tandems := rfl
@[simp] theorem State.updRoute_sais (s : State) (i : Nat) (f : BellRoute → BellRoute) : (s.updRoute i f).sais = s.sais := rfl
@[simp] theorem State.updRoute_aesis (s : State) (i : Nat) (f : BellRoute → BellRoute) : (s.updRoute i f).aesis = s.aesis := rfl
@[simp] theorem State.updRoute_aesos (s : State) (i : Nat) (f : BellRoute → BellRoute) : (s.updRoute i f).aesos = s.aesos := rfl
@[simp] theorem State.updRoute_pdms (s : State) (i : Nat) (f : BellRoute → BellRoute) : (s.updRoute i f).pdms = s.pdms := rfl
@[simp] theorem State.updRoute_gears (s : State) (i : Nat) (f : BellRoute → BellRoute) : (s.updRoute i f).gears = s.gears := rfl
@[simp] theorem State.updRoute_gearTop (s : State) (i : Nat) (f : BellRoute → BellRoute) : (s.updRoute i f).gearTop = s.gearTop := rfl
@[simp] theorem State.updRoute_net (s : State) (i : Nat) (f : BellRoute → BellRoute) : (s.updRoute i f).net = s.net := rfl
@[simp] theorem State.updRoute_dram (s : State) (i : Nat) (f : BellRoute → BellRoute) : (s.updRoute i f).dram = s.dram := rfl
@[simp] theorem State.updRoute_pilots (s : State) (i : Nat) (f : BellRoute → BellRoute) : (s.updRoute i f).pilots = s.pilots := rfl
@[simp] theorem State.updRoute_adm (s : State) (i : Nat) (f : BellRoute → BellRoute) : (s.updRoute i f).adm = s.adm := rfl
@[simp] theorem State.updRoute_alarm (s : State) (i : Nat) (f : BellRoute → BellRoute) : (s.updRoute i f).alarm = s.alarm := rfl
@[simp] theorem State.updRoute_bell (s : State) (i : Nat) (f : BellRoute → BellRoute) :
    (s.updRoute i f).bell = { s.bell with routes := s.bell.routes.modify i f } := rfl
@[simp] theorem State.updRoute_free (s : State) (i : Nat) (f : BellRoute → BellRoute) : (s.updRoute i f).free = s.free := rfl
@[simp] theorem State.updRoute_pending (s : State) (i : Nat) (f : BellRoute → BellRoute) : (s.updRoute i f).pending = s.pending := rfl

/-! `State.updChan` -/

@[simp] theorem State.updChan_clk (s : State) (c : Nat) (g : Channel → Channel) : (s.updChan c g).clk = s.clk := rfl
@[simp] theorem State.updChan_boot (s : State) (c : Nat) (g : Channel → Channel) : (s.updChan c g).boot = s.boot := rfl
@[simp] theorem State.updChan_flash (s : State) (c : Nat) (g : Channel → Channel) : (s.updChan c g).flash = s.flash := rfl
@[simp] theorem State.updChan_regs (s : State) (c : Nat) (g : Channel → Channel) : (s.updChan c g).regs = s.regs := rfl
@[simp] theorem State.updChan_mbox (s : State) (c : Nat) (g : Channel → Channel) : (s.updChan c g).mbox = s.mbox := rfl
@[simp] theorem State.updChan_svc (s : State) (c : Nat) (g : Channel → Channel) : (s.updChan c g).svc = s.svc := rfl
@[simp] theorem State.updChan_nmbs (s : State) (c : Nat) (g : Channel → Channel) : (s.updChan c g).nmbs = s.nmbs := rfl
@[simp] theorem State.updChan_fw (s : State) (c : Nat) (g : Channel → Channel) : (s.updChan c g).fw = s.fw := rfl
@[simp] theorem State.updChan_armed (s : State) (c : Nat) (g : Channel → Channel) : (s.updChan c g).armed = s.armed := rfl
@[simp] theorem State.updChan_vals (s : State) (c : Nat) (g : Channel → Channel) : (s.updChan c g).vals = s.vals := rfl
@[simp] theorem State.updChan_rings (s : State) (c : Nat) (g : Channel → Channel) : (s.updChan c g).rings = s.rings := rfl
@[simp] theorem State.updChan_limits (s : State) (c : Nat) (g : Channel → Channel) : (s.updChan c g).limits = s.limits := rfl
@[simp] theorem State.updChan_fault (s : State) (c : Nat) (g : Channel → Channel) : (s.updChan c g).fault = s.fault := rfl
@[simp] theorem State.updChan_ladder (s : State) (c : Nat) (g : Channel → Channel) : (s.updChan c g).ladder = s.ladder := rfl
@[simp] theorem State.updChan_recs (s : State) (c : Nat) (g : Channel → Channel) : (s.updChan c g).recs = s.recs := rfl
@[simp] theorem State.updChan_plan (s : State) (c : Nat) (g : Channel → Channel) : (s.updChan c g).plan = s.plan := rfl
@[simp] theorem State.updChan_ledg (s : State) (c : Nat) (g : Channel → Channel) : (s.updChan c g).ledg = s.ledg := rfl
@[simp] theorem State.updChan_maint (s : State) (c : Nat) (g : Channel → Channel) : (s.updChan c g).maint = s.maint := rfl
@[simp] theorem State.updChan_render (s : State) (c : Nat) (g : Channel → Channel) : (s.updChan c g).render = s.render := rfl
@[simp] theorem State.updChan_snd (s : State) (c : Nat) (g : Channel → Channel) : (s.updChan c g).snd = s.snd := rfl
@[simp] theorem State.updChan_feeds (s : State) (c : Nat) (g : Channel → Channel) : (s.updChan c g).feeds = s.feeds := rfl
@[simp] theorem State.updChan_till (s : State) (c : Nat) (g : Channel → Channel) : (s.updChan c g).till = s.till := rfl
@[simp] theorem State.updChan_chans (s : State) (c : Nat) (g : Channel → Channel) :
    (s.updChan c g).chans = s.chans.map fun x => if x.n == c then g x else x := rfl
@[simp] theorem State.updChan_buses (s : State) (c : Nat) (g : Channel → Channel) : (s.updChan c g).buses = s.buses := rfl
@[simp] theorem State.updChan_zones (s : State) (c : Nat) (g : Channel → Channel) : (s.updChan c g).zones = s.zones := rfl
@[simp] theorem State.updChan_sceneRun (s : State) (c : Nat) (g : Channel → Channel) : (s.updChan c g).sceneRun = s.sceneRun := rfl
@[simp] theorem State.updChan_spokes (s : State) (c : Nat) (g : Channel → Channel) : (s.updChan c g).spokes = s.spokes := rfl
@[simp] theorem State.updChan_insts (s : State) (c : Nat) (g : Channel → Channel) : (s.updChan c g).insts = s.insts := rfl
@[simp] theorem State.updChan_tandems (s : State) (c : Nat) (g : Channel → Channel) : (s.updChan c g).tandems = s.tandems := rfl
@[simp] theorem State.updChan_sais (s : State) (c : Nat) (g : Channel → Channel) : (s.updChan c g).sais = s.sais := rfl
@[simp] theorem State.updChan_aesis (s : State) (c : Nat) (g : Channel → Channel) : (s.updChan c g).aesis = s.aesis := rfl
@[simp] theorem State.updChan_aesos (s : State) (c : Nat) (g : Channel → Channel) : (s.updChan c g).aesos = s.aesos := rfl
@[simp] theorem State.updChan_pdms (s : State) (c : Nat) (g : Channel → Channel) : (s.updChan c g).pdms = s.pdms := rfl
@[simp] theorem State.updChan_gears (s : State) (c : Nat) (g : Channel → Channel) : (s.updChan c g).gears = s.gears := rfl
@[simp] theorem State.updChan_gearTop (s : State) (c : Nat) (g : Channel → Channel) : (s.updChan c g).gearTop = s.gearTop := rfl
@[simp] theorem State.updChan_net (s : State) (c : Nat) (g : Channel → Channel) : (s.updChan c g).net = s.net := rfl
@[simp] theorem State.updChan_dram (s : State) (c : Nat) (g : Channel → Channel) : (s.updChan c g).dram = s.dram := rfl
@[simp] theorem State.updChan_pilots (s : State) (c : Nat) (g : Channel → Channel) : (s.updChan c g).pilots = s.pilots := rfl
@[simp] theorem State.updChan_adm (s : State) (c : Nat) (g : Channel → Channel) : (s.updChan c g).adm = s.adm := rfl
@[simp] theorem State.updChan_alarm (s : State) (c : Nat) (g : Channel → Channel) : (s.updChan c g).alarm = s.alarm := rfl
@[simp] theorem State.updChan_bell (s : State) (c : Nat) (g : Channel → Channel) : (s.updChan c g).bell = s.bell := rfl
@[simp] theorem State.updChan_free (s : State) (c : Nat) (g : Channel → Channel) : (s.updChan c g).free = s.free := rfl
@[simp] theorem State.updChan_pending (s : State) (c : Nat) (g : Channel → Channel) : (s.updChan c g).pending = s.pending := rfl

/-! `State.updBus` -/

@[simp] theorem State.updBus_clk (s : State) (b : Nat) (g : Bus → Bus) : (s.updBus b g).clk = s.clk := rfl
@[simp] theorem State.updBus_boot (s : State) (b : Nat) (g : Bus → Bus) : (s.updBus b g).boot = s.boot := rfl
@[simp] theorem State.updBus_flash (s : State) (b : Nat) (g : Bus → Bus) : (s.updBus b g).flash = s.flash := rfl
@[simp] theorem State.updBus_regs (s : State) (b : Nat) (g : Bus → Bus) : (s.updBus b g).regs = s.regs := rfl
@[simp] theorem State.updBus_mbox (s : State) (b : Nat) (g : Bus → Bus) : (s.updBus b g).mbox = s.mbox := rfl
@[simp] theorem State.updBus_svc (s : State) (b : Nat) (g : Bus → Bus) : (s.updBus b g).svc = s.svc := rfl
@[simp] theorem State.updBus_nmbs (s : State) (b : Nat) (g : Bus → Bus) : (s.updBus b g).nmbs = s.nmbs := rfl
@[simp] theorem State.updBus_fw (s : State) (b : Nat) (g : Bus → Bus) : (s.updBus b g).fw = s.fw := rfl
@[simp] theorem State.updBus_armed (s : State) (b : Nat) (g : Bus → Bus) : (s.updBus b g).armed = s.armed := rfl
@[simp] theorem State.updBus_vals (s : State) (b : Nat) (g : Bus → Bus) : (s.updBus b g).vals = s.vals := rfl
@[simp] theorem State.updBus_rings (s : State) (b : Nat) (g : Bus → Bus) : (s.updBus b g).rings = s.rings := rfl
@[simp] theorem State.updBus_limits (s : State) (b : Nat) (g : Bus → Bus) : (s.updBus b g).limits = s.limits := rfl
@[simp] theorem State.updBus_fault (s : State) (b : Nat) (g : Bus → Bus) : (s.updBus b g).fault = s.fault := rfl
@[simp] theorem State.updBus_ladder (s : State) (b : Nat) (g : Bus → Bus) : (s.updBus b g).ladder = s.ladder := rfl
@[simp] theorem State.updBus_recs (s : State) (b : Nat) (g : Bus → Bus) : (s.updBus b g).recs = s.recs := rfl
@[simp] theorem State.updBus_plan (s : State) (b : Nat) (g : Bus → Bus) : (s.updBus b g).plan = s.plan := rfl
@[simp] theorem State.updBus_ledg (s : State) (b : Nat) (g : Bus → Bus) : (s.updBus b g).ledg = s.ledg := rfl
@[simp] theorem State.updBus_maint (s : State) (b : Nat) (g : Bus → Bus) : (s.updBus b g).maint = s.maint := rfl
@[simp] theorem State.updBus_render (s : State) (b : Nat) (g : Bus → Bus) : (s.updBus b g).render = s.render := rfl
@[simp] theorem State.updBus_snd (s : State) (b : Nat) (g : Bus → Bus) : (s.updBus b g).snd = s.snd := rfl
@[simp] theorem State.updBus_feeds (s : State) (b : Nat) (g : Bus → Bus) : (s.updBus b g).feeds = s.feeds := rfl
@[simp] theorem State.updBus_till (s : State) (b : Nat) (g : Bus → Bus) : (s.updBus b g).till = s.till := rfl
@[simp] theorem State.updBus_chans (s : State) (b : Nat) (g : Bus → Bus) : (s.updBus b g).chans = s.chans := rfl
@[simp] theorem State.updBus_buses (s : State) (b : Nat) (g : Bus → Bus) :
    (s.updBus b g).buses = s.buses.map fun x => if x.n == b then g x else x := rfl
@[simp] theorem State.updBus_zones (s : State) (b : Nat) (g : Bus → Bus) : (s.updBus b g).zones = s.zones := rfl
@[simp] theorem State.updBus_sceneRun (s : State) (b : Nat) (g : Bus → Bus) : (s.updBus b g).sceneRun = s.sceneRun := rfl
@[simp] theorem State.updBus_spokes (s : State) (b : Nat) (g : Bus → Bus) : (s.updBus b g).spokes = s.spokes := rfl
@[simp] theorem State.updBus_insts (s : State) (b : Nat) (g : Bus → Bus) : (s.updBus b g).insts = s.insts := rfl
@[simp] theorem State.updBus_tandems (s : State) (b : Nat) (g : Bus → Bus) : (s.updBus b g).tandems = s.tandems := rfl
@[simp] theorem State.updBus_sais (s : State) (b : Nat) (g : Bus → Bus) : (s.updBus b g).sais = s.sais := rfl
@[simp] theorem State.updBus_aesis (s : State) (b : Nat) (g : Bus → Bus) : (s.updBus b g).aesis = s.aesis := rfl
@[simp] theorem State.updBus_aesos (s : State) (b : Nat) (g : Bus → Bus) : (s.updBus b g).aesos = s.aesos := rfl
@[simp] theorem State.updBus_pdms (s : State) (b : Nat) (g : Bus → Bus) : (s.updBus b g).pdms = s.pdms := rfl
@[simp] theorem State.updBus_gears (s : State) (b : Nat) (g : Bus → Bus) : (s.updBus b g).gears = s.gears := rfl
@[simp] theorem State.updBus_gearTop (s : State) (b : Nat) (g : Bus → Bus) : (s.updBus b g).gearTop = s.gearTop := rfl
@[simp] theorem State.updBus_net (s : State) (b : Nat) (g : Bus → Bus) : (s.updBus b g).net = s.net := rfl
@[simp] theorem State.updBus_dram (s : State) (b : Nat) (g : Bus → Bus) : (s.updBus b g).dram = s.dram := rfl
@[simp] theorem State.updBus_pilots (s : State) (b : Nat) (g : Bus → Bus) : (s.updBus b g).pilots = s.pilots := rfl
@[simp] theorem State.updBus_adm (s : State) (b : Nat) (g : Bus → Bus) : (s.updBus b g).adm = s.adm := rfl
@[simp] theorem State.updBus_alarm (s : State) (b : Nat) (g : Bus → Bus) : (s.updBus b g).alarm = s.alarm := rfl
@[simp] theorem State.updBus_bell (s : State) (b : Nat) (g : Bus → Bus) : (s.updBus b g).bell = s.bell := rfl
@[simp] theorem State.updBus_free (s : State) (b : Nat) (g : Bus → Bus) : (s.updBus b g).free = s.free := rfl
@[simp] theorem State.updBus_pending (s : State) (b : Nat) (g : Bus → Bus) : (s.updBus b g).pending = s.pending := rfl

/-! `State.updZone` -/

@[simp] theorem State.updZone_clk (s : State) (z : Nat) (g : Zone → Zone) : (s.updZone z g).clk = s.clk := rfl
@[simp] theorem State.updZone_boot (s : State) (z : Nat) (g : Zone → Zone) : (s.updZone z g).boot = s.boot := rfl
@[simp] theorem State.updZone_flash (s : State) (z : Nat) (g : Zone → Zone) : (s.updZone z g).flash = s.flash := rfl
@[simp] theorem State.updZone_regs (s : State) (z : Nat) (g : Zone → Zone) : (s.updZone z g).regs = s.regs := rfl
@[simp] theorem State.updZone_mbox (s : State) (z : Nat) (g : Zone → Zone) : (s.updZone z g).mbox = s.mbox := rfl
@[simp] theorem State.updZone_svc (s : State) (z : Nat) (g : Zone → Zone) : (s.updZone z g).svc = s.svc := rfl
@[simp] theorem State.updZone_nmbs (s : State) (z : Nat) (g : Zone → Zone) : (s.updZone z g).nmbs = s.nmbs := rfl
@[simp] theorem State.updZone_fw (s : State) (z : Nat) (g : Zone → Zone) : (s.updZone z g).fw = s.fw := rfl
@[simp] theorem State.updZone_armed (s : State) (z : Nat) (g : Zone → Zone) : (s.updZone z g).armed = s.armed := rfl
@[simp] theorem State.updZone_vals (s : State) (z : Nat) (g : Zone → Zone) : (s.updZone z g).vals = s.vals := rfl
@[simp] theorem State.updZone_rings (s : State) (z : Nat) (g : Zone → Zone) : (s.updZone z g).rings = s.rings := rfl
@[simp] theorem State.updZone_limits (s : State) (z : Nat) (g : Zone → Zone) : (s.updZone z g).limits = s.limits := rfl
@[simp] theorem State.updZone_fault (s : State) (z : Nat) (g : Zone → Zone) : (s.updZone z g).fault = s.fault := rfl
@[simp] theorem State.updZone_ladder (s : State) (z : Nat) (g : Zone → Zone) : (s.updZone z g).ladder = s.ladder := rfl
@[simp] theorem State.updZone_recs (s : State) (z : Nat) (g : Zone → Zone) : (s.updZone z g).recs = s.recs := rfl
@[simp] theorem State.updZone_plan (s : State) (z : Nat) (g : Zone → Zone) : (s.updZone z g).plan = s.plan := rfl
@[simp] theorem State.updZone_ledg (s : State) (z : Nat) (g : Zone → Zone) : (s.updZone z g).ledg = s.ledg := rfl
@[simp] theorem State.updZone_maint (s : State) (z : Nat) (g : Zone → Zone) : (s.updZone z g).maint = s.maint := rfl
@[simp] theorem State.updZone_render (s : State) (z : Nat) (g : Zone → Zone) : (s.updZone z g).render = s.render := rfl
@[simp] theorem State.updZone_snd (s : State) (z : Nat) (g : Zone → Zone) : (s.updZone z g).snd = s.snd := rfl
@[simp] theorem State.updZone_feeds (s : State) (z : Nat) (g : Zone → Zone) : (s.updZone z g).feeds = s.feeds := rfl
@[simp] theorem State.updZone_till (s : State) (z : Nat) (g : Zone → Zone) : (s.updZone z g).till = s.till := rfl
@[simp] theorem State.updZone_chans (s : State) (z : Nat) (g : Zone → Zone) : (s.updZone z g).chans = s.chans := rfl
@[simp] theorem State.updZone_buses (s : State) (z : Nat) (g : Zone → Zone) : (s.updZone z g).buses = s.buses := rfl
@[simp] theorem State.updZone_zones (s : State) (z : Nat) (g : Zone → Zone) :
    (s.updZone z g).zones = s.zones.map fun x => if x.n == z then g x else x := rfl
@[simp] theorem State.updZone_sceneRun (s : State) (z : Nat) (g : Zone → Zone) : (s.updZone z g).sceneRun = s.sceneRun := rfl
@[simp] theorem State.updZone_spokes (s : State) (z : Nat) (g : Zone → Zone) : (s.updZone z g).spokes = s.spokes := rfl
@[simp] theorem State.updZone_insts (s : State) (z : Nat) (g : Zone → Zone) : (s.updZone z g).insts = s.insts := rfl
@[simp] theorem State.updZone_tandems (s : State) (z : Nat) (g : Zone → Zone) : (s.updZone z g).tandems = s.tandems := rfl
@[simp] theorem State.updZone_sais (s : State) (z : Nat) (g : Zone → Zone) : (s.updZone z g).sais = s.sais := rfl
@[simp] theorem State.updZone_aesis (s : State) (z : Nat) (g : Zone → Zone) : (s.updZone z g).aesis = s.aesis := rfl
@[simp] theorem State.updZone_aesos (s : State) (z : Nat) (g : Zone → Zone) : (s.updZone z g).aesos = s.aesos := rfl
@[simp] theorem State.updZone_pdms (s : State) (z : Nat) (g : Zone → Zone) : (s.updZone z g).pdms = s.pdms := rfl
@[simp] theorem State.updZone_gears (s : State) (z : Nat) (g : Zone → Zone) : (s.updZone z g).gears = s.gears := rfl
@[simp] theorem State.updZone_gearTop (s : State) (z : Nat) (g : Zone → Zone) : (s.updZone z g).gearTop = s.gearTop := rfl
@[simp] theorem State.updZone_net (s : State) (z : Nat) (g : Zone → Zone) : (s.updZone z g).net = s.net := rfl
@[simp] theorem State.updZone_dram (s : State) (z : Nat) (g : Zone → Zone) : (s.updZone z g).dram = s.dram := rfl
@[simp] theorem State.updZone_pilots (s : State) (z : Nat) (g : Zone → Zone) : (s.updZone z g).pilots = s.pilots := rfl
@[simp] theorem State.updZone_adm (s : State) (z : Nat) (g : Zone → Zone) : (s.updZone z g).adm = s.adm := rfl
@[simp] theorem State.updZone_alarm (s : State) (z : Nat) (g : Zone → Zone) : (s.updZone z g).alarm = s.alarm := rfl
@[simp] theorem State.updZone_bell (s : State) (z : Nat) (g : Zone → Zone) : (s.updZone z g).bell = s.bell := rfl
@[simp] theorem State.updZone_free (s : State) (z : Nat) (g : Zone → Zone) : (s.updZone z g).free = s.free := rfl
@[simp] theorem State.updZone_pending (s : State) (z : Nat) (g : Zone → Zone) : (s.updZone z g).pending = s.pending := rfl

/-! `State.updDram` -/

@[simp] theorem State.updDram_clk (s : State) (f : Dram → Dram) : (s.updDram f).clk = s.clk := rfl
@[simp] theorem State.updDram_boot (s : State) (f : Dram → Dram) : (s.updDram f).boot = s.boot := rfl
@[simp] theorem State.updDram_flash (s : State) (f : Dram → Dram) : (s.updDram f).flash = s.flash := rfl
@[simp] theorem State.updDram_regs (s : State) (f : Dram → Dram) : (s.updDram f).regs = s.regs := rfl
@[simp] theorem State.updDram_mbox (s : State) (f : Dram → Dram) : (s.updDram f).mbox = s.mbox := rfl
@[simp] theorem State.updDram_svc (s : State) (f : Dram → Dram) : (s.updDram f).svc = s.svc := rfl
@[simp] theorem State.updDram_nmbs (s : State) (f : Dram → Dram) : (s.updDram f).nmbs = s.nmbs := rfl
@[simp] theorem State.updDram_fw (s : State) (f : Dram → Dram) : (s.updDram f).fw = s.fw := rfl
@[simp] theorem State.updDram_armed (s : State) (f : Dram → Dram) : (s.updDram f).armed = s.armed := rfl
@[simp] theorem State.updDram_vals (s : State) (f : Dram → Dram) : (s.updDram f).vals = s.vals := rfl
@[simp] theorem State.updDram_rings (s : State) (f : Dram → Dram) : (s.updDram f).rings = s.rings := rfl
@[simp] theorem State.updDram_limits (s : State) (f : Dram → Dram) : (s.updDram f).limits = s.limits := rfl
@[simp] theorem State.updDram_fault (s : State) (f : Dram → Dram) : (s.updDram f).fault = s.fault := rfl
@[simp] theorem State.updDram_ladder (s : State) (f : Dram → Dram) : (s.updDram f).ladder = s.ladder := rfl
@[simp] theorem State.updDram_recs (s : State) (f : Dram → Dram) : (s.updDram f).recs = s.recs := rfl
@[simp] theorem State.updDram_plan (s : State) (f : Dram → Dram) : (s.updDram f).plan = s.plan := rfl
@[simp] theorem State.updDram_ledg (s : State) (f : Dram → Dram) : (s.updDram f).ledg = s.ledg := rfl
@[simp] theorem State.updDram_maint (s : State) (f : Dram → Dram) : (s.updDram f).maint = s.maint := rfl
@[simp] theorem State.updDram_render (s : State) (f : Dram → Dram) : (s.updDram f).render = s.render := rfl
@[simp] theorem State.updDram_snd (s : State) (f : Dram → Dram) : (s.updDram f).snd = s.snd := rfl
@[simp] theorem State.updDram_feeds (s : State) (f : Dram → Dram) : (s.updDram f).feeds = s.feeds := rfl
@[simp] theorem State.updDram_till (s : State) (f : Dram → Dram) : (s.updDram f).till = s.till := rfl
@[simp] theorem State.updDram_chans (s : State) (f : Dram → Dram) : (s.updDram f).chans = s.chans := rfl
@[simp] theorem State.updDram_buses (s : State) (f : Dram → Dram) : (s.updDram f).buses = s.buses := rfl
@[simp] theorem State.updDram_zones (s : State) (f : Dram → Dram) : (s.updDram f).zones = s.zones := rfl
@[simp] theorem State.updDram_sceneRun (s : State) (f : Dram → Dram) : (s.updDram f).sceneRun = s.sceneRun := rfl
@[simp] theorem State.updDram_spokes (s : State) (f : Dram → Dram) : (s.updDram f).spokes = s.spokes := rfl
@[simp] theorem State.updDram_insts (s : State) (f : Dram → Dram) : (s.updDram f).insts = s.insts := rfl
@[simp] theorem State.updDram_tandems (s : State) (f : Dram → Dram) : (s.updDram f).tandems = s.tandems := rfl
@[simp] theorem State.updDram_sais (s : State) (f : Dram → Dram) : (s.updDram f).sais = s.sais := rfl
@[simp] theorem State.updDram_aesis (s : State) (f : Dram → Dram) : (s.updDram f).aesis = s.aesis := rfl
@[simp] theorem State.updDram_aesos (s : State) (f : Dram → Dram) : (s.updDram f).aesos = s.aesos := rfl
@[simp] theorem State.updDram_pdms (s : State) (f : Dram → Dram) : (s.updDram f).pdms = s.pdms := rfl
@[simp] theorem State.updDram_gears (s : State) (f : Dram → Dram) : (s.updDram f).gears = s.gears := rfl
@[simp] theorem State.updDram_gearTop (s : State) (f : Dram → Dram) : (s.updDram f).gearTop = s.gearTop := rfl
@[simp] theorem State.updDram_net (s : State) (f : Dram → Dram) : (s.updDram f).net = s.net := rfl
@[simp] theorem State.updDram_dram (s : State) (f : Dram → Dram) :
    (s.updDram f).dram = f s.dram := rfl
@[simp] theorem State.updDram_pilots (s : State) (f : Dram → Dram) : (s.updDram f).pilots = s.pilots := rfl
@[simp] theorem State.updDram_adm (s : State) (f : Dram → Dram) : (s.updDram f).adm = s.adm := rfl
@[simp] theorem State.updDram_alarm (s : State) (f : Dram → Dram) : (s.updDram f).alarm = s.alarm := rfl
@[simp] theorem State.updDram_bell (s : State) (f : Dram → Dram) : (s.updDram f).bell = s.bell := rfl
@[simp] theorem State.updDram_free (s : State) (f : Dram → Dram) : (s.updDram f).free = s.free := rfl
@[simp] theorem State.updDram_pending (s : State) (f : Dram → Dram) : (s.updDram f).pending = s.pending := rfl

/-! `State.updCh` -/

@[simp] theorem State.updCh_clk (s : State) (c : Nat) (f : DramCh → DramCh) : (s.updCh c f).clk = s.clk := rfl
@[simp] theorem State.updCh_boot (s : State) (c : Nat) (f : DramCh → DramCh) : (s.updCh c f).boot = s.boot := rfl
@[simp] theorem State.updCh_flash (s : State) (c : Nat) (f : DramCh → DramCh) : (s.updCh c f).flash = s.flash := rfl
@[simp] theorem State.updCh_regs (s : State) (c : Nat) (f : DramCh → DramCh) : (s.updCh c f).regs = s.regs := rfl
@[simp] theorem State.updCh_mbox (s : State) (c : Nat) (f : DramCh → DramCh) : (s.updCh c f).mbox = s.mbox := rfl
@[simp] theorem State.updCh_svc (s : State) (c : Nat) (f : DramCh → DramCh) : (s.updCh c f).svc = s.svc := rfl
@[simp] theorem State.updCh_nmbs (s : State) (c : Nat) (f : DramCh → DramCh) : (s.updCh c f).nmbs = s.nmbs := rfl
@[simp] theorem State.updCh_fw (s : State) (c : Nat) (f : DramCh → DramCh) : (s.updCh c f).fw = s.fw := rfl
@[simp] theorem State.updCh_armed (s : State) (c : Nat) (f : DramCh → DramCh) : (s.updCh c f).armed = s.armed := rfl
@[simp] theorem State.updCh_vals (s : State) (c : Nat) (f : DramCh → DramCh) : (s.updCh c f).vals = s.vals := rfl
@[simp] theorem State.updCh_rings (s : State) (c : Nat) (f : DramCh → DramCh) : (s.updCh c f).rings = s.rings := rfl
@[simp] theorem State.updCh_limits (s : State) (c : Nat) (f : DramCh → DramCh) : (s.updCh c f).limits = s.limits := rfl
@[simp] theorem State.updCh_fault (s : State) (c : Nat) (f : DramCh → DramCh) : (s.updCh c f).fault = s.fault := rfl
@[simp] theorem State.updCh_ladder (s : State) (c : Nat) (f : DramCh → DramCh) : (s.updCh c f).ladder = s.ladder := rfl
@[simp] theorem State.updCh_recs (s : State) (c : Nat) (f : DramCh → DramCh) : (s.updCh c f).recs = s.recs := rfl
@[simp] theorem State.updCh_plan (s : State) (c : Nat) (f : DramCh → DramCh) : (s.updCh c f).plan = s.plan := rfl
@[simp] theorem State.updCh_ledg (s : State) (c : Nat) (f : DramCh → DramCh) : (s.updCh c f).ledg = s.ledg := rfl
@[simp] theorem State.updCh_maint (s : State) (c : Nat) (f : DramCh → DramCh) : (s.updCh c f).maint = s.maint := rfl
@[simp] theorem State.updCh_render (s : State) (c : Nat) (f : DramCh → DramCh) : (s.updCh c f).render = s.render := rfl
@[simp] theorem State.updCh_snd (s : State) (c : Nat) (f : DramCh → DramCh) : (s.updCh c f).snd = s.snd := rfl
@[simp] theorem State.updCh_feeds (s : State) (c : Nat) (f : DramCh → DramCh) : (s.updCh c f).feeds = s.feeds := rfl
@[simp] theorem State.updCh_till (s : State) (c : Nat) (f : DramCh → DramCh) : (s.updCh c f).till = s.till := rfl
@[simp] theorem State.updCh_chans (s : State) (c : Nat) (f : DramCh → DramCh) : (s.updCh c f).chans = s.chans := rfl
@[simp] theorem State.updCh_buses (s : State) (c : Nat) (f : DramCh → DramCh) : (s.updCh c f).buses = s.buses := rfl
@[simp] theorem State.updCh_zones (s : State) (c : Nat) (f : DramCh → DramCh) : (s.updCh c f).zones = s.zones := rfl
@[simp] theorem State.updCh_sceneRun (s : State) (c : Nat) (f : DramCh → DramCh) : (s.updCh c f).sceneRun = s.sceneRun := rfl
@[simp] theorem State.updCh_spokes (s : State) (c : Nat) (f : DramCh → DramCh) : (s.updCh c f).spokes = s.spokes := rfl
@[simp] theorem State.updCh_insts (s : State) (c : Nat) (f : DramCh → DramCh) : (s.updCh c f).insts = s.insts := rfl
@[simp] theorem State.updCh_tandems (s : State) (c : Nat) (f : DramCh → DramCh) : (s.updCh c f).tandems = s.tandems := rfl
@[simp] theorem State.updCh_sais (s : State) (c : Nat) (f : DramCh → DramCh) : (s.updCh c f).sais = s.sais := rfl
@[simp] theorem State.updCh_aesis (s : State) (c : Nat) (f : DramCh → DramCh) : (s.updCh c f).aesis = s.aesis := rfl
@[simp] theorem State.updCh_aesos (s : State) (c : Nat) (f : DramCh → DramCh) : (s.updCh c f).aesos = s.aesos := rfl
@[simp] theorem State.updCh_pdms (s : State) (c : Nat) (f : DramCh → DramCh) : (s.updCh c f).pdms = s.pdms := rfl
@[simp] theorem State.updCh_gears (s : State) (c : Nat) (f : DramCh → DramCh) : (s.updCh c f).gears = s.gears := rfl
@[simp] theorem State.updCh_gearTop (s : State) (c : Nat) (f : DramCh → DramCh) : (s.updCh c f).gearTop = s.gearTop := rfl
@[simp] theorem State.updCh_net (s : State) (c : Nat) (f : DramCh → DramCh) : (s.updCh c f).net = s.net := rfl
@[simp] theorem State.updCh_dram (s : State) (c : Nat) (f : DramCh → DramCh) :
    (s.updCh c f).dram = (fun d : Dram => { d with channels := d.channels.modify c f }) s.dram := rfl
@[simp] theorem State.updCh_pilots (s : State) (c : Nat) (f : DramCh → DramCh) : (s.updCh c f).pilots = s.pilots := rfl
@[simp] theorem State.updCh_adm (s : State) (c : Nat) (f : DramCh → DramCh) : (s.updCh c f).adm = s.adm := rfl
@[simp] theorem State.updCh_alarm (s : State) (c : Nat) (f : DramCh → DramCh) : (s.updCh c f).alarm = s.alarm := rfl
@[simp] theorem State.updCh_bell (s : State) (c : Nat) (f : DramCh → DramCh) : (s.updCh c f).bell = s.bell := rfl
@[simp] theorem State.updCh_free (s : State) (c : Nat) (f : DramCh → DramCh) : (s.updCh c f).free = s.free := rfl
@[simp] theorem State.updCh_pending (s : State) (c : Nat) (f : DramCh → DramCh) : (s.updCh c f).pending = s.pending := rfl

/-! `State.updFeed` -/

@[simp] theorem State.updFeed_clk (s : State) (f : Nat) (g : Feed → Feed) : (s.updFeed f g).clk = s.clk := rfl
@[simp] theorem State.updFeed_boot (s : State) (f : Nat) (g : Feed → Feed) : (s.updFeed f g).boot = s.boot := rfl
@[simp] theorem State.updFeed_flash (s : State) (f : Nat) (g : Feed → Feed) : (s.updFeed f g).flash = s.flash := rfl
@[simp] theorem State.updFeed_regs (s : State) (f : Nat) (g : Feed → Feed) : (s.updFeed f g).regs = s.regs := rfl
@[simp] theorem State.updFeed_mbox (s : State) (f : Nat) (g : Feed → Feed) : (s.updFeed f g).mbox = s.mbox := rfl
@[simp] theorem State.updFeed_svc (s : State) (f : Nat) (g : Feed → Feed) : (s.updFeed f g).svc = s.svc := rfl
@[simp] theorem State.updFeed_nmbs (s : State) (f : Nat) (g : Feed → Feed) : (s.updFeed f g).nmbs = s.nmbs := rfl
@[simp] theorem State.updFeed_fw (s : State) (f : Nat) (g : Feed → Feed) : (s.updFeed f g).fw = s.fw := rfl
@[simp] theorem State.updFeed_armed (s : State) (f : Nat) (g : Feed → Feed) : (s.updFeed f g).armed = s.armed := rfl
@[simp] theorem State.updFeed_vals (s : State) (f : Nat) (g : Feed → Feed) : (s.updFeed f g).vals = s.vals := rfl
@[simp] theorem State.updFeed_rings (s : State) (f : Nat) (g : Feed → Feed) : (s.updFeed f g).rings = s.rings := rfl
@[simp] theorem State.updFeed_limits (s : State) (f : Nat) (g : Feed → Feed) : (s.updFeed f g).limits = s.limits := rfl
@[simp] theorem State.updFeed_fault (s : State) (f : Nat) (g : Feed → Feed) : (s.updFeed f g).fault = s.fault := rfl
@[simp] theorem State.updFeed_ladder (s : State) (f : Nat) (g : Feed → Feed) : (s.updFeed f g).ladder = s.ladder := rfl
@[simp] theorem State.updFeed_recs (s : State) (f : Nat) (g : Feed → Feed) : (s.updFeed f g).recs = s.recs := rfl
@[simp] theorem State.updFeed_plan (s : State) (f : Nat) (g : Feed → Feed) : (s.updFeed f g).plan = s.plan := rfl
@[simp] theorem State.updFeed_ledg (s : State) (f : Nat) (g : Feed → Feed) : (s.updFeed f g).ledg = s.ledg := rfl
@[simp] theorem State.updFeed_maint (s : State) (f : Nat) (g : Feed → Feed) : (s.updFeed f g).maint = s.maint := rfl
@[simp] theorem State.updFeed_render (s : State) (f : Nat) (g : Feed → Feed) : (s.updFeed f g).render = s.render := rfl
@[simp] theorem State.updFeed_snd (s : State) (f : Nat) (g : Feed → Feed) : (s.updFeed f g).snd = s.snd := rfl
@[simp] theorem State.updFeed_feeds (s : State) (f : Nat) (g : Feed → Feed) :
    (s.updFeed f g).feeds = s.feeds.map fun x => if x.n == f then g x else x := rfl
@[simp] theorem State.updFeed_till (s : State) (f : Nat) (g : Feed → Feed) : (s.updFeed f g).till = s.till := rfl
@[simp] theorem State.updFeed_chans (s : State) (f : Nat) (g : Feed → Feed) : (s.updFeed f g).chans = s.chans := rfl
@[simp] theorem State.updFeed_buses (s : State) (f : Nat) (g : Feed → Feed) : (s.updFeed f g).buses = s.buses := rfl
@[simp] theorem State.updFeed_zones (s : State) (f : Nat) (g : Feed → Feed) : (s.updFeed f g).zones = s.zones := rfl
@[simp] theorem State.updFeed_sceneRun (s : State) (f : Nat) (g : Feed → Feed) : (s.updFeed f g).sceneRun = s.sceneRun := rfl
@[simp] theorem State.updFeed_spokes (s : State) (f : Nat) (g : Feed → Feed) : (s.updFeed f g).spokes = s.spokes := rfl
@[simp] theorem State.updFeed_insts (s : State) (f : Nat) (g : Feed → Feed) : (s.updFeed f g).insts = s.insts := rfl
@[simp] theorem State.updFeed_tandems (s : State) (f : Nat) (g : Feed → Feed) : (s.updFeed f g).tandems = s.tandems := rfl
@[simp] theorem State.updFeed_sais (s : State) (f : Nat) (g : Feed → Feed) : (s.updFeed f g).sais = s.sais := rfl
@[simp] theorem State.updFeed_aesis (s : State) (f : Nat) (g : Feed → Feed) : (s.updFeed f g).aesis = s.aesis := rfl
@[simp] theorem State.updFeed_aesos (s : State) (f : Nat) (g : Feed → Feed) : (s.updFeed f g).aesos = s.aesos := rfl
@[simp] theorem State.updFeed_pdms (s : State) (f : Nat) (g : Feed → Feed) : (s.updFeed f g).pdms = s.pdms := rfl
@[simp] theorem State.updFeed_gears (s : State) (f : Nat) (g : Feed → Feed) : (s.updFeed f g).gears = s.gears := rfl
@[simp] theorem State.updFeed_gearTop (s : State) (f : Nat) (g : Feed → Feed) : (s.updFeed f g).gearTop = s.gearTop := rfl
@[simp] theorem State.updFeed_net (s : State) (f : Nat) (g : Feed → Feed) : (s.updFeed f g).net = s.net := rfl
@[simp] theorem State.updFeed_dram (s : State) (f : Nat) (g : Feed → Feed) : (s.updFeed f g).dram = s.dram := rfl
@[simp] theorem State.updFeed_pilots (s : State) (f : Nat) (g : Feed → Feed) : (s.updFeed f g).pilots = s.pilots := rfl
@[simp] theorem State.updFeed_adm (s : State) (f : Nat) (g : Feed → Feed) : (s.updFeed f g).adm = s.adm := rfl
@[simp] theorem State.updFeed_alarm (s : State) (f : Nat) (g : Feed → Feed) : (s.updFeed f g).alarm = s.alarm := rfl
@[simp] theorem State.updFeed_bell (s : State) (f : Nat) (g : Feed → Feed) : (s.updFeed f g).bell = s.bell := rfl
@[simp] theorem State.updFeed_free (s : State) (f : Nat) (g : Feed → Feed) : (s.updFeed f g).free = s.free := rfl
@[simp] theorem State.updFeed_pending (s : State) (f : Nat) (g : Feed → Feed) : (s.updFeed f g).pending = s.pending := rfl

/-! `State.setBank` -/

@[simp] theorem State.setBank_clk (s : State) (b : Bank) : (s.setBank b).clk = s.clk := rfl
@[simp] theorem State.setBank_boot (s : State) (b : Bank) : (s.setBank b).boot = s.boot := rfl
@[simp] theorem State.setBank_flash (s : State) (b : Bank) : (s.setBank b).flash = s.flash := rfl
@[simp] theorem State.setBank_regs (s : State) (b : Bank) : (s.setBank b).regs = s.regs := rfl
@[simp] theorem State.setBank_mbox (s : State) (b : Bank) : (s.setBank b).mbox = s.mbox := rfl
@[simp] theorem State.setBank_svc (s : State) (b : Bank) : (s.setBank b).svc = s.svc := rfl
@[simp] theorem State.setBank_nmbs (s : State) (b : Bank) : (s.setBank b).nmbs = s.nmbs := rfl
@[simp] theorem State.setBank_fw (s : State) (b : Bank) :
    (s.setBank b).fw = { s.fw with banks := b :: s.fw.banks.filter fun x => !(x.feed == b.feed && x.bank == b.bank) } := rfl
@[simp] theorem State.setBank_armed (s : State) (b : Bank) : (s.setBank b).armed = s.armed := rfl
@[simp] theorem State.setBank_vals (s : State) (b : Bank) : (s.setBank b).vals = s.vals := rfl
@[simp] theorem State.setBank_rings (s : State) (b : Bank) : (s.setBank b).rings = s.rings := rfl
@[simp] theorem State.setBank_limits (s : State) (b : Bank) : (s.setBank b).limits = s.limits := rfl
@[simp] theorem State.setBank_fault (s : State) (b : Bank) : (s.setBank b).fault = s.fault := rfl
@[simp] theorem State.setBank_ladder (s : State) (b : Bank) : (s.setBank b).ladder = s.ladder := rfl
@[simp] theorem State.setBank_recs (s : State) (b : Bank) : (s.setBank b).recs = s.recs := rfl
@[simp] theorem State.setBank_plan (s : State) (b : Bank) : (s.setBank b).plan = s.plan := rfl
@[simp] theorem State.setBank_ledg (s : State) (b : Bank) : (s.setBank b).ledg = s.ledg := rfl
@[simp] theorem State.setBank_maint (s : State) (b : Bank) : (s.setBank b).maint = s.maint := rfl
@[simp] theorem State.setBank_render (s : State) (b : Bank) : (s.setBank b).render = s.render := rfl
@[simp] theorem State.setBank_snd (s : State) (b : Bank) : (s.setBank b).snd = s.snd := rfl
@[simp] theorem State.setBank_feeds (s : State) (b : Bank) : (s.setBank b).feeds = s.feeds := rfl
@[simp] theorem State.setBank_till (s : State) (b : Bank) : (s.setBank b).till = s.till := rfl
@[simp] theorem State.setBank_chans (s : State) (b : Bank) : (s.setBank b).chans = s.chans := rfl
@[simp] theorem State.setBank_buses (s : State) (b : Bank) : (s.setBank b).buses = s.buses := rfl
@[simp] theorem State.setBank_zones (s : State) (b : Bank) : (s.setBank b).zones = s.zones := rfl
@[simp] theorem State.setBank_sceneRun (s : State) (b : Bank) : (s.setBank b).sceneRun = s.sceneRun := rfl
@[simp] theorem State.setBank_spokes (s : State) (b : Bank) : (s.setBank b).spokes = s.spokes := rfl
@[simp] theorem State.setBank_insts (s : State) (b : Bank) : (s.setBank b).insts = s.insts := rfl
@[simp] theorem State.setBank_tandems (s : State) (b : Bank) : (s.setBank b).tandems = s.tandems := rfl
@[simp] theorem State.setBank_sais (s : State) (b : Bank) : (s.setBank b).sais = s.sais := rfl
@[simp] theorem State.setBank_aesis (s : State) (b : Bank) : (s.setBank b).aesis = s.aesis := rfl
@[simp] theorem State.setBank_aesos (s : State) (b : Bank) : (s.setBank b).aesos = s.aesos := rfl
@[simp] theorem State.setBank_pdms (s : State) (b : Bank) : (s.setBank b).pdms = s.pdms := rfl
@[simp] theorem State.setBank_gears (s : State) (b : Bank) : (s.setBank b).gears = s.gears := rfl
@[simp] theorem State.setBank_gearTop (s : State) (b : Bank) : (s.setBank b).gearTop = s.gearTop := rfl
@[simp] theorem State.setBank_net (s : State) (b : Bank) : (s.setBank b).net = s.net := rfl
@[simp] theorem State.setBank_dram (s : State) (b : Bank) : (s.setBank b).dram = s.dram := rfl
@[simp] theorem State.setBank_pilots (s : State) (b : Bank) : (s.setBank b).pilots = s.pilots := rfl
@[simp] theorem State.setBank_adm (s : State) (b : Bank) : (s.setBank b).adm = s.adm := rfl
@[simp] theorem State.setBank_alarm (s : State) (b : Bank) : (s.setBank b).alarm = s.alarm := rfl
@[simp] theorem State.setBank_bell (s : State) (b : Bank) : (s.setBank b).bell = s.bell := rfl
@[simp] theorem State.setBank_free (s : State) (b : Bank) : (s.setBank b).free = s.free := rfl
@[simp] theorem State.setBank_pending (s : State) (b : Bank) : (s.setBank b).pending = s.pending := rfl

/-! `State.dropBank` -/

@[simp] theorem State.dropBank_clk (s : State) (f b : Nat) : (s.dropBank f b).clk = s.clk := rfl
@[simp] theorem State.dropBank_boot (s : State) (f b : Nat) : (s.dropBank f b).boot = s.boot := rfl
@[simp] theorem State.dropBank_flash (s : State) (f b : Nat) : (s.dropBank f b).flash = s.flash := rfl
@[simp] theorem State.dropBank_regs (s : State) (f b : Nat) : (s.dropBank f b).regs = s.regs := rfl
@[simp] theorem State.dropBank_mbox (s : State) (f b : Nat) : (s.dropBank f b).mbox = s.mbox := rfl
@[simp] theorem State.dropBank_svc (s : State) (f b : Nat) : (s.dropBank f b).svc = s.svc := rfl
@[simp] theorem State.dropBank_nmbs (s : State) (f b : Nat) : (s.dropBank f b).nmbs = s.nmbs := rfl
@[simp] theorem State.dropBank_fw (s : State) (f b : Nat) :
    (s.dropBank f b).fw = { s.fw with banks := s.fw.banks.filter fun x => !(x.feed == f && x.bank == b) } := rfl
@[simp] theorem State.dropBank_armed (s : State) (f b : Nat) : (s.dropBank f b).armed = s.armed := rfl
@[simp] theorem State.dropBank_vals (s : State) (f b : Nat) : (s.dropBank f b).vals = s.vals := rfl
@[simp] theorem State.dropBank_rings (s : State) (f b : Nat) : (s.dropBank f b).rings = s.rings := rfl
@[simp] theorem State.dropBank_limits (s : State) (f b : Nat) : (s.dropBank f b).limits = s.limits := rfl
@[simp] theorem State.dropBank_fault (s : State) (f b : Nat) : (s.dropBank f b).fault = s.fault := rfl
@[simp] theorem State.dropBank_ladder (s : State) (f b : Nat) : (s.dropBank f b).ladder = s.ladder := rfl
@[simp] theorem State.dropBank_recs (s : State) (f b : Nat) : (s.dropBank f b).recs = s.recs := rfl
@[simp] theorem State.dropBank_plan (s : State) (f b : Nat) : (s.dropBank f b).plan = s.plan := rfl
@[simp] theorem State.dropBank_ledg (s : State) (f b : Nat) : (s.dropBank f b).ledg = s.ledg := rfl
@[simp] theorem State.dropBank_maint (s : State) (f b : Nat) : (s.dropBank f b).maint = s.maint := rfl
@[simp] theorem State.dropBank_render (s : State) (f b : Nat) : (s.dropBank f b).render = s.render := rfl
@[simp] theorem State.dropBank_snd (s : State) (f b : Nat) : (s.dropBank f b).snd = s.snd := rfl
@[simp] theorem State.dropBank_feeds (s : State) (f b : Nat) : (s.dropBank f b).feeds = s.feeds := rfl
@[simp] theorem State.dropBank_till (s : State) (f b : Nat) : (s.dropBank f b).till = s.till := rfl
@[simp] theorem State.dropBank_chans (s : State) (f b : Nat) : (s.dropBank f b).chans = s.chans := rfl
@[simp] theorem State.dropBank_buses (s : State) (f b : Nat) : (s.dropBank f b).buses = s.buses := rfl
@[simp] theorem State.dropBank_zones (s : State) (f b : Nat) : (s.dropBank f b).zones = s.zones := rfl
@[simp] theorem State.dropBank_sceneRun (s : State) (f b : Nat) : (s.dropBank f b).sceneRun = s.sceneRun := rfl
@[simp] theorem State.dropBank_spokes (s : State) (f b : Nat) : (s.dropBank f b).spokes = s.spokes := rfl
@[simp] theorem State.dropBank_insts (s : State) (f b : Nat) : (s.dropBank f b).insts = s.insts := rfl
@[simp] theorem State.dropBank_tandems (s : State) (f b : Nat) : (s.dropBank f b).tandems = s.tandems := rfl
@[simp] theorem State.dropBank_sais (s : State) (f b : Nat) : (s.dropBank f b).sais = s.sais := rfl
@[simp] theorem State.dropBank_aesis (s : State) (f b : Nat) : (s.dropBank f b).aesis = s.aesis := rfl
@[simp] theorem State.dropBank_aesos (s : State) (f b : Nat) : (s.dropBank f b).aesos = s.aesos := rfl
@[simp] theorem State.dropBank_pdms (s : State) (f b : Nat) : (s.dropBank f b).pdms = s.pdms := rfl
@[simp] theorem State.dropBank_gears (s : State) (f b : Nat) : (s.dropBank f b).gears = s.gears := rfl
@[simp] theorem State.dropBank_gearTop (s : State) (f b : Nat) : (s.dropBank f b).gearTop = s.gearTop := rfl
@[simp] theorem State.dropBank_net (s : State) (f b : Nat) : (s.dropBank f b).net = s.net := rfl
@[simp] theorem State.dropBank_dram (s : State) (f b : Nat) : (s.dropBank f b).dram = s.dram := rfl
@[simp] theorem State.dropBank_pilots (s : State) (f b : Nat) : (s.dropBank f b).pilots = s.pilots := rfl
@[simp] theorem State.dropBank_adm (s : State) (f b : Nat) : (s.dropBank f b).adm = s.adm := rfl
@[simp] theorem State.dropBank_alarm (s : State) (f b : Nat) : (s.dropBank f b).alarm = s.alarm := rfl
@[simp] theorem State.dropBank_bell (s : State) (f b : Nat) : (s.dropBank f b).bell = s.bell := rfl
@[simp] theorem State.dropBank_free (s : State) (f b : Nat) : (s.dropBank f b).free = s.free := rfl
@[simp] theorem State.dropBank_pending (s : State) (f b : Nat) : (s.dropBank f b).pending = s.pending := rfl

/-! `State.updMac` -/

@[simp] theorem State.updMac_clk (s : State) (n : Nat) (f : Mac → Mac) : (s.updMac n f).clk = s.clk := rfl
@[simp] theorem State.updMac_boot (s : State) (n : Nat) (f : Mac → Mac) : (s.updMac n f).boot = s.boot := rfl
@[simp] theorem State.updMac_flash (s : State) (n : Nat) (f : Mac → Mac) : (s.updMac n f).flash = s.flash := rfl
@[simp] theorem State.updMac_regs (s : State) (n : Nat) (f : Mac → Mac) : (s.updMac n f).regs = s.regs := rfl
@[simp] theorem State.updMac_mbox (s : State) (n : Nat) (f : Mac → Mac) : (s.updMac n f).mbox = s.mbox := rfl
@[simp] theorem State.updMac_svc (s : State) (n : Nat) (f : Mac → Mac) : (s.updMac n f).svc = s.svc := rfl
@[simp] theorem State.updMac_nmbs (s : State) (n : Nat) (f : Mac → Mac) : (s.updMac n f).nmbs = s.nmbs := rfl
@[simp] theorem State.updMac_fw (s : State) (n : Nat) (f : Mac → Mac) : (s.updMac n f).fw = s.fw := rfl
@[simp] theorem State.updMac_armed (s : State) (n : Nat) (f : Mac → Mac) : (s.updMac n f).armed = s.armed := rfl
@[simp] theorem State.updMac_vals (s : State) (n : Nat) (f : Mac → Mac) : (s.updMac n f).vals = s.vals := rfl
@[simp] theorem State.updMac_rings (s : State) (n : Nat) (f : Mac → Mac) : (s.updMac n f).rings = s.rings := rfl
@[simp] theorem State.updMac_limits (s : State) (n : Nat) (f : Mac → Mac) : (s.updMac n f).limits = s.limits := rfl
@[simp] theorem State.updMac_fault (s : State) (n : Nat) (f : Mac → Mac) : (s.updMac n f).fault = s.fault := rfl
@[simp] theorem State.updMac_ladder (s : State) (n : Nat) (f : Mac → Mac) : (s.updMac n f).ladder = s.ladder := rfl
@[simp] theorem State.updMac_recs (s : State) (n : Nat) (f : Mac → Mac) : (s.updMac n f).recs = s.recs := rfl
@[simp] theorem State.updMac_plan (s : State) (n : Nat) (f : Mac → Mac) : (s.updMac n f).plan = s.plan := rfl
@[simp] theorem State.updMac_ledg (s : State) (n : Nat) (f : Mac → Mac) : (s.updMac n f).ledg = s.ledg := rfl
@[simp] theorem State.updMac_maint (s : State) (n : Nat) (f : Mac → Mac) : (s.updMac n f).maint = s.maint := rfl
@[simp] theorem State.updMac_render (s : State) (n : Nat) (f : Mac → Mac) : (s.updMac n f).render = s.render := rfl
@[simp] theorem State.updMac_snd (s : State) (n : Nat) (f : Mac → Mac) : (s.updMac n f).snd = s.snd := rfl
@[simp] theorem State.updMac_feeds (s : State) (n : Nat) (f : Mac → Mac) : (s.updMac n f).feeds = s.feeds := rfl
@[simp] theorem State.updMac_till (s : State) (n : Nat) (f : Mac → Mac) : (s.updMac n f).till = s.till := rfl
@[simp] theorem State.updMac_chans (s : State) (n : Nat) (f : Mac → Mac) : (s.updMac n f).chans = s.chans := rfl
@[simp] theorem State.updMac_buses (s : State) (n : Nat) (f : Mac → Mac) : (s.updMac n f).buses = s.buses := rfl
@[simp] theorem State.updMac_zones (s : State) (n : Nat) (f : Mac → Mac) : (s.updMac n f).zones = s.zones := rfl
@[simp] theorem State.updMac_sceneRun (s : State) (n : Nat) (f : Mac → Mac) : (s.updMac n f).sceneRun = s.sceneRun := rfl
@[simp] theorem State.updMac_spokes (s : State) (n : Nat) (f : Mac → Mac) : (s.updMac n f).spokes = s.spokes := rfl
@[simp] theorem State.updMac_insts (s : State) (n : Nat) (f : Mac → Mac) : (s.updMac n f).insts = s.insts := rfl
@[simp] theorem State.updMac_tandems (s : State) (n : Nat) (f : Mac → Mac) : (s.updMac n f).tandems = s.tandems := rfl
@[simp] theorem State.updMac_sais (s : State) (n : Nat) (f : Mac → Mac) : (s.updMac n f).sais = s.sais := rfl
@[simp] theorem State.updMac_aesis (s : State) (n : Nat) (f : Mac → Mac) : (s.updMac n f).aesis = s.aesis := rfl
@[simp] theorem State.updMac_aesos (s : State) (n : Nat) (f : Mac → Mac) : (s.updMac n f).aesos = s.aesos := rfl
@[simp] theorem State.updMac_pdms (s : State) (n : Nat) (f : Mac → Mac) : (s.updMac n f).pdms = s.pdms := rfl
@[simp] theorem State.updMac_gears (s : State) (n : Nat) (f : Mac → Mac) : (s.updMac n f).gears = s.gears := rfl
@[simp] theorem State.updMac_gearTop (s : State) (n : Nat) (f : Mac → Mac) : (s.updMac n f).gearTop = s.gearTop := rfl
@[simp] theorem State.updMac_net (s : State) (n : Nat) (f : Mac → Mac) :
    (s.updMac n f).net = { s.net with macs := s.net.macs.modify n f } := rfl
@[simp] theorem State.updMac_dram (s : State) (n : Nat) (f : Mac → Mac) : (s.updMac n f).dram = s.dram := rfl
@[simp] theorem State.updMac_pilots (s : State) (n : Nat) (f : Mac → Mac) : (s.updMac n f).pilots = s.pilots := rfl
@[simp] theorem State.updMac_adm (s : State) (n : Nat) (f : Mac → Mac) : (s.updMac n f).adm = s.adm := rfl
@[simp] theorem State.updMac_alarm (s : State) (n : Nat) (f : Mac → Mac) : (s.updMac n f).alarm = s.alarm := rfl
@[simp] theorem State.updMac_bell (s : State) (n : Nat) (f : Mac → Mac) : (s.updMac n f).bell = s.bell := rfl
@[simp] theorem State.updMac_free (s : State) (n : Nat) (f : Mac → Mac) : (s.updMac n f).free = s.free := rfl
@[simp] theorem State.updMac_pending (s : State) (n : Nat) (f : Mac → Mac) : (s.updMac n f).pending = s.pending := rfl

/-! `State.updTx` -/

@[simp] theorem State.updTx_clk (s : State) (k : Nat) (f : TxStream → TxStream) : (s.updTx k f).clk = s.clk := rfl
@[simp] theorem State.updTx_boot (s : State) (k : Nat) (f : TxStream → TxStream) : (s.updTx k f).boot = s.boot := rfl
@[simp] theorem State.updTx_flash (s : State) (k : Nat) (f : TxStream → TxStream) : (s.updTx k f).flash = s.flash := rfl
@[simp] theorem State.updTx_regs (s : State) (k : Nat) (f : TxStream → TxStream) : (s.updTx k f).regs = s.regs := rfl
@[simp] theorem State.updTx_mbox (s : State) (k : Nat) (f : TxStream → TxStream) : (s.updTx k f).mbox = s.mbox := rfl
@[simp] theorem State.updTx_svc (s : State) (k : Nat) (f : TxStream → TxStream) : (s.updTx k f).svc = s.svc := rfl
@[simp] theorem State.updTx_nmbs (s : State) (k : Nat) (f : TxStream → TxStream) : (s.updTx k f).nmbs = s.nmbs := rfl
@[simp] theorem State.updTx_fw (s : State) (k : Nat) (f : TxStream → TxStream) : (s.updTx k f).fw = s.fw := rfl
@[simp] theorem State.updTx_armed (s : State) (k : Nat) (f : TxStream → TxStream) : (s.updTx k f).armed = s.armed := rfl
@[simp] theorem State.updTx_vals (s : State) (k : Nat) (f : TxStream → TxStream) : (s.updTx k f).vals = s.vals := rfl
@[simp] theorem State.updTx_rings (s : State) (k : Nat) (f : TxStream → TxStream) : (s.updTx k f).rings = s.rings := rfl
@[simp] theorem State.updTx_limits (s : State) (k : Nat) (f : TxStream → TxStream) : (s.updTx k f).limits = s.limits := rfl
@[simp] theorem State.updTx_fault (s : State) (k : Nat) (f : TxStream → TxStream) : (s.updTx k f).fault = s.fault := rfl
@[simp] theorem State.updTx_ladder (s : State) (k : Nat) (f : TxStream → TxStream) : (s.updTx k f).ladder = s.ladder := rfl
@[simp] theorem State.updTx_recs (s : State) (k : Nat) (f : TxStream → TxStream) : (s.updTx k f).recs = s.recs := rfl
@[simp] theorem State.updTx_plan (s : State) (k : Nat) (f : TxStream → TxStream) : (s.updTx k f).plan = s.plan := rfl
@[simp] theorem State.updTx_ledg (s : State) (k : Nat) (f : TxStream → TxStream) : (s.updTx k f).ledg = s.ledg := rfl
@[simp] theorem State.updTx_maint (s : State) (k : Nat) (f : TxStream → TxStream) : (s.updTx k f).maint = s.maint := rfl
@[simp] theorem State.updTx_render (s : State) (k : Nat) (f : TxStream → TxStream) : (s.updTx k f).render = s.render := rfl
@[simp] theorem State.updTx_snd (s : State) (k : Nat) (f : TxStream → TxStream) : (s.updTx k f).snd = s.snd := rfl
@[simp] theorem State.updTx_feeds (s : State) (k : Nat) (f : TxStream → TxStream) : (s.updTx k f).feeds = s.feeds := rfl
@[simp] theorem State.updTx_till (s : State) (k : Nat) (f : TxStream → TxStream) : (s.updTx k f).till = s.till := rfl
@[simp] theorem State.updTx_chans (s : State) (k : Nat) (f : TxStream → TxStream) : (s.updTx k f).chans = s.chans := rfl
@[simp] theorem State.updTx_buses (s : State) (k : Nat) (f : TxStream → TxStream) : (s.updTx k f).buses = s.buses := rfl
@[simp] theorem State.updTx_zones (s : State) (k : Nat) (f : TxStream → TxStream) : (s.updTx k f).zones = s.zones := rfl
@[simp] theorem State.updTx_sceneRun (s : State) (k : Nat) (f : TxStream → TxStream) : (s.updTx k f).sceneRun = s.sceneRun := rfl
@[simp] theorem State.updTx_spokes (s : State) (k : Nat) (f : TxStream → TxStream) : (s.updTx k f).spokes = s.spokes := rfl
@[simp] theorem State.updTx_insts (s : State) (k : Nat) (f : TxStream → TxStream) : (s.updTx k f).insts = s.insts := rfl
@[simp] theorem State.updTx_tandems (s : State) (k : Nat) (f : TxStream → TxStream) : (s.updTx k f).tandems = s.tandems := rfl
@[simp] theorem State.updTx_sais (s : State) (k : Nat) (f : TxStream → TxStream) : (s.updTx k f).sais = s.sais := rfl
@[simp] theorem State.updTx_aesis (s : State) (k : Nat) (f : TxStream → TxStream) : (s.updTx k f).aesis = s.aesis := rfl
@[simp] theorem State.updTx_aesos (s : State) (k : Nat) (f : TxStream → TxStream) : (s.updTx k f).aesos = s.aesos := rfl
@[simp] theorem State.updTx_pdms (s : State) (k : Nat) (f : TxStream → TxStream) : (s.updTx k f).pdms = s.pdms := rfl
@[simp] theorem State.updTx_gears (s : State) (k : Nat) (f : TxStream → TxStream) : (s.updTx k f).gears = s.gears := rfl
@[simp] theorem State.updTx_gearTop (s : State) (k : Nat) (f : TxStream → TxStream) : (s.updTx k f).gearTop = s.gearTop := rfl
@[simp] theorem State.updTx_net (s : State) (k : Nat) (f : TxStream → TxStream) :
    (s.updTx k f).net = { s.net with txs := s.net.txs.map fun x => if x.s == k then f x else x } := rfl
@[simp] theorem State.updTx_dram (s : State) (k : Nat) (f : TxStream → TxStream) : (s.updTx k f).dram = s.dram := rfl
@[simp] theorem State.updTx_pilots (s : State) (k : Nat) (f : TxStream → TxStream) : (s.updTx k f).pilots = s.pilots := rfl
@[simp] theorem State.updTx_adm (s : State) (k : Nat) (f : TxStream → TxStream) : (s.updTx k f).adm = s.adm := rfl
@[simp] theorem State.updTx_alarm (s : State) (k : Nat) (f : TxStream → TxStream) : (s.updTx k f).alarm = s.alarm := rfl
@[simp] theorem State.updTx_bell (s : State) (k : Nat) (f : TxStream → TxStream) : (s.updTx k f).bell = s.bell := rfl
@[simp] theorem State.updTx_free (s : State) (k : Nat) (f : TxStream → TxStream) : (s.updTx k f).free = s.free := rfl
@[simp] theorem State.updTx_pending (s : State) (k : Nat) (f : TxStream → TxStream) : (s.updTx k f).pending = s.pending := rfl

/-! `State.updRx` -/

@[simp] theorem State.updRx_clk (s : State) (k : Nat) (f : RxStream → RxStream) : (s.updRx k f).clk = s.clk := rfl
@[simp] theorem State.updRx_boot (s : State) (k : Nat) (f : RxStream → RxStream) : (s.updRx k f).boot = s.boot := rfl
@[simp] theorem State.updRx_flash (s : State) (k : Nat) (f : RxStream → RxStream) : (s.updRx k f).flash = s.flash := rfl
@[simp] theorem State.updRx_regs (s : State) (k : Nat) (f : RxStream → RxStream) : (s.updRx k f).regs = s.regs := rfl
@[simp] theorem State.updRx_mbox (s : State) (k : Nat) (f : RxStream → RxStream) : (s.updRx k f).mbox = s.mbox := rfl
@[simp] theorem State.updRx_svc (s : State) (k : Nat) (f : RxStream → RxStream) : (s.updRx k f).svc = s.svc := rfl
@[simp] theorem State.updRx_nmbs (s : State) (k : Nat) (f : RxStream → RxStream) : (s.updRx k f).nmbs = s.nmbs := rfl
@[simp] theorem State.updRx_fw (s : State) (k : Nat) (f : RxStream → RxStream) : (s.updRx k f).fw = s.fw := rfl
@[simp] theorem State.updRx_armed (s : State) (k : Nat) (f : RxStream → RxStream) : (s.updRx k f).armed = s.armed := rfl
@[simp] theorem State.updRx_vals (s : State) (k : Nat) (f : RxStream → RxStream) : (s.updRx k f).vals = s.vals := rfl
@[simp] theorem State.updRx_rings (s : State) (k : Nat) (f : RxStream → RxStream) : (s.updRx k f).rings = s.rings := rfl
@[simp] theorem State.updRx_limits (s : State) (k : Nat) (f : RxStream → RxStream) : (s.updRx k f).limits = s.limits := rfl
@[simp] theorem State.updRx_fault (s : State) (k : Nat) (f : RxStream → RxStream) : (s.updRx k f).fault = s.fault := rfl
@[simp] theorem State.updRx_ladder (s : State) (k : Nat) (f : RxStream → RxStream) : (s.updRx k f).ladder = s.ladder := rfl
@[simp] theorem State.updRx_recs (s : State) (k : Nat) (f : RxStream → RxStream) : (s.updRx k f).recs = s.recs := rfl
@[simp] theorem State.updRx_plan (s : State) (k : Nat) (f : RxStream → RxStream) : (s.updRx k f).plan = s.plan := rfl
@[simp] theorem State.updRx_ledg (s : State) (k : Nat) (f : RxStream → RxStream) : (s.updRx k f).ledg = s.ledg := rfl
@[simp] theorem State.updRx_maint (s : State) (k : Nat) (f : RxStream → RxStream) : (s.updRx k f).maint = s.maint := rfl
@[simp] theorem State.updRx_render (s : State) (k : Nat) (f : RxStream → RxStream) : (s.updRx k f).render = s.render := rfl
@[simp] theorem State.updRx_snd (s : State) (k : Nat) (f : RxStream → RxStream) : (s.updRx k f).snd = s.snd := rfl
@[simp] theorem State.updRx_feeds (s : State) (k : Nat) (f : RxStream → RxStream) : (s.updRx k f).feeds = s.feeds := rfl
@[simp] theorem State.updRx_till (s : State) (k : Nat) (f : RxStream → RxStream) : (s.updRx k f).till = s.till := rfl
@[simp] theorem State.updRx_chans (s : State) (k : Nat) (f : RxStream → RxStream) : (s.updRx k f).chans = s.chans := rfl
@[simp] theorem State.updRx_buses (s : State) (k : Nat) (f : RxStream → RxStream) : (s.updRx k f).buses = s.buses := rfl
@[simp] theorem State.updRx_zones (s : State) (k : Nat) (f : RxStream → RxStream) : (s.updRx k f).zones = s.zones := rfl
@[simp] theorem State.updRx_sceneRun (s : State) (k : Nat) (f : RxStream → RxStream) : (s.updRx k f).sceneRun = s.sceneRun := rfl
@[simp] theorem State.updRx_spokes (s : State) (k : Nat) (f : RxStream → RxStream) : (s.updRx k f).spokes = s.spokes := rfl
@[simp] theorem State.updRx_insts (s : State) (k : Nat) (f : RxStream → RxStream) : (s.updRx k f).insts = s.insts := rfl
@[simp] theorem State.updRx_tandems (s : State) (k : Nat) (f : RxStream → RxStream) : (s.updRx k f).tandems = s.tandems := rfl
@[simp] theorem State.updRx_sais (s : State) (k : Nat) (f : RxStream → RxStream) : (s.updRx k f).sais = s.sais := rfl
@[simp] theorem State.updRx_aesis (s : State) (k : Nat) (f : RxStream → RxStream) : (s.updRx k f).aesis = s.aesis := rfl
@[simp] theorem State.updRx_aesos (s : State) (k : Nat) (f : RxStream → RxStream) : (s.updRx k f).aesos = s.aesos := rfl
@[simp] theorem State.updRx_pdms (s : State) (k : Nat) (f : RxStream → RxStream) : (s.updRx k f).pdms = s.pdms := rfl
@[simp] theorem State.updRx_gears (s : State) (k : Nat) (f : RxStream → RxStream) : (s.updRx k f).gears = s.gears := rfl
@[simp] theorem State.updRx_gearTop (s : State) (k : Nat) (f : RxStream → RxStream) : (s.updRx k f).gearTop = s.gearTop := rfl
@[simp] theorem State.updRx_net (s : State) (k : Nat) (f : RxStream → RxStream) :
    (s.updRx k f).net = { s.net with rxs := s.net.rxs.map fun x => if x.s == k then f x else x } := rfl
@[simp] theorem State.updRx_dram (s : State) (k : Nat) (f : RxStream → RxStream) : (s.updRx k f).dram = s.dram := rfl
@[simp] theorem State.updRx_pilots (s : State) (k : Nat) (f : RxStream → RxStream) : (s.updRx k f).pilots = s.pilots := rfl
@[simp] theorem State.updRx_adm (s : State) (k : Nat) (f : RxStream → RxStream) : (s.updRx k f).adm = s.adm := rfl
@[simp] theorem State.updRx_alarm (s : State) (k : Nat) (f : RxStream → RxStream) : (s.updRx k f).alarm = s.alarm := rfl
@[simp] theorem State.updRx_bell (s : State) (k : Nat) (f : RxStream → RxStream) : (s.updRx k f).bell = s.bell := rfl
@[simp] theorem State.updRx_free (s : State) (k : Nat) (f : RxStream → RxStream) : (s.updRx k f).free = s.free := rfl
@[simp] theorem State.updRx_pending (s : State) (k : Nat) (f : RxStream → RxStream) : (s.updRx k f).pending = s.pending := rfl

/-! `State.updMbox` -/

@[simp] theorem State.updMbox_clk (s : State) (m : Nat) (f : Mbox → Mbox) : (s.updMbox m f).clk = s.clk := rfl
@[simp] theorem State.updMbox_boot (s : State) (m : Nat) (f : Mbox → Mbox) : (s.updMbox m f).boot = s.boot := rfl
@[simp] theorem State.updMbox_flash (s : State) (m : Nat) (f : Mbox → Mbox) : (s.updMbox m f).flash = s.flash := rfl
@[simp] theorem State.updMbox_regs (s : State) (m : Nat) (f : Mbox → Mbox) : (s.updMbox m f).regs = s.regs := rfl
@[simp] theorem State.updMbox_mbox (s : State) (m : Nat) (f : Mbox → Mbox) :
    (s.updMbox m f).mbox = s.mbox.modify m f := rfl
@[simp] theorem State.updMbox_svc (s : State) (m : Nat) (f : Mbox → Mbox) : (s.updMbox m f).svc = s.svc := rfl
@[simp] theorem State.updMbox_nmbs (s : State) (m : Nat) (f : Mbox → Mbox) : (s.updMbox m f).nmbs = s.nmbs := rfl
@[simp] theorem State.updMbox_fw (s : State) (m : Nat) (f : Mbox → Mbox) : (s.updMbox m f).fw = s.fw := rfl
@[simp] theorem State.updMbox_armed (s : State) (m : Nat) (f : Mbox → Mbox) : (s.updMbox m f).armed = s.armed := rfl
@[simp] theorem State.updMbox_vals (s : State) (m : Nat) (f : Mbox → Mbox) : (s.updMbox m f).vals = s.vals := rfl
@[simp] theorem State.updMbox_rings (s : State) (m : Nat) (f : Mbox → Mbox) : (s.updMbox m f).rings = s.rings := rfl
@[simp] theorem State.updMbox_limits (s : State) (m : Nat) (f : Mbox → Mbox) : (s.updMbox m f).limits = s.limits := rfl
@[simp] theorem State.updMbox_fault (s : State) (m : Nat) (f : Mbox → Mbox) : (s.updMbox m f).fault = s.fault := rfl
@[simp] theorem State.updMbox_ladder (s : State) (m : Nat) (f : Mbox → Mbox) : (s.updMbox m f).ladder = s.ladder := rfl
@[simp] theorem State.updMbox_recs (s : State) (m : Nat) (f : Mbox → Mbox) : (s.updMbox m f).recs = s.recs := rfl
@[simp] theorem State.updMbox_plan (s : State) (m : Nat) (f : Mbox → Mbox) : (s.updMbox m f).plan = s.plan := rfl
@[simp] theorem State.updMbox_ledg (s : State) (m : Nat) (f : Mbox → Mbox) : (s.updMbox m f).ledg = s.ledg := rfl
@[simp] theorem State.updMbox_maint (s : State) (m : Nat) (f : Mbox → Mbox) : (s.updMbox m f).maint = s.maint := rfl
@[simp] theorem State.updMbox_render (s : State) (m : Nat) (f : Mbox → Mbox) : (s.updMbox m f).render = s.render := rfl
@[simp] theorem State.updMbox_snd (s : State) (m : Nat) (f : Mbox → Mbox) : (s.updMbox m f).snd = s.snd := rfl
@[simp] theorem State.updMbox_feeds (s : State) (m : Nat) (f : Mbox → Mbox) : (s.updMbox m f).feeds = s.feeds := rfl
@[simp] theorem State.updMbox_till (s : State) (m : Nat) (f : Mbox → Mbox) : (s.updMbox m f).till = s.till := rfl
@[simp] theorem State.updMbox_chans (s : State) (m : Nat) (f : Mbox → Mbox) : (s.updMbox m f).chans = s.chans := rfl
@[simp] theorem State.updMbox_buses (s : State) (m : Nat) (f : Mbox → Mbox) : (s.updMbox m f).buses = s.buses := rfl
@[simp] theorem State.updMbox_zones (s : State) (m : Nat) (f : Mbox → Mbox) : (s.updMbox m f).zones = s.zones := rfl
@[simp] theorem State.updMbox_sceneRun (s : State) (m : Nat) (f : Mbox → Mbox) : (s.updMbox m f).sceneRun = s.sceneRun := rfl
@[simp] theorem State.updMbox_spokes (s : State) (m : Nat) (f : Mbox → Mbox) : (s.updMbox m f).spokes = s.spokes := rfl
@[simp] theorem State.updMbox_insts (s : State) (m : Nat) (f : Mbox → Mbox) : (s.updMbox m f).insts = s.insts := rfl
@[simp] theorem State.updMbox_tandems (s : State) (m : Nat) (f : Mbox → Mbox) : (s.updMbox m f).tandems = s.tandems := rfl
@[simp] theorem State.updMbox_sais (s : State) (m : Nat) (f : Mbox → Mbox) : (s.updMbox m f).sais = s.sais := rfl
@[simp] theorem State.updMbox_aesis (s : State) (m : Nat) (f : Mbox → Mbox) : (s.updMbox m f).aesis = s.aesis := rfl
@[simp] theorem State.updMbox_aesos (s : State) (m : Nat) (f : Mbox → Mbox) : (s.updMbox m f).aesos = s.aesos := rfl
@[simp] theorem State.updMbox_pdms (s : State) (m : Nat) (f : Mbox → Mbox) : (s.updMbox m f).pdms = s.pdms := rfl
@[simp] theorem State.updMbox_gears (s : State) (m : Nat) (f : Mbox → Mbox) : (s.updMbox m f).gears = s.gears := rfl
@[simp] theorem State.updMbox_gearTop (s : State) (m : Nat) (f : Mbox → Mbox) : (s.updMbox m f).gearTop = s.gearTop := rfl
@[simp] theorem State.updMbox_net (s : State) (m : Nat) (f : Mbox → Mbox) : (s.updMbox m f).net = s.net := rfl
@[simp] theorem State.updMbox_dram (s : State) (m : Nat) (f : Mbox → Mbox) : (s.updMbox m f).dram = s.dram := rfl
@[simp] theorem State.updMbox_pilots (s : State) (m : Nat) (f : Mbox → Mbox) : (s.updMbox m f).pilots = s.pilots := rfl
@[simp] theorem State.updMbox_adm (s : State) (m : Nat) (f : Mbox → Mbox) : (s.updMbox m f).adm = s.adm := rfl
@[simp] theorem State.updMbox_alarm (s : State) (m : Nat) (f : Mbox → Mbox) : (s.updMbox m f).alarm = s.alarm := rfl
@[simp] theorem State.updMbox_bell (s : State) (m : Nat) (f : Mbox → Mbox) : (s.updMbox m f).bell = s.bell := rfl
@[simp] theorem State.updMbox_free (s : State) (m : Nat) (f : Mbox → Mbox) : (s.updMbox m f).free = s.free := rfl
@[simp] theorem State.updMbox_pending (s : State) (m : Nat) (f : Mbox → Mbox) : (s.updMbox m f).pending = s.pending := rfl

/-! `State.updRegs` -/

@[simp] theorem State.updRegs_clk (s : State) (f : HostRegs → HostRegs) : (s.updRegs f).clk = s.clk := rfl
@[simp] theorem State.updRegs_boot (s : State) (f : HostRegs → HostRegs) : (s.updRegs f).boot = s.boot := rfl
@[simp] theorem State.updRegs_flash (s : State) (f : HostRegs → HostRegs) : (s.updRegs f).flash = s.flash := rfl
@[simp] theorem State.updRegs_regs (s : State) (f : HostRegs → HostRegs) :
    (s.updRegs f).regs = f s.regs := rfl
@[simp] theorem State.updRegs_mbox (s : State) (f : HostRegs → HostRegs) : (s.updRegs f).mbox = s.mbox := rfl
@[simp] theorem State.updRegs_svc (s : State) (f : HostRegs → HostRegs) : (s.updRegs f).svc = s.svc := rfl
@[simp] theorem State.updRegs_nmbs (s : State) (f : HostRegs → HostRegs) : (s.updRegs f).nmbs = s.nmbs := rfl
@[simp] theorem State.updRegs_fw (s : State) (f : HostRegs → HostRegs) : (s.updRegs f).fw = s.fw := rfl
@[simp] theorem State.updRegs_armed (s : State) (f : HostRegs → HostRegs) : (s.updRegs f).armed = s.armed := rfl
@[simp] theorem State.updRegs_vals (s : State) (f : HostRegs → HostRegs) : (s.updRegs f).vals = s.vals := rfl
@[simp] theorem State.updRegs_rings (s : State) (f : HostRegs → HostRegs) : (s.updRegs f).rings = s.rings := rfl
@[simp] theorem State.updRegs_limits (s : State) (f : HostRegs → HostRegs) : (s.updRegs f).limits = s.limits := rfl
@[simp] theorem State.updRegs_fault (s : State) (f : HostRegs → HostRegs) : (s.updRegs f).fault = s.fault := rfl
@[simp] theorem State.updRegs_ladder (s : State) (f : HostRegs → HostRegs) : (s.updRegs f).ladder = s.ladder := rfl
@[simp] theorem State.updRegs_recs (s : State) (f : HostRegs → HostRegs) : (s.updRegs f).recs = s.recs := rfl
@[simp] theorem State.updRegs_plan (s : State) (f : HostRegs → HostRegs) : (s.updRegs f).plan = s.plan := rfl
@[simp] theorem State.updRegs_ledg (s : State) (f : HostRegs → HostRegs) : (s.updRegs f).ledg = s.ledg := rfl
@[simp] theorem State.updRegs_maint (s : State) (f : HostRegs → HostRegs) : (s.updRegs f).maint = s.maint := rfl
@[simp] theorem State.updRegs_render (s : State) (f : HostRegs → HostRegs) : (s.updRegs f).render = s.render := rfl
@[simp] theorem State.updRegs_snd (s : State) (f : HostRegs → HostRegs) : (s.updRegs f).snd = s.snd := rfl
@[simp] theorem State.updRegs_feeds (s : State) (f : HostRegs → HostRegs) : (s.updRegs f).feeds = s.feeds := rfl
@[simp] theorem State.updRegs_till (s : State) (f : HostRegs → HostRegs) : (s.updRegs f).till = s.till := rfl
@[simp] theorem State.updRegs_chans (s : State) (f : HostRegs → HostRegs) : (s.updRegs f).chans = s.chans := rfl
@[simp] theorem State.updRegs_buses (s : State) (f : HostRegs → HostRegs) : (s.updRegs f).buses = s.buses := rfl
@[simp] theorem State.updRegs_zones (s : State) (f : HostRegs → HostRegs) : (s.updRegs f).zones = s.zones := rfl
@[simp] theorem State.updRegs_sceneRun (s : State) (f : HostRegs → HostRegs) : (s.updRegs f).sceneRun = s.sceneRun := rfl
@[simp] theorem State.updRegs_spokes (s : State) (f : HostRegs → HostRegs) : (s.updRegs f).spokes = s.spokes := rfl
@[simp] theorem State.updRegs_insts (s : State) (f : HostRegs → HostRegs) : (s.updRegs f).insts = s.insts := rfl
@[simp] theorem State.updRegs_tandems (s : State) (f : HostRegs → HostRegs) : (s.updRegs f).tandems = s.tandems := rfl
@[simp] theorem State.updRegs_sais (s : State) (f : HostRegs → HostRegs) : (s.updRegs f).sais = s.sais := rfl
@[simp] theorem State.updRegs_aesis (s : State) (f : HostRegs → HostRegs) : (s.updRegs f).aesis = s.aesis := rfl
@[simp] theorem State.updRegs_aesos (s : State) (f : HostRegs → HostRegs) : (s.updRegs f).aesos = s.aesos := rfl
@[simp] theorem State.updRegs_pdms (s : State) (f : HostRegs → HostRegs) : (s.updRegs f).pdms = s.pdms := rfl
@[simp] theorem State.updRegs_gears (s : State) (f : HostRegs → HostRegs) : (s.updRegs f).gears = s.gears := rfl
@[simp] theorem State.updRegs_gearTop (s : State) (f : HostRegs → HostRegs) : (s.updRegs f).gearTop = s.gearTop := rfl
@[simp] theorem State.updRegs_net (s : State) (f : HostRegs → HostRegs) : (s.updRegs f).net = s.net := rfl
@[simp] theorem State.updRegs_dram (s : State) (f : HostRegs → HostRegs) : (s.updRegs f).dram = s.dram := rfl
@[simp] theorem State.updRegs_pilots (s : State) (f : HostRegs → HostRegs) : (s.updRegs f).pilots = s.pilots := rfl
@[simp] theorem State.updRegs_adm (s : State) (f : HostRegs → HostRegs) : (s.updRegs f).adm = s.adm := rfl
@[simp] theorem State.updRegs_alarm (s : State) (f : HostRegs → HostRegs) : (s.updRegs f).alarm = s.alarm := rfl
@[simp] theorem State.updRegs_bell (s : State) (f : HostRegs → HostRegs) : (s.updRegs f).bell = s.bell := rfl
@[simp] theorem State.updRegs_free (s : State) (f : HostRegs → HostRegs) : (s.updRegs f).free = s.free := rfl
@[simp] theorem State.updRegs_pending (s : State) (f : HostRegs → HostRegs) : (s.updRegs f).pending = s.pending := rfl

/-! `State.updErr` -/

@[simp] theorem State.updErr_clk (s : State) (f : SysErr → SysErr) : (s.updErr f).clk = s.clk := rfl
@[simp] theorem State.updErr_boot (s : State) (f : SysErr → SysErr) : (s.updErr f).boot = s.boot := rfl
@[simp] theorem State.updErr_flash (s : State) (f : SysErr → SysErr) : (s.updErr f).flash = s.flash := rfl
@[simp] theorem State.updErr_regs (s : State) (f : SysErr → SysErr) :
    (s.updErr f).regs = (fun r : HostRegs => { r with err := f r.err }) s.regs := rfl
@[simp] theorem State.updErr_mbox (s : State) (f : SysErr → SysErr) : (s.updErr f).mbox = s.mbox := rfl
@[simp] theorem State.updErr_svc (s : State) (f : SysErr → SysErr) : (s.updErr f).svc = s.svc := rfl
@[simp] theorem State.updErr_nmbs (s : State) (f : SysErr → SysErr) : (s.updErr f).nmbs = s.nmbs := rfl
@[simp] theorem State.updErr_fw (s : State) (f : SysErr → SysErr) : (s.updErr f).fw = s.fw := rfl
@[simp] theorem State.updErr_armed (s : State) (f : SysErr → SysErr) : (s.updErr f).armed = s.armed := rfl
@[simp] theorem State.updErr_vals (s : State) (f : SysErr → SysErr) : (s.updErr f).vals = s.vals := rfl
@[simp] theorem State.updErr_rings (s : State) (f : SysErr → SysErr) : (s.updErr f).rings = s.rings := rfl
@[simp] theorem State.updErr_limits (s : State) (f : SysErr → SysErr) : (s.updErr f).limits = s.limits := rfl
@[simp] theorem State.updErr_fault (s : State) (f : SysErr → SysErr) : (s.updErr f).fault = s.fault := rfl
@[simp] theorem State.updErr_ladder (s : State) (f : SysErr → SysErr) : (s.updErr f).ladder = s.ladder := rfl
@[simp] theorem State.updErr_recs (s : State) (f : SysErr → SysErr) : (s.updErr f).recs = s.recs := rfl
@[simp] theorem State.updErr_plan (s : State) (f : SysErr → SysErr) : (s.updErr f).plan = s.plan := rfl
@[simp] theorem State.updErr_ledg (s : State) (f : SysErr → SysErr) : (s.updErr f).ledg = s.ledg := rfl
@[simp] theorem State.updErr_maint (s : State) (f : SysErr → SysErr) : (s.updErr f).maint = s.maint := rfl
@[simp] theorem State.updErr_render (s : State) (f : SysErr → SysErr) : (s.updErr f).render = s.render := rfl
@[simp] theorem State.updErr_snd (s : State) (f : SysErr → SysErr) : (s.updErr f).snd = s.snd := rfl
@[simp] theorem State.updErr_feeds (s : State) (f : SysErr → SysErr) : (s.updErr f).feeds = s.feeds := rfl
@[simp] theorem State.updErr_till (s : State) (f : SysErr → SysErr) : (s.updErr f).till = s.till := rfl
@[simp] theorem State.updErr_chans (s : State) (f : SysErr → SysErr) : (s.updErr f).chans = s.chans := rfl
@[simp] theorem State.updErr_buses (s : State) (f : SysErr → SysErr) : (s.updErr f).buses = s.buses := rfl
@[simp] theorem State.updErr_zones (s : State) (f : SysErr → SysErr) : (s.updErr f).zones = s.zones := rfl
@[simp] theorem State.updErr_sceneRun (s : State) (f : SysErr → SysErr) : (s.updErr f).sceneRun = s.sceneRun := rfl
@[simp] theorem State.updErr_spokes (s : State) (f : SysErr → SysErr) : (s.updErr f).spokes = s.spokes := rfl
@[simp] theorem State.updErr_insts (s : State) (f : SysErr → SysErr) : (s.updErr f).insts = s.insts := rfl
@[simp] theorem State.updErr_tandems (s : State) (f : SysErr → SysErr) : (s.updErr f).tandems = s.tandems := rfl
@[simp] theorem State.updErr_sais (s : State) (f : SysErr → SysErr) : (s.updErr f).sais = s.sais := rfl
@[simp] theorem State.updErr_aesis (s : State) (f : SysErr → SysErr) : (s.updErr f).aesis = s.aesis := rfl
@[simp] theorem State.updErr_aesos (s : State) (f : SysErr → SysErr) : (s.updErr f).aesos = s.aesos := rfl
@[simp] theorem State.updErr_pdms (s : State) (f : SysErr → SysErr) : (s.updErr f).pdms = s.pdms := rfl
@[simp] theorem State.updErr_gears (s : State) (f : SysErr → SysErr) : (s.updErr f).gears = s.gears := rfl
@[simp] theorem State.updErr_gearTop (s : State) (f : SysErr → SysErr) : (s.updErr f).gearTop = s.gearTop := rfl
@[simp] theorem State.updErr_net (s : State) (f : SysErr → SysErr) : (s.updErr f).net = s.net := rfl
@[simp] theorem State.updErr_dram (s : State) (f : SysErr → SysErr) : (s.updErr f).dram = s.dram := rfl
@[simp] theorem State.updErr_pilots (s : State) (f : SysErr → SysErr) : (s.updErr f).pilots = s.pilots := rfl
@[simp] theorem State.updErr_adm (s : State) (f : SysErr → SysErr) : (s.updErr f).adm = s.adm := rfl
@[simp] theorem State.updErr_alarm (s : State) (f : SysErr → SysErr) : (s.updErr f).alarm = s.alarm := rfl
@[simp] theorem State.updErr_bell (s : State) (f : SysErr → SysErr) : (s.updErr f).bell = s.bell := rfl
@[simp] theorem State.updErr_free (s : State) (f : SysErr → SysErr) : (s.updErr f).free = s.free := rfl
@[simp] theorem State.updErr_pending (s : State) (f : SysErr → SysErr) : (s.updErr f).pending = s.pending := rfl

/-! `State.updFault` -/

@[simp] theorem State.updFault_clk (s : State) (f : FaultSt → FaultSt) : (s.updFault f).clk = s.clk := rfl
@[simp] theorem State.updFault_boot (s : State) (f : FaultSt → FaultSt) : (s.updFault f).boot = s.boot := rfl
@[simp] theorem State.updFault_flash (s : State) (f : FaultSt → FaultSt) : (s.updFault f).flash = s.flash := rfl
@[simp] theorem State.updFault_regs (s : State) (f : FaultSt → FaultSt) : (s.updFault f).regs = s.regs := rfl
@[simp] theorem State.updFault_mbox (s : State) (f : FaultSt → FaultSt) : (s.updFault f).mbox = s.mbox := rfl
@[simp] theorem State.updFault_svc (s : State) (f : FaultSt → FaultSt) : (s.updFault f).svc = s.svc := rfl
@[simp] theorem State.updFault_nmbs (s : State) (f : FaultSt → FaultSt) : (s.updFault f).nmbs = s.nmbs := rfl
@[simp] theorem State.updFault_fw (s : State) (f : FaultSt → FaultSt) : (s.updFault f).fw = s.fw := rfl
@[simp] theorem State.updFault_armed (s : State) (f : FaultSt → FaultSt) : (s.updFault f).armed = s.armed := rfl
@[simp] theorem State.updFault_vals (s : State) (f : FaultSt → FaultSt) : (s.updFault f).vals = s.vals := rfl
@[simp] theorem State.updFault_rings (s : State) (f : FaultSt → FaultSt) : (s.updFault f).rings = s.rings := rfl
@[simp] theorem State.updFault_limits (s : State) (f : FaultSt → FaultSt) : (s.updFault f).limits = s.limits := rfl
@[simp] theorem State.updFault_fault (s : State) (f : FaultSt → FaultSt) :
    (s.updFault f).fault = f s.fault := rfl
@[simp] theorem State.updFault_ladder (s : State) (f : FaultSt → FaultSt) : (s.updFault f).ladder = s.ladder := rfl
@[simp] theorem State.updFault_recs (s : State) (f : FaultSt → FaultSt) : (s.updFault f).recs = s.recs := rfl
@[simp] theorem State.updFault_plan (s : State) (f : FaultSt → FaultSt) : (s.updFault f).plan = s.plan := rfl
@[simp] theorem State.updFault_ledg (s : State) (f : FaultSt → FaultSt) : (s.updFault f).ledg = s.ledg := rfl
@[simp] theorem State.updFault_maint (s : State) (f : FaultSt → FaultSt) : (s.updFault f).maint = s.maint := rfl
@[simp] theorem State.updFault_render (s : State) (f : FaultSt → FaultSt) : (s.updFault f).render = s.render := rfl
@[simp] theorem State.updFault_snd (s : State) (f : FaultSt → FaultSt) : (s.updFault f).snd = s.snd := rfl
@[simp] theorem State.updFault_feeds (s : State) (f : FaultSt → FaultSt) : (s.updFault f).feeds = s.feeds := rfl
@[simp] theorem State.updFault_till (s : State) (f : FaultSt → FaultSt) : (s.updFault f).till = s.till := rfl
@[simp] theorem State.updFault_chans (s : State) (f : FaultSt → FaultSt) : (s.updFault f).chans = s.chans := rfl
@[simp] theorem State.updFault_buses (s : State) (f : FaultSt → FaultSt) : (s.updFault f).buses = s.buses := rfl
@[simp] theorem State.updFault_zones (s : State) (f : FaultSt → FaultSt) : (s.updFault f).zones = s.zones := rfl
@[simp] theorem State.updFault_sceneRun (s : State) (f : FaultSt → FaultSt) : (s.updFault f).sceneRun = s.sceneRun := rfl
@[simp] theorem State.updFault_spokes (s : State) (f : FaultSt → FaultSt) : (s.updFault f).spokes = s.spokes := rfl
@[simp] theorem State.updFault_insts (s : State) (f : FaultSt → FaultSt) : (s.updFault f).insts = s.insts := rfl
@[simp] theorem State.updFault_tandems (s : State) (f : FaultSt → FaultSt) : (s.updFault f).tandems = s.tandems := rfl
@[simp] theorem State.updFault_sais (s : State) (f : FaultSt → FaultSt) : (s.updFault f).sais = s.sais := rfl
@[simp] theorem State.updFault_aesis (s : State) (f : FaultSt → FaultSt) : (s.updFault f).aesis = s.aesis := rfl
@[simp] theorem State.updFault_aesos (s : State) (f : FaultSt → FaultSt) : (s.updFault f).aesos = s.aesos := rfl
@[simp] theorem State.updFault_pdms (s : State) (f : FaultSt → FaultSt) : (s.updFault f).pdms = s.pdms := rfl
@[simp] theorem State.updFault_gears (s : State) (f : FaultSt → FaultSt) : (s.updFault f).gears = s.gears := rfl
@[simp] theorem State.updFault_gearTop (s : State) (f : FaultSt → FaultSt) : (s.updFault f).gearTop = s.gearTop := rfl
@[simp] theorem State.updFault_net (s : State) (f : FaultSt → FaultSt) : (s.updFault f).net = s.net := rfl
@[simp] theorem State.updFault_dram (s : State) (f : FaultSt → FaultSt) : (s.updFault f).dram = s.dram := rfl
@[simp] theorem State.updFault_pilots (s : State) (f : FaultSt → FaultSt) : (s.updFault f).pilots = s.pilots := rfl
@[simp] theorem State.updFault_adm (s : State) (f : FaultSt → FaultSt) : (s.updFault f).adm = s.adm := rfl
@[simp] theorem State.updFault_alarm (s : State) (f : FaultSt → FaultSt) : (s.updFault f).alarm = s.alarm := rfl
@[simp] theorem State.updFault_bell (s : State) (f : FaultSt → FaultSt) : (s.updFault f).bell = s.bell := rfl
@[simp] theorem State.updFault_free (s : State) (f : FaultSt → FaultSt) : (s.updFault f).free = s.free := rfl
@[simp] theorem State.updFault_pending (s : State) (f : FaultSt → FaultSt) : (s.updFault f).pending = s.pending := rfl

/-! `State.updPilot` -/

@[simp] theorem State.updPilot_clk (s : State) (n : Nat) (f : Pilot → Pilot) : (s.updPilot n f).clk = s.clk := rfl
@[simp] theorem State.updPilot_boot (s : State) (n : Nat) (f : Pilot → Pilot) : (s.updPilot n f).boot = s.boot := rfl
@[simp] theorem State.updPilot_flash (s : State) (n : Nat) (f : Pilot → Pilot) : (s.updPilot n f).flash = s.flash := rfl
@[simp] theorem State.updPilot_regs (s : State) (n : Nat) (f : Pilot → Pilot) : (s.updPilot n f).regs = s.regs := rfl
@[simp] theorem State.updPilot_mbox (s : State) (n : Nat) (f : Pilot → Pilot) : (s.updPilot n f).mbox = s.mbox := rfl
@[simp] theorem State.updPilot_svc (s : State) (n : Nat) (f : Pilot → Pilot) : (s.updPilot n f).svc = s.svc := rfl
@[simp] theorem State.updPilot_nmbs (s : State) (n : Nat) (f : Pilot → Pilot) : (s.updPilot n f).nmbs = s.nmbs := rfl
@[simp] theorem State.updPilot_fw (s : State) (n : Nat) (f : Pilot → Pilot) : (s.updPilot n f).fw = s.fw := rfl
@[simp] theorem State.updPilot_armed (s : State) (n : Nat) (f : Pilot → Pilot) : (s.updPilot n f).armed = s.armed := rfl
@[simp] theorem State.updPilot_vals (s : State) (n : Nat) (f : Pilot → Pilot) : (s.updPilot n f).vals = s.vals := rfl
@[simp] theorem State.updPilot_rings (s : State) (n : Nat) (f : Pilot → Pilot) : (s.updPilot n f).rings = s.rings := rfl
@[simp] theorem State.updPilot_limits (s : State) (n : Nat) (f : Pilot → Pilot) : (s.updPilot n f).limits = s.limits := rfl
@[simp] theorem State.updPilot_fault (s : State) (n : Nat) (f : Pilot → Pilot) : (s.updPilot n f).fault = s.fault := rfl
@[simp] theorem State.updPilot_ladder (s : State) (n : Nat) (f : Pilot → Pilot) : (s.updPilot n f).ladder = s.ladder := rfl
@[simp] theorem State.updPilot_recs (s : State) (n : Nat) (f : Pilot → Pilot) : (s.updPilot n f).recs = s.recs := rfl
@[simp] theorem State.updPilot_plan (s : State) (n : Nat) (f : Pilot → Pilot) : (s.updPilot n f).plan = s.plan := rfl
@[simp] theorem State.updPilot_ledg (s : State) (n : Nat) (f : Pilot → Pilot) : (s.updPilot n f).ledg = s.ledg := rfl
@[simp] theorem State.updPilot_maint (s : State) (n : Nat) (f : Pilot → Pilot) : (s.updPilot n f).maint = s.maint := rfl
@[simp] theorem State.updPilot_render (s : State) (n : Nat) (f : Pilot → Pilot) : (s.updPilot n f).render = s.render := rfl
@[simp] theorem State.updPilot_snd (s : State) (n : Nat) (f : Pilot → Pilot) : (s.updPilot n f).snd = s.snd := rfl
@[simp] theorem State.updPilot_feeds (s : State) (n : Nat) (f : Pilot → Pilot) : (s.updPilot n f).feeds = s.feeds := rfl
@[simp] theorem State.updPilot_till (s : State) (n : Nat) (f : Pilot → Pilot) : (s.updPilot n f).till = s.till := rfl
@[simp] theorem State.updPilot_chans (s : State) (n : Nat) (f : Pilot → Pilot) : (s.updPilot n f).chans = s.chans := rfl
@[simp] theorem State.updPilot_buses (s : State) (n : Nat) (f : Pilot → Pilot) : (s.updPilot n f).buses = s.buses := rfl
@[simp] theorem State.updPilot_zones (s : State) (n : Nat) (f : Pilot → Pilot) : (s.updPilot n f).zones = s.zones := rfl
@[simp] theorem State.updPilot_sceneRun (s : State) (n : Nat) (f : Pilot → Pilot) : (s.updPilot n f).sceneRun = s.sceneRun := rfl
@[simp] theorem State.updPilot_spokes (s : State) (n : Nat) (f : Pilot → Pilot) : (s.updPilot n f).spokes = s.spokes := rfl
@[simp] theorem State.updPilot_insts (s : State) (n : Nat) (f : Pilot → Pilot) : (s.updPilot n f).insts = s.insts := rfl
@[simp] theorem State.updPilot_tandems (s : State) (n : Nat) (f : Pilot → Pilot) : (s.updPilot n f).tandems = s.tandems := rfl
@[simp] theorem State.updPilot_sais (s : State) (n : Nat) (f : Pilot → Pilot) : (s.updPilot n f).sais = s.sais := rfl
@[simp] theorem State.updPilot_aesis (s : State) (n : Nat) (f : Pilot → Pilot) : (s.updPilot n f).aesis = s.aesis := rfl
@[simp] theorem State.updPilot_aesos (s : State) (n : Nat) (f : Pilot → Pilot) : (s.updPilot n f).aesos = s.aesos := rfl
@[simp] theorem State.updPilot_pdms (s : State) (n : Nat) (f : Pilot → Pilot) : (s.updPilot n f).pdms = s.pdms := rfl
@[simp] theorem State.updPilot_gears (s : State) (n : Nat) (f : Pilot → Pilot) : (s.updPilot n f).gears = s.gears := rfl
@[simp] theorem State.updPilot_gearTop (s : State) (n : Nat) (f : Pilot → Pilot) : (s.updPilot n f).gearTop = s.gearTop := rfl
@[simp] theorem State.updPilot_net (s : State) (n : Nat) (f : Pilot → Pilot) : (s.updPilot n f).net = s.net := rfl
@[simp] theorem State.updPilot_dram (s : State) (n : Nat) (f : Pilot → Pilot) : (s.updPilot n f).dram = s.dram := rfl
@[simp] theorem State.updPilot_pilots (s : State) (n : Nat) (f : Pilot → Pilot) :
    (s.updPilot n f).pilots = s.pilots.modify n f := rfl
@[simp] theorem State.updPilot_adm (s : State) (n : Nat) (f : Pilot → Pilot) : (s.updPilot n f).adm = s.adm := rfl
@[simp] theorem State.updPilot_alarm (s : State) (n : Nat) (f : Pilot → Pilot) : (s.updPilot n f).alarm = s.alarm := rfl
@[simp] theorem State.updPilot_bell (s : State) (n : Nat) (f : Pilot → Pilot) : (s.updPilot n f).bell = s.bell := rfl
@[simp] theorem State.updPilot_free (s : State) (n : Nat) (f : Pilot → Pilot) : (s.updPilot n f).free = s.free := rfl
@[simp] theorem State.updPilot_pending (s : State) (n : Nat) (f : Pilot → Pilot) : (s.updPilot n f).pending = s.pending := rfl

/-! `State.updSai` -/

@[simp] theorem State.updSai_clk (s : State) (n : Nat) (f : SaiPort → SaiPort) : (s.updSai n f).clk = s.clk := rfl
@[simp] theorem State.updSai_boot (s : State) (n : Nat) (f : SaiPort → SaiPort) : (s.updSai n f).boot = s.boot := rfl
@[simp] theorem State.updSai_flash (s : State) (n : Nat) (f : SaiPort → SaiPort) : (s.updSai n f).flash = s.flash := rfl
@[simp] theorem State.updSai_regs (s : State) (n : Nat) (f : SaiPort → SaiPort) : (s.updSai n f).regs = s.regs := rfl
@[simp] theorem State.updSai_mbox (s : State) (n : Nat) (f : SaiPort → SaiPort) : (s.updSai n f).mbox = s.mbox := rfl
@[simp] theorem State.updSai_svc (s : State) (n : Nat) (f : SaiPort → SaiPort) : (s.updSai n f).svc = s.svc := rfl
@[simp] theorem State.updSai_nmbs (s : State) (n : Nat) (f : SaiPort → SaiPort) : (s.updSai n f).nmbs = s.nmbs := rfl
@[simp] theorem State.updSai_fw (s : State) (n : Nat) (f : SaiPort → SaiPort) : (s.updSai n f).fw = s.fw := rfl
@[simp] theorem State.updSai_armed (s : State) (n : Nat) (f : SaiPort → SaiPort) : (s.updSai n f).armed = s.armed := rfl
@[simp] theorem State.updSai_vals (s : State) (n : Nat) (f : SaiPort → SaiPort) : (s.updSai n f).vals = s.vals := rfl
@[simp] theorem State.updSai_rings (s : State) (n : Nat) (f : SaiPort → SaiPort) : (s.updSai n f).rings = s.rings := rfl
@[simp] theorem State.updSai_limits (s : State) (n : Nat) (f : SaiPort → SaiPort) : (s.updSai n f).limits = s.limits := rfl
@[simp] theorem State.updSai_fault (s : State) (n : Nat) (f : SaiPort → SaiPort) : (s.updSai n f).fault = s.fault := rfl
@[simp] theorem State.updSai_ladder (s : State) (n : Nat) (f : SaiPort → SaiPort) : (s.updSai n f).ladder = s.ladder := rfl
@[simp] theorem State.updSai_recs (s : State) (n : Nat) (f : SaiPort → SaiPort) : (s.updSai n f).recs = s.recs := rfl
@[simp] theorem State.updSai_plan (s : State) (n : Nat) (f : SaiPort → SaiPort) : (s.updSai n f).plan = s.plan := rfl
@[simp] theorem State.updSai_ledg (s : State) (n : Nat) (f : SaiPort → SaiPort) : (s.updSai n f).ledg = s.ledg := rfl
@[simp] theorem State.updSai_maint (s : State) (n : Nat) (f : SaiPort → SaiPort) : (s.updSai n f).maint = s.maint := rfl
@[simp] theorem State.updSai_render (s : State) (n : Nat) (f : SaiPort → SaiPort) : (s.updSai n f).render = s.render := rfl
@[simp] theorem State.updSai_snd (s : State) (n : Nat) (f : SaiPort → SaiPort) : (s.updSai n f).snd = s.snd := rfl
@[simp] theorem State.updSai_feeds (s : State) (n : Nat) (f : SaiPort → SaiPort) : (s.updSai n f).feeds = s.feeds := rfl
@[simp] theorem State.updSai_till (s : State) (n : Nat) (f : SaiPort → SaiPort) : (s.updSai n f).till = s.till := rfl
@[simp] theorem State.updSai_chans (s : State) (n : Nat) (f : SaiPort → SaiPort) : (s.updSai n f).chans = s.chans := rfl
@[simp] theorem State.updSai_buses (s : State) (n : Nat) (f : SaiPort → SaiPort) : (s.updSai n f).buses = s.buses := rfl
@[simp] theorem State.updSai_zones (s : State) (n : Nat) (f : SaiPort → SaiPort) : (s.updSai n f).zones = s.zones := rfl
@[simp] theorem State.updSai_sceneRun (s : State) (n : Nat) (f : SaiPort → SaiPort) : (s.updSai n f).sceneRun = s.sceneRun := rfl
@[simp] theorem State.updSai_spokes (s : State) (n : Nat) (f : SaiPort → SaiPort) : (s.updSai n f).spokes = s.spokes := rfl
@[simp] theorem State.updSai_insts (s : State) (n : Nat) (f : SaiPort → SaiPort) : (s.updSai n f).insts = s.insts := rfl
@[simp] theorem State.updSai_tandems (s : State) (n : Nat) (f : SaiPort → SaiPort) : (s.updSai n f).tandems = s.tandems := rfl
@[simp] theorem State.updSai_sais (s : State) (n : Nat) (f : SaiPort → SaiPort) :
    (s.updSai n f).sais = s.sais.map fun x => if x.n == n then f x else x := rfl
@[simp] theorem State.updSai_aesis (s : State) (n : Nat) (f : SaiPort → SaiPort) : (s.updSai n f).aesis = s.aesis := rfl
@[simp] theorem State.updSai_aesos (s : State) (n : Nat) (f : SaiPort → SaiPort) : (s.updSai n f).aesos = s.aesos := rfl
@[simp] theorem State.updSai_pdms (s : State) (n : Nat) (f : SaiPort → SaiPort) : (s.updSai n f).pdms = s.pdms := rfl
@[simp] theorem State.updSai_gears (s : State) (n : Nat) (f : SaiPort → SaiPort) : (s.updSai n f).gears = s.gears := rfl
@[simp] theorem State.updSai_gearTop (s : State) (n : Nat) (f : SaiPort → SaiPort) : (s.updSai n f).gearTop = s.gearTop := rfl
@[simp] theorem State.updSai_net (s : State) (n : Nat) (f : SaiPort → SaiPort) : (s.updSai n f).net = s.net := rfl
@[simp] theorem State.updSai_dram (s : State) (n : Nat) (f : SaiPort → SaiPort) : (s.updSai n f).dram = s.dram := rfl
@[simp] theorem State.updSai_pilots (s : State) (n : Nat) (f : SaiPort → SaiPort) : (s.updSai n f).pilots = s.pilots := rfl
@[simp] theorem State.updSai_adm (s : State) (n : Nat) (f : SaiPort → SaiPort) : (s.updSai n f).adm = s.adm := rfl
@[simp] theorem State.updSai_alarm (s : State) (n : Nat) (f : SaiPort → SaiPort) : (s.updSai n f).alarm = s.alarm := rfl
@[simp] theorem State.updSai_bell (s : State) (n : Nat) (f : SaiPort → SaiPort) : (s.updSai n f).bell = s.bell := rfl
@[simp] theorem State.updSai_free (s : State) (n : Nat) (f : SaiPort → SaiPort) : (s.updSai n f).free = s.free := rfl
@[simp] theorem State.updSai_pending (s : State) (n : Nat) (f : SaiPort → SaiPort) : (s.updSai n f).pending = s.pending := rfl

/-! `State.updAesi` -/

@[simp] theorem State.updAesi_clk (s : State) (n : Nat) (f : AesIn → AesIn) : (s.updAesi n f).clk = s.clk := rfl
@[simp] theorem State.updAesi_boot (s : State) (n : Nat) (f : AesIn → AesIn) : (s.updAesi n f).boot = s.boot := rfl
@[simp] theorem State.updAesi_flash (s : State) (n : Nat) (f : AesIn → AesIn) : (s.updAesi n f).flash = s.flash := rfl
@[simp] theorem State.updAesi_regs (s : State) (n : Nat) (f : AesIn → AesIn) : (s.updAesi n f).regs = s.regs := rfl
@[simp] theorem State.updAesi_mbox (s : State) (n : Nat) (f : AesIn → AesIn) : (s.updAesi n f).mbox = s.mbox := rfl
@[simp] theorem State.updAesi_svc (s : State) (n : Nat) (f : AesIn → AesIn) : (s.updAesi n f).svc = s.svc := rfl
@[simp] theorem State.updAesi_nmbs (s : State) (n : Nat) (f : AesIn → AesIn) : (s.updAesi n f).nmbs = s.nmbs := rfl
@[simp] theorem State.updAesi_fw (s : State) (n : Nat) (f : AesIn → AesIn) : (s.updAesi n f).fw = s.fw := rfl
@[simp] theorem State.updAesi_armed (s : State) (n : Nat) (f : AesIn → AesIn) : (s.updAesi n f).armed = s.armed := rfl
@[simp] theorem State.updAesi_vals (s : State) (n : Nat) (f : AesIn → AesIn) : (s.updAesi n f).vals = s.vals := rfl
@[simp] theorem State.updAesi_rings (s : State) (n : Nat) (f : AesIn → AesIn) : (s.updAesi n f).rings = s.rings := rfl
@[simp] theorem State.updAesi_limits (s : State) (n : Nat) (f : AesIn → AesIn) : (s.updAesi n f).limits = s.limits := rfl
@[simp] theorem State.updAesi_fault (s : State) (n : Nat) (f : AesIn → AesIn) : (s.updAesi n f).fault = s.fault := rfl
@[simp] theorem State.updAesi_ladder (s : State) (n : Nat) (f : AesIn → AesIn) : (s.updAesi n f).ladder = s.ladder := rfl
@[simp] theorem State.updAesi_recs (s : State) (n : Nat) (f : AesIn → AesIn) : (s.updAesi n f).recs = s.recs := rfl
@[simp] theorem State.updAesi_plan (s : State) (n : Nat) (f : AesIn → AesIn) : (s.updAesi n f).plan = s.plan := rfl
@[simp] theorem State.updAesi_ledg (s : State) (n : Nat) (f : AesIn → AesIn) : (s.updAesi n f).ledg = s.ledg := rfl
@[simp] theorem State.updAesi_maint (s : State) (n : Nat) (f : AesIn → AesIn) : (s.updAesi n f).maint = s.maint := rfl
@[simp] theorem State.updAesi_render (s : State) (n : Nat) (f : AesIn → AesIn) : (s.updAesi n f).render = s.render := rfl
@[simp] theorem State.updAesi_snd (s : State) (n : Nat) (f : AesIn → AesIn) : (s.updAesi n f).snd = s.snd := rfl
@[simp] theorem State.updAesi_feeds (s : State) (n : Nat) (f : AesIn → AesIn) : (s.updAesi n f).feeds = s.feeds := rfl
@[simp] theorem State.updAesi_till (s : State) (n : Nat) (f : AesIn → AesIn) : (s.updAesi n f).till = s.till := rfl
@[simp] theorem State.updAesi_chans (s : State) (n : Nat) (f : AesIn → AesIn) : (s.updAesi n f).chans = s.chans := rfl
@[simp] theorem State.updAesi_buses (s : State) (n : Nat) (f : AesIn → AesIn) : (s.updAesi n f).buses = s.buses := rfl
@[simp] theorem State.updAesi_zones (s : State) (n : Nat) (f : AesIn → AesIn) : (s.updAesi n f).zones = s.zones := rfl
@[simp] theorem State.updAesi_sceneRun (s : State) (n : Nat) (f : AesIn → AesIn) : (s.updAesi n f).sceneRun = s.sceneRun := rfl
@[simp] theorem State.updAesi_spokes (s : State) (n : Nat) (f : AesIn → AesIn) : (s.updAesi n f).spokes = s.spokes := rfl
@[simp] theorem State.updAesi_insts (s : State) (n : Nat) (f : AesIn → AesIn) : (s.updAesi n f).insts = s.insts := rfl
@[simp] theorem State.updAesi_tandems (s : State) (n : Nat) (f : AesIn → AesIn) : (s.updAesi n f).tandems = s.tandems := rfl
@[simp] theorem State.updAesi_sais (s : State) (n : Nat) (f : AesIn → AesIn) : (s.updAesi n f).sais = s.sais := rfl
@[simp] theorem State.updAesi_aesis (s : State) (n : Nat) (f : AesIn → AesIn) :
    (s.updAesi n f).aesis = s.aesis.map fun x => if x.n == n then f x else x := rfl
@[simp] theorem State.updAesi_aesos (s : State) (n : Nat) (f : AesIn → AesIn) : (s.updAesi n f).aesos = s.aesos := rfl
@[simp] theorem State.updAesi_pdms (s : State) (n : Nat) (f : AesIn → AesIn) : (s.updAesi n f).pdms = s.pdms := rfl
@[simp] theorem State.updAesi_gears (s : State) (n : Nat) (f : AesIn → AesIn) : (s.updAesi n f).gears = s.gears := rfl
@[simp] theorem State.updAesi_gearTop (s : State) (n : Nat) (f : AesIn → AesIn) : (s.updAesi n f).gearTop = s.gearTop := rfl
@[simp] theorem State.updAesi_net (s : State) (n : Nat) (f : AesIn → AesIn) : (s.updAesi n f).net = s.net := rfl
@[simp] theorem State.updAesi_dram (s : State) (n : Nat) (f : AesIn → AesIn) : (s.updAesi n f).dram = s.dram := rfl
@[simp] theorem State.updAesi_pilots (s : State) (n : Nat) (f : AesIn → AesIn) : (s.updAesi n f).pilots = s.pilots := rfl
@[simp] theorem State.updAesi_adm (s : State) (n : Nat) (f : AesIn → AesIn) : (s.updAesi n f).adm = s.adm := rfl
@[simp] theorem State.updAesi_alarm (s : State) (n : Nat) (f : AesIn → AesIn) : (s.updAesi n f).alarm = s.alarm := rfl
@[simp] theorem State.updAesi_bell (s : State) (n : Nat) (f : AesIn → AesIn) : (s.updAesi n f).bell = s.bell := rfl
@[simp] theorem State.updAesi_free (s : State) (n : Nat) (f : AesIn → AesIn) : (s.updAesi n f).free = s.free := rfl
@[simp] theorem State.updAesi_pending (s : State) (n : Nat) (f : AesIn → AesIn) : (s.updAesi n f).pending = s.pending := rfl

/-! `State.updAeso` -/

@[simp] theorem State.updAeso_clk (s : State) (n : Nat) (f : AesOut → AesOut) : (s.updAeso n f).clk = s.clk := rfl
@[simp] theorem State.updAeso_boot (s : State) (n : Nat) (f : AesOut → AesOut) : (s.updAeso n f).boot = s.boot := rfl
@[simp] theorem State.updAeso_flash (s : State) (n : Nat) (f : AesOut → AesOut) : (s.updAeso n f).flash = s.flash := rfl
@[simp] theorem State.updAeso_regs (s : State) (n : Nat) (f : AesOut → AesOut) : (s.updAeso n f).regs = s.regs := rfl
@[simp] theorem State.updAeso_mbox (s : State) (n : Nat) (f : AesOut → AesOut) : (s.updAeso n f).mbox = s.mbox := rfl
@[simp] theorem State.updAeso_svc (s : State) (n : Nat) (f : AesOut → AesOut) : (s.updAeso n f).svc = s.svc := rfl
@[simp] theorem State.updAeso_nmbs (s : State) (n : Nat) (f : AesOut → AesOut) : (s.updAeso n f).nmbs = s.nmbs := rfl
@[simp] theorem State.updAeso_fw (s : State) (n : Nat) (f : AesOut → AesOut) : (s.updAeso n f).fw = s.fw := rfl
@[simp] theorem State.updAeso_armed (s : State) (n : Nat) (f : AesOut → AesOut) : (s.updAeso n f).armed = s.armed := rfl
@[simp] theorem State.updAeso_vals (s : State) (n : Nat) (f : AesOut → AesOut) : (s.updAeso n f).vals = s.vals := rfl
@[simp] theorem State.updAeso_rings (s : State) (n : Nat) (f : AesOut → AesOut) : (s.updAeso n f).rings = s.rings := rfl
@[simp] theorem State.updAeso_limits (s : State) (n : Nat) (f : AesOut → AesOut) : (s.updAeso n f).limits = s.limits := rfl
@[simp] theorem State.updAeso_fault (s : State) (n : Nat) (f : AesOut → AesOut) : (s.updAeso n f).fault = s.fault := rfl
@[simp] theorem State.updAeso_ladder (s : State) (n : Nat) (f : AesOut → AesOut) : (s.updAeso n f).ladder = s.ladder := rfl
@[simp] theorem State.updAeso_recs (s : State) (n : Nat) (f : AesOut → AesOut) : (s.updAeso n f).recs = s.recs := rfl
@[simp] theorem State.updAeso_plan (s : State) (n : Nat) (f : AesOut → AesOut) : (s.updAeso n f).plan = s.plan := rfl
@[simp] theorem State.updAeso_ledg (s : State) (n : Nat) (f : AesOut → AesOut) : (s.updAeso n f).ledg = s.ledg := rfl
@[simp] theorem State.updAeso_maint (s : State) (n : Nat) (f : AesOut → AesOut) : (s.updAeso n f).maint = s.maint := rfl
@[simp] theorem State.updAeso_render (s : State) (n : Nat) (f : AesOut → AesOut) : (s.updAeso n f).render = s.render := rfl
@[simp] theorem State.updAeso_snd (s : State) (n : Nat) (f : AesOut → AesOut) : (s.updAeso n f).snd = s.snd := rfl
@[simp] theorem State.updAeso_feeds (s : State) (n : Nat) (f : AesOut → AesOut) : (s.updAeso n f).feeds = s.feeds := rfl
@[simp] theorem State.updAeso_till (s : State) (n : Nat) (f : AesOut → AesOut) : (s.updAeso n f).till = s.till := rfl
@[simp] theorem State.updAeso_chans (s : State) (n : Nat) (f : AesOut → AesOut) : (s.updAeso n f).chans = s.chans := rfl
@[simp] theorem State.updAeso_buses (s : State) (n : Nat) (f : AesOut → AesOut) : (s.updAeso n f).buses = s.buses := rfl
@[simp] theorem State.updAeso_zones (s : State) (n : Nat) (f : AesOut → AesOut) : (s.updAeso n f).zones = s.zones := rfl
@[simp] theorem State.updAeso_sceneRun (s : State) (n : Nat) (f : AesOut → AesOut) : (s.updAeso n f).sceneRun = s.sceneRun := rfl
@[simp] theorem State.updAeso_spokes (s : State) (n : Nat) (f : AesOut → AesOut) : (s.updAeso n f).spokes = s.spokes := rfl
@[simp] theorem State.updAeso_insts (s : State) (n : Nat) (f : AesOut → AesOut) : (s.updAeso n f).insts = s.insts := rfl
@[simp] theorem State.updAeso_tandems (s : State) (n : Nat) (f : AesOut → AesOut) : (s.updAeso n f).tandems = s.tandems := rfl
@[simp] theorem State.updAeso_sais (s : State) (n : Nat) (f : AesOut → AesOut) : (s.updAeso n f).sais = s.sais := rfl
@[simp] theorem State.updAeso_aesis (s : State) (n : Nat) (f : AesOut → AesOut) : (s.updAeso n f).aesis = s.aesis := rfl
@[simp] theorem State.updAeso_aesos (s : State) (n : Nat) (f : AesOut → AesOut) :
    (s.updAeso n f).aesos = s.aesos.map fun x => if x.n == n then f x else x := rfl
@[simp] theorem State.updAeso_pdms (s : State) (n : Nat) (f : AesOut → AesOut) : (s.updAeso n f).pdms = s.pdms := rfl
@[simp] theorem State.updAeso_gears (s : State) (n : Nat) (f : AesOut → AesOut) : (s.updAeso n f).gears = s.gears := rfl
@[simp] theorem State.updAeso_gearTop (s : State) (n : Nat) (f : AesOut → AesOut) : (s.updAeso n f).gearTop = s.gearTop := rfl
@[simp] theorem State.updAeso_net (s : State) (n : Nat) (f : AesOut → AesOut) : (s.updAeso n f).net = s.net := rfl
@[simp] theorem State.updAeso_dram (s : State) (n : Nat) (f : AesOut → AesOut) : (s.updAeso n f).dram = s.dram := rfl
@[simp] theorem State.updAeso_pilots (s : State) (n : Nat) (f : AesOut → AesOut) : (s.updAeso n f).pilots = s.pilots := rfl
@[simp] theorem State.updAeso_adm (s : State) (n : Nat) (f : AesOut → AesOut) : (s.updAeso n f).adm = s.adm := rfl
@[simp] theorem State.updAeso_alarm (s : State) (n : Nat) (f : AesOut → AesOut) : (s.updAeso n f).alarm = s.alarm := rfl
@[simp] theorem State.updAeso_bell (s : State) (n : Nat) (f : AesOut → AesOut) : (s.updAeso n f).bell = s.bell := rfl
@[simp] theorem State.updAeso_free (s : State) (n : Nat) (f : AesOut → AesOut) : (s.updAeso n f).free = s.free := rfl
@[simp] theorem State.updAeso_pending (s : State) (n : Nat) (f : AesOut → AesOut) : (s.updAeso n f).pending = s.pending := rfl

/-! `State.updPdm` -/

@[simp] theorem State.updPdm_clk (s : State) (n : Nat) (f : Pdm → Pdm) : (s.updPdm n f).clk = s.clk := rfl
@[simp] theorem State.updPdm_boot (s : State) (n : Nat) (f : Pdm → Pdm) : (s.updPdm n f).boot = s.boot := rfl
@[simp] theorem State.updPdm_flash (s : State) (n : Nat) (f : Pdm → Pdm) : (s.updPdm n f).flash = s.flash := rfl
@[simp] theorem State.updPdm_regs (s : State) (n : Nat) (f : Pdm → Pdm) : (s.updPdm n f).regs = s.regs := rfl
@[simp] theorem State.updPdm_mbox (s : State) (n : Nat) (f : Pdm → Pdm) : (s.updPdm n f).mbox = s.mbox := rfl
@[simp] theorem State.updPdm_svc (s : State) (n : Nat) (f : Pdm → Pdm) : (s.updPdm n f).svc = s.svc := rfl
@[simp] theorem State.updPdm_nmbs (s : State) (n : Nat) (f : Pdm → Pdm) : (s.updPdm n f).nmbs = s.nmbs := rfl
@[simp] theorem State.updPdm_fw (s : State) (n : Nat) (f : Pdm → Pdm) : (s.updPdm n f).fw = s.fw := rfl
@[simp] theorem State.updPdm_armed (s : State) (n : Nat) (f : Pdm → Pdm) : (s.updPdm n f).armed = s.armed := rfl
@[simp] theorem State.updPdm_vals (s : State) (n : Nat) (f : Pdm → Pdm) : (s.updPdm n f).vals = s.vals := rfl
@[simp] theorem State.updPdm_rings (s : State) (n : Nat) (f : Pdm → Pdm) : (s.updPdm n f).rings = s.rings := rfl
@[simp] theorem State.updPdm_limits (s : State) (n : Nat) (f : Pdm → Pdm) : (s.updPdm n f).limits = s.limits := rfl
@[simp] theorem State.updPdm_fault (s : State) (n : Nat) (f : Pdm → Pdm) : (s.updPdm n f).fault = s.fault := rfl
@[simp] theorem State.updPdm_ladder (s : State) (n : Nat) (f : Pdm → Pdm) : (s.updPdm n f).ladder = s.ladder := rfl
@[simp] theorem State.updPdm_recs (s : State) (n : Nat) (f : Pdm → Pdm) : (s.updPdm n f).recs = s.recs := rfl
@[simp] theorem State.updPdm_plan (s : State) (n : Nat) (f : Pdm → Pdm) : (s.updPdm n f).plan = s.plan := rfl
@[simp] theorem State.updPdm_ledg (s : State) (n : Nat) (f : Pdm → Pdm) : (s.updPdm n f).ledg = s.ledg := rfl
@[simp] theorem State.updPdm_maint (s : State) (n : Nat) (f : Pdm → Pdm) : (s.updPdm n f).maint = s.maint := rfl
@[simp] theorem State.updPdm_render (s : State) (n : Nat) (f : Pdm → Pdm) : (s.updPdm n f).render = s.render := rfl
@[simp] theorem State.updPdm_snd (s : State) (n : Nat) (f : Pdm → Pdm) : (s.updPdm n f).snd = s.snd := rfl
@[simp] theorem State.updPdm_feeds (s : State) (n : Nat) (f : Pdm → Pdm) : (s.updPdm n f).feeds = s.feeds := rfl
@[simp] theorem State.updPdm_till (s : State) (n : Nat) (f : Pdm → Pdm) : (s.updPdm n f).till = s.till := rfl
@[simp] theorem State.updPdm_chans (s : State) (n : Nat) (f : Pdm → Pdm) : (s.updPdm n f).chans = s.chans := rfl
@[simp] theorem State.updPdm_buses (s : State) (n : Nat) (f : Pdm → Pdm) : (s.updPdm n f).buses = s.buses := rfl
@[simp] theorem State.updPdm_zones (s : State) (n : Nat) (f : Pdm → Pdm) : (s.updPdm n f).zones = s.zones := rfl
@[simp] theorem State.updPdm_sceneRun (s : State) (n : Nat) (f : Pdm → Pdm) : (s.updPdm n f).sceneRun = s.sceneRun := rfl
@[simp] theorem State.updPdm_spokes (s : State) (n : Nat) (f : Pdm → Pdm) : (s.updPdm n f).spokes = s.spokes := rfl
@[simp] theorem State.updPdm_insts (s : State) (n : Nat) (f : Pdm → Pdm) : (s.updPdm n f).insts = s.insts := rfl
@[simp] theorem State.updPdm_tandems (s : State) (n : Nat) (f : Pdm → Pdm) : (s.updPdm n f).tandems = s.tandems := rfl
@[simp] theorem State.updPdm_sais (s : State) (n : Nat) (f : Pdm → Pdm) : (s.updPdm n f).sais = s.sais := rfl
@[simp] theorem State.updPdm_aesis (s : State) (n : Nat) (f : Pdm → Pdm) : (s.updPdm n f).aesis = s.aesis := rfl
@[simp] theorem State.updPdm_aesos (s : State) (n : Nat) (f : Pdm → Pdm) : (s.updPdm n f).aesos = s.aesos := rfl
@[simp] theorem State.updPdm_pdms (s : State) (n : Nat) (f : Pdm → Pdm) :
    (s.updPdm n f).pdms = s.pdms.map fun x => if x.n == n then f x else x := rfl
@[simp] theorem State.updPdm_gears (s : State) (n : Nat) (f : Pdm → Pdm) : (s.updPdm n f).gears = s.gears := rfl
@[simp] theorem State.updPdm_gearTop (s : State) (n : Nat) (f : Pdm → Pdm) : (s.updPdm n f).gearTop = s.gearTop := rfl
@[simp] theorem State.updPdm_net (s : State) (n : Nat) (f : Pdm → Pdm) : (s.updPdm n f).net = s.net := rfl
@[simp] theorem State.updPdm_dram (s : State) (n : Nat) (f : Pdm → Pdm) : (s.updPdm n f).dram = s.dram := rfl
@[simp] theorem State.updPdm_pilots (s : State) (n : Nat) (f : Pdm → Pdm) : (s.updPdm n f).pilots = s.pilots := rfl
@[simp] theorem State.updPdm_adm (s : State) (n : Nat) (f : Pdm → Pdm) : (s.updPdm n f).adm = s.adm := rfl
@[simp] theorem State.updPdm_alarm (s : State) (n : Nat) (f : Pdm → Pdm) : (s.updPdm n f).alarm = s.alarm := rfl
@[simp] theorem State.updPdm_bell (s : State) (n : Nat) (f : Pdm → Pdm) : (s.updPdm n f).bell = s.bell := rfl
@[simp] theorem State.updPdm_free (s : State) (n : Nat) (f : Pdm → Pdm) : (s.updPdm n f).free = s.free := rfl
@[simp] theorem State.updPdm_pending (s : State) (n : Nat) (f : Pdm → Pdm) : (s.updPdm n f).pending = s.pending := rfl

/-! `State.updGear` -/

@[simp] theorem State.updGear_clk (s : State) (g : GearId) (f : Gear → Gear) : (s.updGear g f).clk = s.clk := rfl
@[simp] theorem State.updGear_boot (s : State) (g : GearId) (f : Gear → Gear) : (s.updGear g f).boot = s.boot := rfl
@[simp] theorem State.updGear_flash (s : State) (g : GearId) (f : Gear → Gear) : (s.updGear g f).flash = s.flash := rfl
@[simp] theorem State.updGear_regs (s : State) (g : GearId) (f : Gear → Gear) : (s.updGear g f).regs = s.regs := rfl
@[simp] theorem State.updGear_mbox (s : State) (g : GearId) (f : Gear → Gear) : (s.updGear g f).mbox = s.mbox := rfl
@[simp] theorem State.updGear_svc (s : State) (g : GearId) (f : Gear → Gear) : (s.updGear g f).svc = s.svc := rfl
@[simp] theorem State.updGear_nmbs (s : State) (g : GearId) (f : Gear → Gear) : (s.updGear g f).nmbs = s.nmbs := rfl
@[simp] theorem State.updGear_fw (s : State) (g : GearId) (f : Gear → Gear) : (s.updGear g f).fw = s.fw := rfl
@[simp] theorem State.updGear_armed (s : State) (g : GearId) (f : Gear → Gear) : (s.updGear g f).armed = s.armed := rfl
@[simp] theorem State.updGear_vals (s : State) (g : GearId) (f : Gear → Gear) : (s.updGear g f).vals = s.vals := rfl
@[simp] theorem State.updGear_rings (s : State) (g : GearId) (f : Gear → Gear) : (s.updGear g f).rings = s.rings := rfl
@[simp] theorem State.updGear_limits (s : State) (g : GearId) (f : Gear → Gear) : (s.updGear g f).limits = s.limits := rfl
@[simp] theorem State.updGear_fault (s : State) (g : GearId) (f : Gear → Gear) : (s.updGear g f).fault = s.fault := rfl
@[simp] theorem State.updGear_ladder (s : State) (g : GearId) (f : Gear → Gear) : (s.updGear g f).ladder = s.ladder := rfl
@[simp] theorem State.updGear_recs (s : State) (g : GearId) (f : Gear → Gear) : (s.updGear g f).recs = s.recs := rfl
@[simp] theorem State.updGear_plan (s : State) (g : GearId) (f : Gear → Gear) : (s.updGear g f).plan = s.plan := rfl
@[simp] theorem State.updGear_ledg (s : State) (g : GearId) (f : Gear → Gear) : (s.updGear g f).ledg = s.ledg := rfl
@[simp] theorem State.updGear_maint (s : State) (g : GearId) (f : Gear → Gear) : (s.updGear g f).maint = s.maint := rfl
@[simp] theorem State.updGear_render (s : State) (g : GearId) (f : Gear → Gear) : (s.updGear g f).render = s.render := rfl
@[simp] theorem State.updGear_snd (s : State) (g : GearId) (f : Gear → Gear) : (s.updGear g f).snd = s.snd := rfl
@[simp] theorem State.updGear_feeds (s : State) (g : GearId) (f : Gear → Gear) : (s.updGear g f).feeds = s.feeds := rfl
@[simp] theorem State.updGear_till (s : State) (g : GearId) (f : Gear → Gear) : (s.updGear g f).till = s.till := rfl
@[simp] theorem State.updGear_chans (s : State) (g : GearId) (f : Gear → Gear) : (s.updGear g f).chans = s.chans := rfl
@[simp] theorem State.updGear_buses (s : State) (g : GearId) (f : Gear → Gear) : (s.updGear g f).buses = s.buses := rfl
@[simp] theorem State.updGear_zones (s : State) (g : GearId) (f : Gear → Gear) : (s.updGear g f).zones = s.zones := rfl
@[simp] theorem State.updGear_sceneRun (s : State) (g : GearId) (f : Gear → Gear) : (s.updGear g f).sceneRun = s.sceneRun := rfl
@[simp] theorem State.updGear_spokes (s : State) (g : GearId) (f : Gear → Gear) : (s.updGear g f).spokes = s.spokes := rfl
@[simp] theorem State.updGear_insts (s : State) (g : GearId) (f : Gear → Gear) : (s.updGear g f).insts = s.insts := rfl
@[simp] theorem State.updGear_tandems (s : State) (g : GearId) (f : Gear → Gear) : (s.updGear g f).tandems = s.tandems := rfl
@[simp] theorem State.updGear_sais (s : State) (g : GearId) (f : Gear → Gear) : (s.updGear g f).sais = s.sais := rfl
@[simp] theorem State.updGear_aesis (s : State) (g : GearId) (f : Gear → Gear) : (s.updGear g f).aesis = s.aesis := rfl
@[simp] theorem State.updGear_aesos (s : State) (g : GearId) (f : Gear → Gear) : (s.updGear g f).aesos = s.aesos := rfl
@[simp] theorem State.updGear_pdms (s : State) (g : GearId) (f : Gear → Gear) : (s.updGear g f).pdms = s.pdms := rfl
@[simp] theorem State.updGear_gears (s : State) (g : GearId) (f : Gear → Gear) :
    (s.updGear g f).gears = s.gears.map fun x => if x.id == g then f x else x := rfl
@[simp] theorem State.updGear_gearTop (s : State) (g : GearId) (f : Gear → Gear) : (s.updGear g f).gearTop = s.gearTop := rfl
@[simp] theorem State.updGear_net (s : State) (g : GearId) (f : Gear → Gear) : (s.updGear g f).net = s.net := rfl
@[simp] theorem State.updGear_dram (s : State) (g : GearId) (f : Gear → Gear) : (s.updGear g f).dram = s.dram := rfl
@[simp] theorem State.updGear_pilots (s : State) (g : GearId) (f : Gear → Gear) : (s.updGear g f).pilots = s.pilots := rfl
@[simp] theorem State.updGear_adm (s : State) (g : GearId) (f : Gear → Gear) : (s.updGear g f).adm = s.adm := rfl
@[simp] theorem State.updGear_alarm (s : State) (g : GearId) (f : Gear → Gear) : (s.updGear g f).alarm = s.alarm := rfl
@[simp] theorem State.updGear_bell (s : State) (g : GearId) (f : Gear → Gear) : (s.updGear g f).bell = s.bell := rfl
@[simp] theorem State.updGear_free (s : State) (g : GearId) (f : Gear → Gear) : (s.updGear g f).free = s.free := rfl
@[simp] theorem State.updGear_pending (s : State) (g : GearId) (f : Gear → Gear) : (s.updGear g f).pending = s.pending := rfl

/-! `State.updPort` -/

@[simp] theorem State.updPort_clk (s : State) (p : PortId) (f : PortSt → PortSt) : (s.updPort p f).clk = s.clk := by cases p <;> rfl
@[simp] theorem State.updPort_boot (s : State) (p : PortId) (f : PortSt → PortSt) : (s.updPort p f).boot = s.boot := by cases p <;> rfl
@[simp] theorem State.updPort_flash (s : State) (p : PortId) (f : PortSt → PortSt) : (s.updPort p f).flash = s.flash := by cases p <;> rfl
@[simp] theorem State.updPort_regs (s : State) (p : PortId) (f : PortSt → PortSt) : (s.updPort p f).regs = s.regs := by cases p <;> rfl
@[simp] theorem State.updPort_mbox (s : State) (p : PortId) (f : PortSt → PortSt) : (s.updPort p f).mbox = s.mbox := by cases p <;> rfl
@[simp] theorem State.updPort_svc (s : State) (p : PortId) (f : PortSt → PortSt) : (s.updPort p f).svc = s.svc := by cases p <;> rfl
@[simp] theorem State.updPort_nmbs (s : State) (p : PortId) (f : PortSt → PortSt) : (s.updPort p f).nmbs = s.nmbs := by cases p <;> rfl
@[simp] theorem State.updPort_fw (s : State) (p : PortId) (f : PortSt → PortSt) : (s.updPort p f).fw = s.fw := by cases p <;> rfl
@[simp] theorem State.updPort_armed (s : State) (p : PortId) (f : PortSt → PortSt) : (s.updPort p f).armed = s.armed := by cases p <;> rfl
@[simp] theorem State.updPort_vals (s : State) (p : PortId) (f : PortSt → PortSt) : (s.updPort p f).vals = s.vals := by cases p <;> rfl
@[simp] theorem State.updPort_rings (s : State) (p : PortId) (f : PortSt → PortSt) : (s.updPort p f).rings = s.rings := by cases p <;> rfl
@[simp] theorem State.updPort_limits (s : State) (p : PortId) (f : PortSt → PortSt) : (s.updPort p f).limits = s.limits := by cases p <;> rfl
@[simp] theorem State.updPort_fault (s : State) (p : PortId) (f : PortSt → PortSt) : (s.updPort p f).fault = s.fault := by cases p <;> rfl
@[simp] theorem State.updPort_ladder (s : State) (p : PortId) (f : PortSt → PortSt) : (s.updPort p f).ladder = s.ladder := by cases p <;> rfl
@[simp] theorem State.updPort_recs (s : State) (p : PortId) (f : PortSt → PortSt) : (s.updPort p f).recs = s.recs := by cases p <;> rfl
@[simp] theorem State.updPort_plan (s : State) (p : PortId) (f : PortSt → PortSt) : (s.updPort p f).plan = s.plan := by cases p <;> rfl
@[simp] theorem State.updPort_ledg (s : State) (p : PortId) (f : PortSt → PortSt) : (s.updPort p f).ledg = s.ledg := by cases p <;> rfl
@[simp] theorem State.updPort_maint (s : State) (p : PortId) (f : PortSt → PortSt) : (s.updPort p f).maint = s.maint := by cases p <;> rfl
@[simp] theorem State.updPort_render (s : State) (p : PortId) (f : PortSt → PortSt) : (s.updPort p f).render = s.render := by cases p <;> rfl
@[simp] theorem State.updPort_snd (s : State) (p : PortId) (f : PortSt → PortSt) : (s.updPort p f).snd = s.snd := by cases p <;> rfl
@[simp] theorem State.updPort_feeds (s : State) (p : PortId) (f : PortSt → PortSt) : (s.updPort p f).feeds = s.feeds := by cases p <;> rfl
@[simp] theorem State.updPort_till (s : State) (p : PortId) (f : PortSt → PortSt) : (s.updPort p f).till = s.till := by cases p <;> rfl
@[simp] theorem State.updPort_chans (s : State) (p : PortId) (f : PortSt → PortSt) : (s.updPort p f).chans = s.chans := by cases p <;> rfl
@[simp] theorem State.updPort_buses (s : State) (p : PortId) (f : PortSt → PortSt) : (s.updPort p f).buses = s.buses := by cases p <;> rfl
@[simp] theorem State.updPort_zones (s : State) (p : PortId) (f : PortSt → PortSt) : (s.updPort p f).zones = s.zones := by cases p <;> rfl
@[simp] theorem State.updPort_sceneRun (s : State) (p : PortId) (f : PortSt → PortSt) : (s.updPort p f).sceneRun = s.sceneRun := by cases p <;> rfl
@[simp] theorem State.updPort_spokes (s : State) (p : PortId) (f : PortSt → PortSt) : (s.updPort p f).spokes = s.spokes := by cases p <;> rfl
@[simp] theorem State.updPort_insts (s : State) (p : PortId) (f : PortSt → PortSt) : (s.updPort p f).insts = s.insts := by cases p <;> rfl
@[simp] theorem State.updPort_tandems (s : State) (p : PortId) (f : PortSt → PortSt) : (s.updPort p f).tandems = s.tandems := by cases p <;> rfl
@[simp] theorem State.updPort_gears (s : State) (p : PortId) (f : PortSt → PortSt) : (s.updPort p f).gears = s.gears := by cases p <;> rfl
@[simp] theorem State.updPort_gearTop (s : State) (p : PortId) (f : PortSt → PortSt) : (s.updPort p f).gearTop = s.gearTop := by cases p <;> rfl
@[simp] theorem State.updPort_net (s : State) (p : PortId) (f : PortSt → PortSt) : (s.updPort p f).net = s.net := by cases p <;> rfl
@[simp] theorem State.updPort_dram (s : State) (p : PortId) (f : PortSt → PortSt) : (s.updPort p f).dram = s.dram := by cases p <;> rfl
@[simp] theorem State.updPort_pilots (s : State) (p : PortId) (f : PortSt → PortSt) : (s.updPort p f).pilots = s.pilots := by cases p <;> rfl
@[simp] theorem State.updPort_adm (s : State) (p : PortId) (f : PortSt → PortSt) : (s.updPort p f).adm = s.adm := by cases p <;> rfl
@[simp] theorem State.updPort_alarm (s : State) (p : PortId) (f : PortSt → PortSt) : (s.updPort p f).alarm = s.alarm := by cases p <;> rfl
@[simp] theorem State.updPort_bell (s : State) (p : PortId) (f : PortSt → PortSt) : (s.updPort p f).bell = s.bell := by cases p <;> rfl
@[simp] theorem State.updPort_free (s : State) (p : PortId) (f : PortSt → PortSt) : (s.updPort p f).free = s.free := by cases p <;> rfl
@[simp] theorem State.updPort_pending (s : State) (p : PortId) (f : PortSt → PortSt) : (s.updPort p f).pending = s.pending := by cases p <;> rfl

/-! `State.updObj` -/

@[simp] theorem State.updObj_clk (s : State) (n : Nat) (g : Obj → Obj) : (s.updObj n g).clk = s.clk := rfl
@[simp] theorem State.updObj_boot (s : State) (n : Nat) (g : Obj → Obj) : (s.updObj n g).boot = s.boot := rfl
@[simp] theorem State.updObj_flash (s : State) (n : Nat) (g : Obj → Obj) : (s.updObj n g).flash = s.flash := rfl
@[simp] theorem State.updObj_regs (s : State) (n : Nat) (g : Obj → Obj) : (s.updObj n g).regs = s.regs := rfl
@[simp] theorem State.updObj_mbox (s : State) (n : Nat) (g : Obj → Obj) : (s.updObj n g).mbox = s.mbox := rfl
@[simp] theorem State.updObj_svc (s : State) (n : Nat) (g : Obj → Obj) : (s.updObj n g).svc = s.svc := rfl
@[simp] theorem State.updObj_nmbs (s : State) (n : Nat) (g : Obj → Obj) : (s.updObj n g).nmbs = s.nmbs := rfl
@[simp] theorem State.updObj_fw (s : State) (n : Nat) (g : Obj → Obj) : (s.updObj n g).fw = s.fw := rfl
@[simp] theorem State.updObj_armed (s : State) (n : Nat) (g : Obj → Obj) : (s.updObj n g).armed = s.armed := rfl
@[simp] theorem State.updObj_vals (s : State) (n : Nat) (g : Obj → Obj) : (s.updObj n g).vals = s.vals := rfl
@[simp] theorem State.updObj_rings (s : State) (n : Nat) (g : Obj → Obj) : (s.updObj n g).rings = s.rings := rfl
@[simp] theorem State.updObj_limits (s : State) (n : Nat) (g : Obj → Obj) : (s.updObj n g).limits = s.limits := rfl
@[simp] theorem State.updObj_fault (s : State) (n : Nat) (g : Obj → Obj) : (s.updObj n g).fault = s.fault := rfl
@[simp] theorem State.updObj_ladder (s : State) (n : Nat) (g : Obj → Obj) : (s.updObj n g).ladder = s.ladder := rfl
@[simp] theorem State.updObj_recs (s : State) (n : Nat) (g : Obj → Obj) : (s.updObj n g).recs = s.recs := rfl
@[simp] theorem State.updObj_plan (s : State) (n : Nat) (g : Obj → Obj) : (s.updObj n g).plan = s.plan := rfl
@[simp] theorem State.updObj_ledg (s : State) (n : Nat) (g : Obj → Obj) : (s.updObj n g).ledg = s.ledg := rfl
@[simp] theorem State.updObj_maint (s : State) (n : Nat) (g : Obj → Obj) : (s.updObj n g).maint = s.maint := rfl
@[simp] theorem State.updObj_render (s : State) (n : Nat) (g : Obj → Obj) :
    (s.updObj n g).render = { s.render with objs := s.render.objs.map fun x => if x.n == n then g x else x } := rfl
@[simp] theorem State.updObj_snd (s : State) (n : Nat) (g : Obj → Obj) : (s.updObj n g).snd = s.snd := rfl
@[simp] theorem State.updObj_feeds (s : State) (n : Nat) (g : Obj → Obj) : (s.updObj n g).feeds = s.feeds := rfl
@[simp] theorem State.updObj_till (s : State) (n : Nat) (g : Obj → Obj) : (s.updObj n g).till = s.till := rfl
@[simp] theorem State.updObj_chans (s : State) (n : Nat) (g : Obj → Obj) : (s.updObj n g).chans = s.chans := rfl
@[simp] theorem State.updObj_buses (s : State) (n : Nat) (g : Obj → Obj) : (s.updObj n g).buses = s.buses := rfl
@[simp] theorem State.updObj_zones (s : State) (n : Nat) (g : Obj → Obj) : (s.updObj n g).zones = s.zones := rfl
@[simp] theorem State.updObj_sceneRun (s : State) (n : Nat) (g : Obj → Obj) : (s.updObj n g).sceneRun = s.sceneRun := rfl
@[simp] theorem State.updObj_spokes (s : State) (n : Nat) (g : Obj → Obj) : (s.updObj n g).spokes = s.spokes := rfl
@[simp] theorem State.updObj_insts (s : State) (n : Nat) (g : Obj → Obj) : (s.updObj n g).insts = s.insts := rfl
@[simp] theorem State.updObj_tandems (s : State) (n : Nat) (g : Obj → Obj) : (s.updObj n g).tandems = s.tandems := rfl
@[simp] theorem State.updObj_sais (s : State) (n : Nat) (g : Obj → Obj) : (s.updObj n g).sais = s.sais := rfl
@[simp] theorem State.updObj_aesis (s : State) (n : Nat) (g : Obj → Obj) : (s.updObj n g).aesis = s.aesis := rfl
@[simp] theorem State.updObj_aesos (s : State) (n : Nat) (g : Obj → Obj) : (s.updObj n g).aesos = s.aesos := rfl
@[simp] theorem State.updObj_pdms (s : State) (n : Nat) (g : Obj → Obj) : (s.updObj n g).pdms = s.pdms := rfl
@[simp] theorem State.updObj_gears (s : State) (n : Nat) (g : Obj → Obj) : (s.updObj n g).gears = s.gears := rfl
@[simp] theorem State.updObj_gearTop (s : State) (n : Nat) (g : Obj → Obj) : (s.updObj n g).gearTop = s.gearTop := rfl
@[simp] theorem State.updObj_net (s : State) (n : Nat) (g : Obj → Obj) : (s.updObj n g).net = s.net := rfl
@[simp] theorem State.updObj_dram (s : State) (n : Nat) (g : Obj → Obj) : (s.updObj n g).dram = s.dram := rfl
@[simp] theorem State.updObj_pilots (s : State) (n : Nat) (g : Obj → Obj) : (s.updObj n g).pilots = s.pilots := rfl
@[simp] theorem State.updObj_adm (s : State) (n : Nat) (g : Obj → Obj) : (s.updObj n g).adm = s.adm := rfl
@[simp] theorem State.updObj_alarm (s : State) (n : Nat) (g : Obj → Obj) : (s.updObj n g).alarm = s.alarm := rfl
@[simp] theorem State.updObj_bell (s : State) (n : Nat) (g : Obj → Obj) : (s.updObj n g).bell = s.bell := rfl
@[simp] theorem State.updObj_free (s : State) (n : Nat) (g : Obj → Obj) : (s.updObj n g).free = s.free := rfl
@[simp] theorem State.updObj_pending (s : State) (n : Nat) (g : Obj → Obj) : (s.updObj n g).pending = s.pending := rfl

/-! `State.updHd` -/

@[simp] theorem State.updHd_clk (s : State) (q : Nat) (f : HdQueue → HdQueue) : (s.updHd q f).clk = s.clk := rfl
@[simp] theorem State.updHd_boot (s : State) (q : Nat) (f : HdQueue → HdQueue) : (s.updHd q f).boot = s.boot := rfl
@[simp] theorem State.updHd_flash (s : State) (q : Nat) (f : HdQueue → HdQueue) : (s.updHd q f).flash = s.flash := rfl
@[simp] theorem State.updHd_regs (s : State) (q : Nat) (f : HdQueue → HdQueue) :
    (s.updHd q f).regs = (fun r : HostRegs => { r with hd := r.hd.modify q f }) s.regs := rfl
@[simp] theorem State.updHd_mbox (s : State) (q : Nat) (f : HdQueue → HdQueue) : (s.updHd q f).mbox = s.mbox := rfl
@[simp] theorem State.updHd_svc (s : State) (q : Nat) (f : HdQueue → HdQueue) : (s.updHd q f).svc = s.svc := rfl
@[simp] theorem State.updHd_nmbs (s : State) (q : Nat) (f : HdQueue → HdQueue) : (s.updHd q f).nmbs = s.nmbs := rfl
@[simp] theorem State.updHd_fw (s : State) (q : Nat) (f : HdQueue → HdQueue) : (s.updHd q f).fw = s.fw := rfl
@[simp] theorem State.updHd_armed (s : State) (q : Nat) (f : HdQueue → HdQueue) : (s.updHd q f).armed = s.armed := rfl
@[simp] theorem State.updHd_vals (s : State) (q : Nat) (f : HdQueue → HdQueue) : (s.updHd q f).vals = s.vals := rfl
@[simp] theorem State.updHd_rings (s : State) (q : Nat) (f : HdQueue → HdQueue) : (s.updHd q f).rings = s.rings := rfl
@[simp] theorem State.updHd_limits (s : State) (q : Nat) (f : HdQueue → HdQueue) : (s.updHd q f).limits = s.limits := rfl
@[simp] theorem State.updHd_fault (s : State) (q : Nat) (f : HdQueue → HdQueue) : (s.updHd q f).fault = s.fault := rfl
@[simp] theorem State.updHd_ladder (s : State) (q : Nat) (f : HdQueue → HdQueue) : (s.updHd q f).ladder = s.ladder := rfl
@[simp] theorem State.updHd_recs (s : State) (q : Nat) (f : HdQueue → HdQueue) : (s.updHd q f).recs = s.recs := rfl
@[simp] theorem State.updHd_plan (s : State) (q : Nat) (f : HdQueue → HdQueue) : (s.updHd q f).plan = s.plan := rfl
@[simp] theorem State.updHd_ledg (s : State) (q : Nat) (f : HdQueue → HdQueue) : (s.updHd q f).ledg = s.ledg := rfl
@[simp] theorem State.updHd_maint (s : State) (q : Nat) (f : HdQueue → HdQueue) : (s.updHd q f).maint = s.maint := rfl
@[simp] theorem State.updHd_render (s : State) (q : Nat) (f : HdQueue → HdQueue) : (s.updHd q f).render = s.render := rfl
@[simp] theorem State.updHd_snd (s : State) (q : Nat) (f : HdQueue → HdQueue) : (s.updHd q f).snd = s.snd := rfl
@[simp] theorem State.updHd_feeds (s : State) (q : Nat) (f : HdQueue → HdQueue) : (s.updHd q f).feeds = s.feeds := rfl
@[simp] theorem State.updHd_till (s : State) (q : Nat) (f : HdQueue → HdQueue) : (s.updHd q f).till = s.till := rfl
@[simp] theorem State.updHd_chans (s : State) (q : Nat) (f : HdQueue → HdQueue) : (s.updHd q f).chans = s.chans := rfl
@[simp] theorem State.updHd_buses (s : State) (q : Nat) (f : HdQueue → HdQueue) : (s.updHd q f).buses = s.buses := rfl
@[simp] theorem State.updHd_zones (s : State) (q : Nat) (f : HdQueue → HdQueue) : (s.updHd q f).zones = s.zones := rfl
@[simp] theorem State.updHd_sceneRun (s : State) (q : Nat) (f : HdQueue → HdQueue) : (s.updHd q f).sceneRun = s.sceneRun := rfl
@[simp] theorem State.updHd_spokes (s : State) (q : Nat) (f : HdQueue → HdQueue) : (s.updHd q f).spokes = s.spokes := rfl
@[simp] theorem State.updHd_insts (s : State) (q : Nat) (f : HdQueue → HdQueue) : (s.updHd q f).insts = s.insts := rfl
@[simp] theorem State.updHd_tandems (s : State) (q : Nat) (f : HdQueue → HdQueue) : (s.updHd q f).tandems = s.tandems := rfl
@[simp] theorem State.updHd_sais (s : State) (q : Nat) (f : HdQueue → HdQueue) : (s.updHd q f).sais = s.sais := rfl
@[simp] theorem State.updHd_aesis (s : State) (q : Nat) (f : HdQueue → HdQueue) : (s.updHd q f).aesis = s.aesis := rfl
@[simp] theorem State.updHd_aesos (s : State) (q : Nat) (f : HdQueue → HdQueue) : (s.updHd q f).aesos = s.aesos := rfl
@[simp] theorem State.updHd_pdms (s : State) (q : Nat) (f : HdQueue → HdQueue) : (s.updHd q f).pdms = s.pdms := rfl
@[simp] theorem State.updHd_gears (s : State) (q : Nat) (f : HdQueue → HdQueue) : (s.updHd q f).gears = s.gears := rfl
@[simp] theorem State.updHd_gearTop (s : State) (q : Nat) (f : HdQueue → HdQueue) : (s.updHd q f).gearTop = s.gearTop := rfl
@[simp] theorem State.updHd_net (s : State) (q : Nat) (f : HdQueue → HdQueue) : (s.updHd q f).net = s.net := rfl
@[simp] theorem State.updHd_dram (s : State) (q : Nat) (f : HdQueue → HdQueue) : (s.updHd q f).dram = s.dram := rfl
@[simp] theorem State.updHd_pilots (s : State) (q : Nat) (f : HdQueue → HdQueue) : (s.updHd q f).pilots = s.pilots := rfl
@[simp] theorem State.updHd_adm (s : State) (q : Nat) (f : HdQueue → HdQueue) : (s.updHd q f).adm = s.adm := rfl
@[simp] theorem State.updHd_alarm (s : State) (q : Nat) (f : HdQueue → HdQueue) : (s.updHd q f).alarm = s.alarm := rfl
@[simp] theorem State.updHd_bell (s : State) (q : Nat) (f : HdQueue → HdQueue) : (s.updHd q f).bell = s.bell := rfl
@[simp] theorem State.updHd_free (s : State) (q : Nat) (f : HdQueue → HdQueue) : (s.updHd q f).free = s.free := rfl
@[simp] theorem State.updHd_pending (s : State) (q : Nat) (f : HdQueue → HdQueue) : (s.updHd q f).pending = s.pending := rfl

/-! `State.updSpoke` -/

@[simp] theorem State.updSpoke_clk (s : State) (sp : Nat) (f : SpokeSt → SpokeSt) : (s.updSpoke sp f).clk = s.clk := rfl
@[simp] theorem State.updSpoke_boot (s : State) (sp : Nat) (f : SpokeSt → SpokeSt) : (s.updSpoke sp f).boot = s.boot := rfl
@[simp] theorem State.updSpoke_flash (s : State) (sp : Nat) (f : SpokeSt → SpokeSt) : (s.updSpoke sp f).flash = s.flash := rfl
@[simp] theorem State.updSpoke_regs (s : State) (sp : Nat) (f : SpokeSt → SpokeSt) : (s.updSpoke sp f).regs = s.regs := rfl
@[simp] theorem State.updSpoke_mbox (s : State) (sp : Nat) (f : SpokeSt → SpokeSt) : (s.updSpoke sp f).mbox = s.mbox := rfl
@[simp] theorem State.updSpoke_svc (s : State) (sp : Nat) (f : SpokeSt → SpokeSt) : (s.updSpoke sp f).svc = s.svc := rfl
@[simp] theorem State.updSpoke_nmbs (s : State) (sp : Nat) (f : SpokeSt → SpokeSt) : (s.updSpoke sp f).nmbs = s.nmbs := rfl
@[simp] theorem State.updSpoke_fw (s : State) (sp : Nat) (f : SpokeSt → SpokeSt) : (s.updSpoke sp f).fw = s.fw := rfl
@[simp] theorem State.updSpoke_armed (s : State) (sp : Nat) (f : SpokeSt → SpokeSt) : (s.updSpoke sp f).armed = s.armed := rfl
@[simp] theorem State.updSpoke_vals (s : State) (sp : Nat) (f : SpokeSt → SpokeSt) : (s.updSpoke sp f).vals = s.vals := rfl
@[simp] theorem State.updSpoke_rings (s : State) (sp : Nat) (f : SpokeSt → SpokeSt) : (s.updSpoke sp f).rings = s.rings := rfl
@[simp] theorem State.updSpoke_limits (s : State) (sp : Nat) (f : SpokeSt → SpokeSt) : (s.updSpoke sp f).limits = s.limits := rfl
@[simp] theorem State.updSpoke_fault (s : State) (sp : Nat) (f : SpokeSt → SpokeSt) : (s.updSpoke sp f).fault = s.fault := rfl
@[simp] theorem State.updSpoke_ladder (s : State) (sp : Nat) (f : SpokeSt → SpokeSt) : (s.updSpoke sp f).ladder = s.ladder := rfl
@[simp] theorem State.updSpoke_recs (s : State) (sp : Nat) (f : SpokeSt → SpokeSt) : (s.updSpoke sp f).recs = s.recs := rfl
@[simp] theorem State.updSpoke_plan (s : State) (sp : Nat) (f : SpokeSt → SpokeSt) : (s.updSpoke sp f).plan = s.plan := rfl
@[simp] theorem State.updSpoke_ledg (s : State) (sp : Nat) (f : SpokeSt → SpokeSt) : (s.updSpoke sp f).ledg = s.ledg := rfl
@[simp] theorem State.updSpoke_maint (s : State) (sp : Nat) (f : SpokeSt → SpokeSt) : (s.updSpoke sp f).maint = s.maint := rfl
@[simp] theorem State.updSpoke_render (s : State) (sp : Nat) (f : SpokeSt → SpokeSt) : (s.updSpoke sp f).render = s.render := rfl
@[simp] theorem State.updSpoke_snd (s : State) (sp : Nat) (f : SpokeSt → SpokeSt) : (s.updSpoke sp f).snd = s.snd := rfl
@[simp] theorem State.updSpoke_feeds (s : State) (sp : Nat) (f : SpokeSt → SpokeSt) : (s.updSpoke sp f).feeds = s.feeds := rfl
@[simp] theorem State.updSpoke_till (s : State) (sp : Nat) (f : SpokeSt → SpokeSt) : (s.updSpoke sp f).till = s.till := rfl
@[simp] theorem State.updSpoke_chans (s : State) (sp : Nat) (f : SpokeSt → SpokeSt) : (s.updSpoke sp f).chans = s.chans := rfl
@[simp] theorem State.updSpoke_buses (s : State) (sp : Nat) (f : SpokeSt → SpokeSt) : (s.updSpoke sp f).buses = s.buses := rfl
@[simp] theorem State.updSpoke_zones (s : State) (sp : Nat) (f : SpokeSt → SpokeSt) : (s.updSpoke sp f).zones = s.zones := rfl
@[simp] theorem State.updSpoke_sceneRun (s : State) (sp : Nat) (f : SpokeSt → SpokeSt) : (s.updSpoke sp f).sceneRun = s.sceneRun := rfl
@[simp] theorem State.updSpoke_spokes (s : State) (sp : Nat) (f : SpokeSt → SpokeSt) :
    (s.updSpoke sp f).spokes = s.spokes.modify sp f := rfl
@[simp] theorem State.updSpoke_insts (s : State) (sp : Nat) (f : SpokeSt → SpokeSt) : (s.updSpoke sp f).insts = s.insts := rfl
@[simp] theorem State.updSpoke_tandems (s : State) (sp : Nat) (f : SpokeSt → SpokeSt) : (s.updSpoke sp f).tandems = s.tandems := rfl
@[simp] theorem State.updSpoke_sais (s : State) (sp : Nat) (f : SpokeSt → SpokeSt) : (s.updSpoke sp f).sais = s.sais := rfl
@[simp] theorem State.updSpoke_aesis (s : State) (sp : Nat) (f : SpokeSt → SpokeSt) : (s.updSpoke sp f).aesis = s.aesis := rfl
@[simp] theorem State.updSpoke_aesos (s : State) (sp : Nat) (f : SpokeSt → SpokeSt) : (s.updSpoke sp f).aesos = s.aesos := rfl
@[simp] theorem State.updSpoke_pdms (s : State) (sp : Nat) (f : SpokeSt → SpokeSt) : (s.updSpoke sp f).pdms = s.pdms := rfl
@[simp] theorem State.updSpoke_gears (s : State) (sp : Nat) (f : SpokeSt → SpokeSt) : (s.updSpoke sp f).gears = s.gears := rfl
@[simp] theorem State.updSpoke_gearTop (s : State) (sp : Nat) (f : SpokeSt → SpokeSt) : (s.updSpoke sp f).gearTop = s.gearTop := rfl
@[simp] theorem State.updSpoke_net (s : State) (sp : Nat) (f : SpokeSt → SpokeSt) : (s.updSpoke sp f).net = s.net := rfl
@[simp] theorem State.updSpoke_dram (s : State) (sp : Nat) (f : SpokeSt → SpokeSt) : (s.updSpoke sp f).dram = s.dram := rfl
@[simp] theorem State.updSpoke_pilots (s : State) (sp : Nat) (f : SpokeSt → SpokeSt) : (s.updSpoke sp f).pilots = s.pilots := rfl
@[simp] theorem State.updSpoke_adm (s : State) (sp : Nat) (f : SpokeSt → SpokeSt) : (s.updSpoke sp f).adm = s.adm := rfl
@[simp] theorem State.updSpoke_alarm (s : State) (sp : Nat) (f : SpokeSt → SpokeSt) : (s.updSpoke sp f).alarm = s.alarm := rfl
@[simp] theorem State.updSpoke_bell (s : State) (sp : Nat) (f : SpokeSt → SpokeSt) : (s.updSpoke sp f).bell = s.bell := rfl
@[simp] theorem State.updSpoke_free (s : State) (sp : Nat) (f : SpokeSt → SpokeSt) : (s.updSpoke sp f).free = s.free := rfl
@[simp] theorem State.updSpoke_pending (s : State) (sp : Nat) (f : SpokeSt → SpokeSt) : (s.updSpoke sp f).pending = s.pending := rfl

/-! `State.setCore` -/

@[simp] theorem State.setCore_clk (s : State) (sp : Nat) (c : Core) : (s.setCore sp c).clk = s.clk := rfl
@[simp] theorem State.setCore_boot (s : State) (sp : Nat) (c : Core) : (s.setCore sp c).boot = s.boot := rfl
@[simp] theorem State.setCore_flash (s : State) (sp : Nat) (c : Core) : (s.setCore sp c).flash = s.flash := rfl
@[simp] theorem State.setCore_regs (s : State) (sp : Nat) (c : Core) : (s.setCore sp c).regs = s.regs := rfl
@[simp] theorem State.setCore_mbox (s : State) (sp : Nat) (c : Core) : (s.setCore sp c).mbox = s.mbox := rfl
@[simp] theorem State.setCore_svc (s : State) (sp : Nat) (c : Core) : (s.setCore sp c).svc = s.svc := rfl
@[simp] theorem State.setCore_nmbs (s : State) (sp : Nat) (c : Core) : (s.setCore sp c).nmbs = s.nmbs := rfl
@[simp] theorem State.setCore_fw (s : State) (sp : Nat) (c : Core) : (s.setCore sp c).fw = s.fw := rfl
@[simp] theorem State.setCore_armed (s : State) (sp : Nat) (c : Core) : (s.setCore sp c).armed = s.armed := rfl
@[simp] theorem State.setCore_vals (s : State) (sp : Nat) (c : Core) : (s.setCore sp c).vals = s.vals := rfl
@[simp] theorem State.setCore_rings (s : State) (sp : Nat) (c : Core) : (s.setCore sp c).rings = s.rings := rfl
@[simp] theorem State.setCore_limits (s : State) (sp : Nat) (c : Core) : (s.setCore sp c).limits = s.limits := rfl
@[simp] theorem State.setCore_fault (s : State) (sp : Nat) (c : Core) : (s.setCore sp c).fault = s.fault := rfl
@[simp] theorem State.setCore_ladder (s : State) (sp : Nat) (c : Core) : (s.setCore sp c).ladder = s.ladder := rfl
@[simp] theorem State.setCore_recs (s : State) (sp : Nat) (c : Core) : (s.setCore sp c).recs = s.recs := rfl
@[simp] theorem State.setCore_plan (s : State) (sp : Nat) (c : Core) : (s.setCore sp c).plan = s.plan := rfl
@[simp] theorem State.setCore_ledg (s : State) (sp : Nat) (c : Core) : (s.setCore sp c).ledg = s.ledg := rfl
@[simp] theorem State.setCore_maint (s : State) (sp : Nat) (c : Core) : (s.setCore sp c).maint = s.maint := rfl
@[simp] theorem State.setCore_render (s : State) (sp : Nat) (c : Core) : (s.setCore sp c).render = s.render := rfl
@[simp] theorem State.setCore_snd (s : State) (sp : Nat) (c : Core) : (s.setCore sp c).snd = s.snd := rfl
@[simp] theorem State.setCore_feeds (s : State) (sp : Nat) (c : Core) : (s.setCore sp c).feeds = s.feeds := rfl
@[simp] theorem State.setCore_till (s : State) (sp : Nat) (c : Core) : (s.setCore sp c).till = s.till := rfl
@[simp] theorem State.setCore_chans (s : State) (sp : Nat) (c : Core) : (s.setCore sp c).chans = s.chans := rfl
@[simp] theorem State.setCore_buses (s : State) (sp : Nat) (c : Core) : (s.setCore sp c).buses = s.buses := rfl
@[simp] theorem State.setCore_zones (s : State) (sp : Nat) (c : Core) : (s.setCore sp c).zones = s.zones := rfl
@[simp] theorem State.setCore_sceneRun (s : State) (sp : Nat) (c : Core) : (s.setCore sp c).sceneRun = s.sceneRun := rfl
@[simp] theorem State.setCore_spokes (s : State) (sp : Nat) (c : Core) :
    (s.setCore sp c).spokes = s.spokes.modify sp fun x => { x with core := c } := rfl
@[simp] theorem State.setCore_insts (s : State) (sp : Nat) (c : Core) : (s.setCore sp c).insts = s.insts := rfl
@[simp] theorem State.setCore_tandems (s : State) (sp : Nat) (c : Core) : (s.setCore sp c).tandems = s.tandems := rfl
@[simp] theorem State.setCore_sais (s : State) (sp : Nat) (c : Core) : (s.setCore sp c).sais = s.sais := rfl
@[simp] theorem State.setCore_aesis (s : State) (sp : Nat) (c : Core) : (s.setCore sp c).aesis = s.aesis := rfl
@[simp] theorem State.setCore_aesos (s : State) (sp : Nat) (c : Core) : (s.setCore sp c).aesos = s.aesos := rfl
@[simp] theorem State.setCore_pdms (s : State) (sp : Nat) (c : Core) : (s.setCore sp c).pdms = s.pdms := rfl
@[simp] theorem State.setCore_gears (s : State) (sp : Nat) (c : Core) : (s.setCore sp c).gears = s.gears := rfl
@[simp] theorem State.setCore_gearTop (s : State) (sp : Nat) (c : Core) : (s.setCore sp c).gearTop = s.gearTop := rfl
@[simp] theorem State.setCore_net (s : State) (sp : Nat) (c : Core) : (s.setCore sp c).net = s.net := rfl
@[simp] theorem State.setCore_dram (s : State) (sp : Nat) (c : Core) : (s.setCore sp c).dram = s.dram := rfl
@[simp] theorem State.setCore_pilots (s : State) (sp : Nat) (c : Core) : (s.setCore sp c).pilots = s.pilots := rfl
@[simp] theorem State.setCore_adm (s : State) (sp : Nat) (c : Core) : (s.setCore sp c).adm = s.adm := rfl
@[simp] theorem State.setCore_alarm (s : State) (sp : Nat) (c : Core) : (s.setCore sp c).alarm = s.alarm := rfl
@[simp] theorem State.setCore_bell (s : State) (sp : Nat) (c : Core) : (s.setCore sp c).bell = s.bell := rfl
@[simp] theorem State.setCore_free (s : State) (sp : Nat) (c : Core) : (s.setCore sp c).free = s.free := rfl
@[simp] theorem State.setCore_pending (s : State) (sp : Nat) (c : Core) : (s.setCore sp c).pending = s.pending := rfl

/-! `State.updInst` -/

@[simp] theorem State.updInst_clk (s : State) (p : List Name) (f : Inst → Inst) : (s.updInst p f).clk = s.clk := rfl
@[simp] theorem State.updInst_boot (s : State) (p : List Name) (f : Inst → Inst) : (s.updInst p f).boot = s.boot := rfl
@[simp] theorem State.updInst_flash (s : State) (p : List Name) (f : Inst → Inst) : (s.updInst p f).flash = s.flash := rfl
@[simp] theorem State.updInst_regs (s : State) (p : List Name) (f : Inst → Inst) : (s.updInst p f).regs = s.regs := rfl
@[simp] theorem State.updInst_mbox (s : State) (p : List Name) (f : Inst → Inst) : (s.updInst p f).mbox = s.mbox := rfl
@[simp] theorem State.updInst_svc (s : State) (p : List Name) (f : Inst → Inst) : (s.updInst p f).svc = s.svc := rfl
@[simp] theorem State.updInst_nmbs (s : State) (p : List Name) (f : Inst → Inst) : (s.updInst p f).nmbs = s.nmbs := rfl
@[simp] theorem State.updInst_fw (s : State) (p : List Name) (f : Inst → Inst) : (s.updInst p f).fw = s.fw := rfl
@[simp] theorem State.updInst_armed (s : State) (p : List Name) (f : Inst → Inst) : (s.updInst p f).armed = s.armed := rfl
@[simp] theorem State.updInst_vals (s : State) (p : List Name) (f : Inst → Inst) : (s.updInst p f).vals = s.vals := rfl
@[simp] theorem State.updInst_rings (s : State) (p : List Name) (f : Inst → Inst) : (s.updInst p f).rings = s.rings := rfl
@[simp] theorem State.updInst_limits (s : State) (p : List Name) (f : Inst → Inst) : (s.updInst p f).limits = s.limits := rfl
@[simp] theorem State.updInst_fault (s : State) (p : List Name) (f : Inst → Inst) : (s.updInst p f).fault = s.fault := rfl
@[simp] theorem State.updInst_ladder (s : State) (p : List Name) (f : Inst → Inst) : (s.updInst p f).ladder = s.ladder := rfl
@[simp] theorem State.updInst_recs (s : State) (p : List Name) (f : Inst → Inst) : (s.updInst p f).recs = s.recs := rfl
@[simp] theorem State.updInst_plan (s : State) (p : List Name) (f : Inst → Inst) : (s.updInst p f).plan = s.plan := rfl
@[simp] theorem State.updInst_ledg (s : State) (p : List Name) (f : Inst → Inst) : (s.updInst p f).ledg = s.ledg := rfl
@[simp] theorem State.updInst_maint (s : State) (p : List Name) (f : Inst → Inst) : (s.updInst p f).maint = s.maint := rfl
@[simp] theorem State.updInst_render (s : State) (p : List Name) (f : Inst → Inst) : (s.updInst p f).render = s.render := rfl
@[simp] theorem State.updInst_snd (s : State) (p : List Name) (f : Inst → Inst) : (s.updInst p f).snd = s.snd := rfl
@[simp] theorem State.updInst_feeds (s : State) (p : List Name) (f : Inst → Inst) : (s.updInst p f).feeds = s.feeds := rfl
@[simp] theorem State.updInst_till (s : State) (p : List Name) (f : Inst → Inst) : (s.updInst p f).till = s.till := rfl
@[simp] theorem State.updInst_chans (s : State) (p : List Name) (f : Inst → Inst) : (s.updInst p f).chans = s.chans := rfl
@[simp] theorem State.updInst_buses (s : State) (p : List Name) (f : Inst → Inst) : (s.updInst p f).buses = s.buses := rfl
@[simp] theorem State.updInst_zones (s : State) (p : List Name) (f : Inst → Inst) : (s.updInst p f).zones = s.zones := rfl
@[simp] theorem State.updInst_sceneRun (s : State) (p : List Name) (f : Inst → Inst) : (s.updInst p f).sceneRun = s.sceneRun := rfl
@[simp] theorem State.updInst_spokes (s : State) (p : List Name) (f : Inst → Inst) : (s.updInst p f).spokes = s.spokes := rfl
@[simp] theorem State.updInst_insts (s : State) (p : List Name) (f : Inst → Inst) :
    (s.updInst p f).insts = s.insts.map fun i => if i.path == p then f i else i := rfl
@[simp] theorem State.updInst_tandems (s : State) (p : List Name) (f : Inst → Inst) : (s.updInst p f).tandems = s.tandems := rfl
@[simp] theorem State.updInst_sais (s : State) (p : List Name) (f : Inst → Inst) : (s.updInst p f).sais = s.sais := rfl
@[simp] theorem State.updInst_aesis (s : State) (p : List Name) (f : Inst → Inst) : (s.updInst p f).aesis = s.aesis := rfl
@[simp] theorem State.updInst_aesos (s : State) (p : List Name) (f : Inst → Inst) : (s.updInst p f).aesos = s.aesos := rfl
@[simp] theorem State.updInst_pdms (s : State) (p : List Name) (f : Inst → Inst) : (s.updInst p f).pdms = s.pdms := rfl
@[simp] theorem State.updInst_gears (s : State) (p : List Name) (f : Inst → Inst) : (s.updInst p f).gears = s.gears := rfl
@[simp] theorem State.updInst_gearTop (s : State) (p : List Name) (f : Inst → Inst) : (s.updInst p f).gearTop = s.gearTop := rfl
@[simp] theorem State.updInst_net (s : State) (p : List Name) (f : Inst → Inst) : (s.updInst p f).net = s.net := rfl
@[simp] theorem State.updInst_dram (s : State) (p : List Name) (f : Inst → Inst) : (s.updInst p f).dram = s.dram := rfl
@[simp] theorem State.updInst_pilots (s : State) (p : List Name) (f : Inst → Inst) : (s.updInst p f).pilots = s.pilots := rfl
@[simp] theorem State.updInst_adm (s : State) (p : List Name) (f : Inst → Inst) : (s.updInst p f).adm = s.adm := rfl
@[simp] theorem State.updInst_alarm (s : State) (p : List Name) (f : Inst → Inst) : (s.updInst p f).alarm = s.alarm := rfl
@[simp] theorem State.updInst_bell (s : State) (p : List Name) (f : Inst → Inst) : (s.updInst p f).bell = s.bell := rfl
@[simp] theorem State.updInst_free (s : State) (p : List Name) (f : Inst → Inst) : (s.updInst p f).free = s.free := rfl
@[simp] theorem State.updInst_pending (s : State) (p : List Name) (f : Inst → Inst) : (s.updInst p f).pending = s.pending := rfl

end Sys2Proof.Machine
end

