-- ==== Sys2Proof/Laws/UseBasic.lean ====
section
/-! SUPPORT. Small facts the other laws use: list updates, folds, fields of words, boundaries. -/

namespace Sys2Proof.Machine

theorem prod_eq (neg : Bool) (x y : Word) : prod neg x y = (if neg then -1 else 1) * (x.toInt * y.toInt) := by
  cases neg <;> simp [prod]

theorem modify_set {α : Type} (l : List α) (i : Nat) (f : α → α) (a : α) (h : l[i]? = some a) : l.modify i f = l.set i (f a) := by
  apply List.ext_getElem?
  intro j
  rw [List.getElem?_modify, List.getElem?_set]
  by_cases e : i = j
  · subst e
    have := (List.getElem?_eq_some_iff.mp h).1
    rw [List.getElem?_eq_some_iff] at h
    obtain ⟨h1, rfl⟩ := h
    simp [h1]
  · simp [e]

theorem fld_low (v : Word) (k : Nat) : fld v 0 k = v.toNat % 2 ^ k := by simp [fld]

theorem fld_one (w : Word) (k : Nat) : w.getLsbD k = true ↔ fld w k 1 ≠ 0 := by
  simp only [fld, BitVec.getLsbD, Nat.testBit, Nat.shiftRight_eq_div_pow, bne_iff_ne, ne_eq, Nat.one_and_eq_mod_two, Nat.pow_one]

theorem frames_eq (n : Nat) : frames n = n * 8192 := by simp [frames, frameTicks, Nat.mul_comm]

theorem atFrame_iff {s : State} : s.clk.tally % 8192 = 0 → atFrame s = true := by
  intro h; simpa [atFrame, frameTicks] using h

theorem foldl_id {α : Type} (f : State → α → State) (l : List α) (s : State) (h : ∀ a ∈ l, f s a = s) : l.foldl f s = s := by
  induction l with
  | nil => rfl
  | cons a l ih => rw [List.foldl_cons, h a (by simp), ih fun b hb => h b (by simp [hb])]

theorem lastBoundary_eq {s : State} (h : s.clk.tally % 8192 = 0) : lastBoundary s = s.clk.tally := by
  simp only [lastBoundary, frameTicks]; omega

theorem bitOf_eq (n i : Nat) : bitOf n i = n.testBit i := by
  simp [bitOf, Nat.testBit, Nat.shiftRight_eq_div_pow, Nat.one_and_eq_mod_two]

theorem findSome_reverse_range {α : Type} (g : Nat → Option α) (n : Nat) (x : α) :
    (List.range n).reverse.findSome? g = some x ↔ ∃ q, q < n ∧ g q = some x ∧ ∀ j, q < j → j < n → g j = none := by
  induction n with
  | zero => simp
  | succ n ih =>
    rw [List.range_succ, List.reverse_append, List.reverse_singleton, List.singleton_append, List.findSome?_cons]
    cases h : g n with
    | some y =>
      constructor
      · intro e
        exact ⟨n, by omega, by rw [h]; exact e, fun j h1 h2 => by omega⟩
      · rintro ⟨q, hq, hg, hj⟩
        by_cases e : q = n
        · subst e; rw [← hg, h]
        · have := hj n (by omega) (by omega)
          rw [h] at this; cases this
    | none =>
      simp only
      rw [ih]
      constructor
      · rintro ⟨q, hq, hg, hj⟩
        refine ⟨q, by omega, hg, fun j h1 h2 => ?_⟩
        by_cases e : j = n
        · rw [e]; exact h
        · exact hj j h1 (by omega)
      · rintro ⟨q, hq, hg, hj⟩
        have : q ≠ n := by rintro rfl; rw [h] at hg; cases hg
        exact ⟨q, by omega, hg, fun j h1 h2 => hj j h1 (by omega)⟩

theorem maxNat_mem (l : List Nat) (top : Nat) (hm : top ∈ l) (hl : ∀ n ∈ l, n ≤ top) : maxNat l = top := by
  have key : ∀ (l : List Nat) a, l.foldl max a = max a (l.foldl max 0) := by
    intro l; induction l with
    | nil => simp
    | cons x l ih => intro a; simp only [List.foldl_cons]; rw [ih, ih (max 0 x)]; omega
  have le : ∀ l : List Nat, (∀ n ∈ l, n ≤ top) → l.foldl max 0 ≤ top := by
    intro l; induction l with
    | nil => simp
    | cons x l ih => intro h; simp only [List.foldl_cons]; rw [key]; have := h x (by simp); have := ih fun n hn => h n (by simp [hn]); omega
  have ge : ∀ l : List Nat, top ∈ l → top ≤ l.foldl max 0 := by
    intro l; induction l with
    | nil => simp
    | cons x l ih => intro h; simp only [List.foldl_cons]; rw [key]; rcases List.mem_cons.mp h with rfl | h; omega; have := ih h; omega
  have : maxNat l = l.foldl max 0 := rfl
  have := le l hl; have := ge l hm; omega

theorem sumNat_eq (l : List Nat) : sumNat l = l.sum := by
  have key : ∀ (l : List Nat) a, l.foldl (· + ·) a = a + l.sum := by
    intro l; induction l with
    | nil => simp
    | cons x l ih => intro a; simp only [List.foldl_cons, List.sum_cons]; rw [ih]; omega
  have : sumNat l = l.foldl (· + ·) 0 := rfl
  rw [this, key]; simp

theorem xor_mod2 (a b : Nat) : (a ^^^ b) % 2 = (a + b) % 2 := by
  exact Nat.xor_mod_two_eq

theorem raiseOwn_dram (code : Nat) (k : StampKind) (t : Nat) (n : Option Node) (d : Nat) (s : State) : (raiseOwn code k t n d s).dram = s.dram := by
  rw [raiseOwn_frame]

theorem raiseOwn_pos (code : Nat) (k : StampKind) (t : Nat) (n : Option Node) (d : Nat) (s : State) : (raiseOwn code k t n d s).ladder.pos = s.ladder.pos := by
  rw [raiseOwn_frame]

theorem foldl_keep {α β γ : Type} (f : β → α → β) (g : β → γ) (h : ∀ b a, g (f b a) = g b) (l : List α) (b : β) : g (l.foldl f b) = g b := by
  induction l generalizing b with
  | nil => rfl
  | cons a l ih => rw [List.foldl_cons, ih, h]

theorem fold_raise_keep (b : Nat) (l : List Node) (s : State) (code : Nat) :
    (l.foldl (fun s n => raiseOwn code .boundary b (some n) 0 s) s).dram = s.dram
      ∧ (l.foldl (fun s n => raiseOwn code .boundary b (some n) 0 s) s).ladder.pos = s.ladder.pos :=
  ⟨foldl_keep _ (fun s : State => s.dram) (fun _ _ => raiseOwn_dram _ _ _ _ _ _) _ _,
   foldl_keep _ (fun s : State => s.ladder.pos) (fun _ _ => raiseOwn_pos _ _ _ _ _ _) _ _⟩

theorem domainOn_eq (s : State) (i : Nat) : domainOn s i = s.boot.domains.testBit i := by
  simp [domainOn, bitOf, Nat.testBit, Nat.shiftRight_eq_div_pow, Nat.one_and_eq_mod_two]

theorem raiseOwn_keep {γ : Type} (g : State → γ) (h : ∀ (s : State) a b c d, g { s with rings := a, regs := b, ledg := { s.ledg with queue := c, suppressed := d } } = g s)
    (c : Nat) (k : StampKind) (t : Nat) (n : Option Node) (d : Nat) (s : State) : g (raiseOwn c k t n d s) = g s := by
  rw [raiseOwn_frame]; exact h _ _ _ _ _

theorem mem_retired (l : List Nat) (sp : Nat) : sp ∈ (if l.contains sp then l else l ++ [sp]) := by
  split
  · rename_i h; simpa using h
  · simp

theorem take_cons_take {α : Type} (a : α) (m : List α) : (a :: m.take 256).take 256 = (a :: m).take 256 := by
  simp [List.take_cons, List.take_take]

theorem next_of_skel {o : Host.Outcome State Fault Refusal} {k : Skel} (h : nextSkel o = some k) : ∃ t, o = .next t ∧ t.skel = k := by
  cases o with
  | next t => exact ⟨t, rfl, by simpa using h⟩
  | _ => cases h

end Sys2Proof.Machine
end

