-- ==== Sys2Proof/Laws/UseSpoke.lean ====
section
/-! SUPPORT. Spokes: words stored and loaded, rings and rims, stalls, instances that end. -/

namespace Sys2Proof.Machine

theorem get_putWord (m : Mem) (a b : Nat) (w : Word) :
    (m.putWord a w).get b = if a ≤ b ∧ b < a + 4 then w.extractLsb' (8 * (b - a)) 8 else m.get b := by
  unfold Mem.putWord
  rw [Mem.get_putBytes]
  by_cases h : a ≤ b
  · obtain ⟨k, rfl⟩ : ∃ k, b = a + k := ⟨b - a, by omega⟩
    simp only [h, if_true, Nat.add_sub_cancel_left]
    match k with
    | 0 => simp [bytesOf]
    | 1 => simp [bytesOf]
    | 2 => simp [bytesOf]
    | 3 => simp [bytesOf]
    | k + 4 => simp [bytesOf]
  · simp [h]

theorem fold_put_other (l : List (Nat × Word)) (m : Mem) (a : Nat) (h : ∀ e ∈ l, ¬(e.1 ≤ a ∧ a < e.1 + 4)) :
    (l.foldl (fun m e => m.putWord e.1 e.2) m).get a = m.get a := by
  induction l generalizing m with
  | nil => rfl
  | cons e l ih =>
    rw [List.foldl_cons, ih _ (fun e he => h e (List.mem_cons_of_mem _ he)), get_putWord]
    simp [h e (List.mem_cons_self ..)]

theorem fold_put_at (f : Nat → Nat) (w : Nat → Word) (cnt : Nat) (m : Mem) (i j : Nat) (hi : i < cnt) (hj : j < 4)
    (h : ∀ i', i < i' → i' < cnt → ¬(f i' ≤ f i + j ∧ f i + j < f i' + 4)) :
    (((List.range cnt).map fun i => (f i, w i)).foldl (fun m e => m.putWord e.1 e.2) m).get (f i + j) = (w i).extractLsb' (8 * j) 8 := by
  induction cnt with
  | zero => omega
  | succ c ih =>
    rw [List.range_succ, List.map_append, List.foldl_append]
    simp only [List.map_cons, List.map_nil, List.foldl_cons, List.foldl_nil]
    rw [get_putWord]
    by_cases e : i = c
    · subst e
      have : f i ≤ f i + j ∧ f i + j < f i + 4 := by omega
      simp [this]
    · have := h c (by omega) (by omega)
      rw [if_neg this]
      exact ih (by omega) (fun i' h1 h2 => h i' h1 (by omega))

theorem storeWords_eq (o : Core) (p : Nat) (w : Nat → Word) (cnt : Nat) (ha : ptrAligned o.snap p = true)
    (hm : ∀ i < cnt, mayAccess o (wordAddr o.snap p i) 4 true = true) :
    ∃ undo, storeWords o p ((List.range cnt).map w) = some { o with
      sram := ((List.range cnt).map fun i => (wordAddr o.snap p i, w i)).foldl (fun m e => m.putWord e.1 e.2) o.sram, undo := undo } := by
  have h : ((List.range cnt).map fun i => wordAddr o.snap p i).all (fun a => mayAccess o a 4 true) = true := by
    simpa using hm
  refine ⟨(((List.range cnt).map fun i => wordAddr o.snap p i).flatMap fun a => (List.range 4).map fun j => (a + j, o.sram.get (a + j))) ++ o.undo, ?_⟩
  simp only [storeWords, List.length_map, List.length_range, ha, h, Bool.and_self, if_true]
  have z : ((List.range cnt).map fun i => wordAddr o.snap p i).zip ((List.range cnt).map w) = (List.range cnt).map fun i => (wordAddr o.snap p i, w i) := by
    rw [List.zip_map']
  rw [z]

theorem rimFold_toNat (rb rl : Nat) (a : Int) (h0 : 0 < rl) (h : rb + rl ≤ 2 ^ 32) :
    (rb ≤ (rimFold rb rl a).toNat ∧ (rimFold rb rl a).toNat < rb + rl ∧ ((rimFold rb rl a).toNat : Int) % rl = a % rl) := by
  have h1 := Int.emod_nonneg (a - rb) (b := (rl : Int)) (by omega)
  have h2 := Int.emod_lt_of_pos (a - rb) (b := (rl : Int)) (by omega)
  have e : ((rimFold rb rl a).toNat : Int) = rb + (a - rb) % rl := by
    simp only [rimFold, wi, BitVec.toNat_ofInt]
    rw [Int.toNat_of_nonneg (Int.emod_nonneg _ (by norm_num))]
    apply Int.emod_eq_of_lt <;> norm_num at * <;> omega
  refine ⟨by omega, by omega, ?_⟩
  rw [e, Int.add_emod, Int.emod_emod_of_dvd _ (dvd_refl _), ← Int.add_emod]
  congr 1
  omega

theorem get_putRange (m n : Mem) (a b l x : Nat) :
    (m.putBytes a (n.bytes b l)).get x = if a ≤ x ∧ x < a + l then n.get (b + (x - a)) else m.get x := by
  rw [Mem.get_putBytes]
  by_cases h : a ≤ x
  · simp only [h, if_true, true_and, Mem.bytes]
    by_cases h2 : x < a + l
    · have : x - a < l := by omega
      simp [h2, this]
    · have : ¬x - a < l := by omega
      simp [h2, this]
  · simp [h]

theorem releaseStall_sram (s : State) (c : Core) : (releaseStall s c).sram = c.sram := by
  unfold releaseStall; split
  · rfl
  · split <;> rfl

theorem releaseStall_regs (s : State) (c : Core) : (releaseStall s c).regs = c.regs := by
  unfold releaseStall; split
  · rfl
  · split <;> rfl

theorem get_zeros (m : Mem) (a n i : Nat) (h : i < n) : (m.putBytes a (List.replicate n 0#8)).get (a + i) = 0 := by
  rw [Mem.get_putBytes]
  simp [h]

theorem setCore_get (s : State) (sp : Nat) (c m : Core) (h : s.coreAt sp = some c) : (s.setCore sp m).coreAt sp = some m := by
  simp only [State.coreAt, State.spokeAt, State.setCore, State.updSpoke, List.getElem?_modify] at h ⊢
  cases hs : s.spokes[sp]? with
  | none => simp [hs] at h
  | some y => simp

theorem exitInst_eq (sp : Nat) (p : List Name) (m : Core) (s : State) : exitInst sp p m s =
    { s.updInst p fun x => { x with
              ovFrames := if m.copy = 0 ∧ (m.regs.ova = true ∨ m.regs.ovr = true) then min (x.ovFrames + 1) 0xFFFFFFFF else x.ovFrames,
              peak := if m.copy = 0 then max x.peak m.issue else x.peak,
              copies := x.copies.modify m.copy fun k => { k with
                state := m.sram.bytes (Config.areaBase sp p 5) (imageHdr (instImage s p)).state } } with
            snd := { s.snd with published := (exitInst sp p m s).snd.published } } := by
  have e : (decide (m.copy = 0) && (m.regs.ova || m.regs.ovr)) = decide (m.copy = 0 ∧ (m.regs.ova = true ∨ m.regs.ovr = true)) := by simp
  simp only [exitInst, satAdd32, e, decide_eq_true_eq]

theorem updInst_get (s : State) (p : List Name) (f : Inst → Inst) (x : Inst) (hf : ∀ y, (f y).path = y.path) (h : s.instAt p = some x) :
    (s.updInst p f).instAt p = some (f x) := by
  unfold State.instAt State.updInst at *
  dsimp only
  revert h
  induction s.insts with
  | nil => simp
  | cons y l ih =>
    intro h
    rw [List.map_cons, List.find?_cons]
    rw [List.find?_cons] at h
    by_cases e : (y.path == p) = true
    · simp only [e, if_true, hf] at h ⊢
      simp_all
    · simp only [e, if_false, Bool.false_eq_true] at h ⊢
      exact ih h

end Sys2Proof.Machine
end

