-- ==== Sys2Proof/Laws/UseRequests.lean ====
section
/-! SUPPORT. Requests: padding, gates, what a request taken from a mailbox becomes, items read back. -/

namespace Sys2Proof.Machine

theorem realItems_pad {r : Request} (h : ∀ i ∈ r.items, i.tag = 0) : realItems r.items = [] := by
  simp only [realItems, List.filter_eq_nil_iff, List.mem_map]
  rintro ⟨i, it⟩ ⟨p, hp, e⟩
  have h2 := List.fst_mem_of_mem_zipIdx hp
  cases e
  simp [h _ h2]

theorem anyItem_pad {r : Request} (h : ∀ i ∈ r.items, i.tag = 0) : anyItem r = none := by
  simp [anyItem, realItems_pad h]

theorem cutItems_all (room : Nat) (l : List Item) (h : sumNat (l.map fun i => 1 + i.vals.length) ≤ room) : cutItems room l = l := by
  cases l with
  | nil => rfl
  | cons i l =>
    unfold cutItems
    exact if_pos h

theorem fits_nil (r : Request) : Fits r [] := by
  intro h; simp only [carried]; split <;> simp [replyWords, itemWords]

theorem busy_eq {o : Op} {f : Bool} {r : Request} {s : State} (hm : r.mb < 11) (hf : ∀ e ∈ s.svc.out, e.1 ≠ r.mb) (hs : s.serving = false) :
    serve o f r s = { s with svc := { s.svc with
      out := s.svc.out ++ [(r.mb, { opcode := codeOfOp o, quiet := r.quiet, seq := r.seq, handle := r.handle, detail := 0, status := 0x13,
                                    items := [], after := .none })] } } := by
  have h1 : (11 ≤ r.mb || (s.svc.out.any fun e => e.1 == r.mb)) = false := by
    simp only [any_out_false hf, Bool.or_false, decide_eq_false_iff_not]
    omega
  simp only [serve, h1, hs, Bool.false_eq_true, if_false, Bool.not_false, if_true, Reply.fail, Reply.resp, park, Option.getD_none]
  simp [stTellerBusy]

theorem gate_eq {o : Op} {f : Bool} {r : Request} {s u : State} {st d : Nat} (he : Executes s r) (hu : answer o f r s = (u, Reply.fail st d))
    (hfw : u.fw = s.fw) : serve o f r s = answeredFail u r (codeOfOp o) st d := by
  have h1 : (11 ≤ r.mb || (s.svc.out.any fun e => e.1 == r.mb)) = false := by
    simp only [any_out_false he.free, Bool.or_false, decide_eq_false_iff_not]
    have := he.mb
    omega
  have e : (if r.quiet && decide (st = 0) then [] else ([] : List Item)) = [] := by split <;> rfl
  simp only [serve, h1, he.serving, hu, Reply.fail, e, hfw, Bool.false_eq_true, if_false, Bool.not_true, Reply.resp, park, answeredFail, Option.getD_none]

theorem gate_auth {o : Op} {f : Bool} {r : Request} {s : State} (he : Executes s r) (hk : keyGated o = true) :
    (isNmb r.mb = true → serve o f r s = answeredFail s r (codeOfOp o) 5 r.mb)
      ∧ (isNmb r.mb = false → s.maint.key = false → serve o f r s = answeredFail (raiseRefused r.mb 1 s) r (codeOfOp o) 6 0)
      ∧ (isNmb r.mb = false → s.maint.key = true → s.maint.loop = false → serve o f r s = answeredFail (raiseRefused r.mb 2 s) r (codeOfOp o) 7 0) := by
  refine ⟨fun h => ?_, fun h1 h2 => ?_, fun h1 h2 h3 => ?_⟩
  · refine gate_eq he ?_ rfl
    simp [answer, hk, h]
  · refine gate_eq he ?_ ?_
    · simp [answer, hk, h1, h2, authFault]
    · rw [raiseRefused, raiseNode_frame]
  · refine gate_eq he ?_ ?_
    · simp [answer, hk, h1, h2, h3, authFault]
    · rw [raiseRefused, raiseNode_frame]

theorem gate_time {o : Op} {f : Bool} {r : Request} {s : State} (he : Executes s r) (hk : keyGated o = false)
    (hc : r.commitAt ≠ 0) (ht : (takesBoundary o && boundaryWord r.commitAt) = false) :
    serve o f r s = answeredFail s r (codeOfOp o) 8 0 := by
  refine gate_eq he ?_ rfl
  have h0 : (r.commitAt != 0#32) = true := by simpa using hc
  simp [answer, hk, ht, h0]

theorem mboxAt_eq {s : State} {m : Nat} {b : Mbox} (h : s.mbox[m]? = some b) : s.mboxAt m = b := by
  simp [State.mboxAt, h]

theorem inFront_len (s : State) (m n : Nat) : (inFront s m n).length = n := by simp [inFront, ringGet]

theorem inFront_get (s : State) (m n k : Nat) (h : k < n) : (inFront s m n).getD k 0#32 = (s.mboxAt m).inRing.word (4 * (((s.mboxAt m).inRd + k) % 1024)) := by
  simp [inFront, ringGet, List.getD, h]

theorem inFront_take (s : State) (m n : Nat) (h : 4 ≤ n) : (inFront s m n).take 4 = inFront s m 4 := by
  simp only [inFront, ringGet, ← List.map_take, List.take_range, Nat.min_eq_left h]

theorem itemWords_len (is : List Item) : is.length ≤ (itemWords is).length := by
  induction is with
  | nil => simp
  | cons i l ih => simp [itemWords, Item.words] at *; omega

theorem parse_itemWords (is : List Item) (h : ∀ i ∈ is, i.tag < 65536 ∧ i.vals.length < 65536) :
    ∀ k off, is.length ≤ k → parseItems k off (itemWords is) = .ok is := by
  induction is with
  | nil => intro k off _; cases k <;> rfl
  | cons i l ih =>
    intro k off hk
    cases k with
    | zero => simp at hk
    | succ k =>
      have hi := h i (by simp)
      have h0 : fld (wd (i.tag * 65536 + i.vals.length)) 0 16 = i.vals.length := by
        simp [fld, wd]; omega
      have h1 : fld (wd (i.tag * 65536 + i.vals.length)) 16 16 = i.tag := by
        simp [fld, wd]; omega
      have e : itemWords (i :: l) = wd (i.tag * 65536 + i.vals.length) :: (i.vals ++ itemWords l) := rfl
      rw [e]
      simp only [parseItems, h0, h1]
      have : ¬(i.vals ++ itemWords l).length < i.vals.length := by simp
      rw [if_neg this]
      rw [List.drop_append_of_le_length (Nat.le_refl _), List.drop_length, List.nil_append, ih (fun j hj => h j (by simp [hj])) k _ (by simp at hk; omega)]
      simp

theorem trace_mbox (m d : Nat) (h : List Word) (s : State) : (traceLine m d h s).mbox = s.mbox := by
  unfold traceLine; split <;> rfl

theorem inPosted_lt (m : Nat) : inPosted s m < 65536 := by
  simp [inPosted, posted]; omega

theorem op_nmb {c : Nat} (h : opOfCode c = some Op.nmbConfig) : c = 0x0120 := by
  simp only [opOfCode, findKey, Option.map_eq_some_iff] at h
  obtain ⟨e, h1, h2⟩ := h
  have h3 := List.find?_some h1
  have h4 := List.mem_of_find?_eq_some h1
  simp only [opTable, List.mem_cons, List.not_mem_nil, or_false] at h4
  rcases h4 with rfl | rfl | rfl | rfl | rfl | rfl | rfl | rfl | rfl | rfl | rfl | rfl | rfl | rfl | rfl | rfl | rfl | rfl | rfl <;> simp_all

theorem op_none (c : Nat) (h : ∀ e ∈ opcodes, e.1 ≠ c) (h2 : c ≠ 0x0120) : opOfCode c = none := by
  simp only [opOfCode, findKey, Option.map_eq_none_iff, List.find?_eq_none]
  intro e he
  simp only [opcodes, List.mem_cons, List.not_mem_nil, or_false, forall_eq_or_imp, forall_eq] at h
  simp only [opTable, List.mem_cons, List.not_mem_nil, or_false] at he
  rcases he with rfl | rfl | rfl | rfl | rfl | rfl | rfl | rfl | rfl | rfl | rfl | rfl | rfl | rfl | rfl | rfl | rfl | rfl | rfl <;> simp <;> omega

theorem requestTake_eq {s z : State} {m n : Nat} {h : List Word} (hs : s.serving = true) (hm : nextMbox s = some m) (hn : isNmb m = false)
    (hh : h = inFront s m 4) (hl : n = fld (h.getD 0 0) 20 12) (hz : z = traceLine m 0 h { s with svc := { s.svc with last := if m = 0 then s.svc.last else m } }) :
    exec .requestTake s = .next (if badLen n then rejectLength m (inPosted s m) (inPosted s m) h z
      else
        let x := drawFree z
        let z := if opOfCode (fld (h.getD 0 0) 0 16) == some .nmbConfig then x.2 else z
        checkAndServe m (inFront s m n) (x.1.getLsbD 0) (consume m n z)) := by
  have e0 : frontLen s m = n := by
    rw [hl, hh]
    exact congrArg (fld · 20 12) ((inFront_get s m 1 0 (by omega)).trans (inFront_get s m 4 0 (by omega)).symm)
  subst hz
  subst hh
  simp only [exec, execRequestTake, hs, Bool.not_true, Bool.false_eq_true, if_false, hm, takeFrom, hn]
  have f : ∀ (svc : Svc), frontLen { s with svc := svc } m = frontLen s m := fun _ => rfl
  have g : ∀ (svc : Svc) k, inFront { s with svc := svc } m k = inFront s m k := fun _ _ => rfl
  have q : ∀ (svc : Svc), inPosted { s with svc := svc } m = inPosted s m := fun _ => rfl
  have f2 : ∀ (z : State) k, z.mbox = s.mbox → inFront z m k = inFront s m k := by
    intro z k e; simp only [inFront, State.mboxAt, e]
  have f3 := f2 (traceLine m 0 (inFront s m 4) { s with svc := { s.svc with last := if m = 0 then s.svc.last else m } }) n (trace_mbox _ _ _ _)
  simp only [f, g, q, e0]
  split
  · rfl
  · simp only [f3]
    rfl

end Sys2Proof.Machine
end

