-- ==== Sys2Proof/Laws/UseTeller.lean ====
section
/-! SUPPORT. Teller pairs, the fault outputs and the withdrawal of authorisation: what each may change. -/

namespace Sys2Proof.Machine

def RaisedOnly (s t : State) : Prop := t = { s with rings := t.rings, regs := t.regs, ledg := { s.ledg with queue := t.ledg.queue, suppressed := t.ledg.suppressed } }

theorem raisedOnly_raiseOwn (c k t n d s) : RaisedOnly s (raiseOwn c k t n d s) := raiseOwn_frame _ _ _ _ _ _

theorem raisedOnly_raiseNode (c k t n m d i s) : RaisedOnly s (raiseNode c k t n m d i s) := raiseNode_frame _ _ _ _ _ _ _ _

theorem raisedOnly_vec (v s) : RaisedOnly s (raiseVec v s) := rfl

theorem raisedOnly_vecIf (b v s) : RaisedOnly s (raiseVecIf b v s) := by
  unfold RaisedOnly
  rw [raiseVecIf_frame]

theorem settleFaults_frame (s : State) : settleFaults s = { s with
      fault := { s.fault with outA := (settleFaults s).fault.outA, outB := (settleFaults s).fault.outB, lastBad := (settleFaults s).fault.lastBad },
      rings := (settleFaults s).rings, regs := (settleFaults s).regs, ledg := { s.ledg with queue := (settleFaults s).ledg.queue, suppressed := (settleFaults s).ledg.suppressed } } := by
  unfold settleFaults
  extract_lets now low u clean next a b rise
  have hu : u = { s with fault := { s.fault with lastBad := u.fault.lastBad } } := by
    simp only [u]; split <;> rfl
  clear_value u
  split
  · rw [hu]
  · rw [raiseVec_frame, raiseOwn_frame, hu]; rfl

theorem settleFaults_vals (s : State) :
    ((settleFaults s).fault.outA = (ownCause s 0 || (lowestCondition s).isSome ||
        (s.fault.outA && !((lowestCondition s).isNone && decide (s.fault.lastBad + frames 3000 ≤ s.clk.tally) && !ownCause s 0 && !ownCause s 1))))
    ∧ ((settleFaults s).fault.outB = (ownCause s 1 || (lowestCondition s).isSome ||
        (s.fault.outB && !((lowestCondition s).isNone && decide (s.fault.lastBad + frames 3000 ≤ s.clk.tally) && !ownCause s 0 && !ownCause s 1))))
    ∧ ((lowestCondition s).isSome = true → (settleFaults s).fault.lastBad = s.clk.tally) := by
  unfold settleFaults
  extract_lets now low u clean next a b rise
  have hu : u = { s with fault := { s.fault with lastBad := u.fault.lastBad } } := by
    simp only [u]; split <;> rfl
  have hb : low.isSome = true → u.fault.lastBad = now := by intro h; simp only [u, h, if_true]; rfl
  have hn : low.isSome = false → u = s := by intro h; simp only [u, h]; rfl
  have hc : ∀ k, ownCause u k = ownCause s k := by intro k; rw [hu]; rfl
  have ha : a = (ownCause s 0 || low.isSome || (s.fault.outA && !(low.isNone && decide (s.fault.lastBad + frames 3000 ≤ s.clk.tally) && !ownCause s 0 && !ownCause s 1))) := by
    simp only [a, next, clean, hc]
    cases e : low.isSome
    · rw [hn e]
    · simp
  have hbb : b = (ownCause s 1 || low.isSome || (s.fault.outB && !(low.isNone && decide (s.fault.lastBad + frames 3000 ≤ s.clk.tally) && !ownCause s 0 && !ownCause s 1))) := by
    simp only [b, next, clean, hc]
    cases e : low.isSome
    · rw [hn e]
    · simp
  have hoa : u.fault.outA = s.fault.outA := by rw [hu]
  have hob : u.fault.outB = s.fault.outB := by rw [hu]
  clear_value u a b
  by_cases h : (a == u.fault.outA && b == u.fault.outB) = true
  · rw [if_pos h]
    rw [Bool.and_eq_true, beq_iff_eq, beq_iff_eq] at h
    exact ⟨h.1 ▸ ha, h.2 ▸ hbb, hb⟩
  · rw [if_neg h, raiseVec_frame, raiseOwn_frame]
    exact ⟨ha, hbb, hb⟩

theorem cancel_frame (c : Nat) (s : State) : cancelUpdate c s = { s with
    flash := { s.flash with update := none },
    rings := (cancelUpdate c s).rings, regs := (cancelUpdate c s).regs, ledg := { s.ledg with queue := (cancelUpdate c s).ledg.queue, suppressed := (cancelUpdate c s).ledg.suppressed } } := by
  unfold cancelUpdate
  split
  · rename_i h; rw [← h]
  · unfold raiseFw; rw [raiseNode_frame]

theorem withdraw_frame (c : Nat) (s : State) : withdraw c s = { s with
    flash := { s.flash with update := none },
    fault := { s.fault with test := 0, outA := (withdraw c s).fault.outA, outB := (withdraw c s).fault.outB, lastBad := (withdraw c s).fault.lastBad },
    rings := (withdraw c s).rings, regs := (withdraw c s).regs, ledg := { s.ledg with queue := (withdraw c s).ledg.queue, suppressed := (withdraw c s).ledg.suppressed } } := by
  unfold withdraw
  rw [settleFaults_frame, cancel_frame]
  rfl

theorem pairAt_eq {s : State} {k : Nat} {p : TellerPair} (h : s.fault.pairs[k]? = some p) : pairAt s k = p := by
  simp [pairAt, h]

theorem setPair_frame {k st : Nat} {s : State} {p : TellerPair} (h : s.fault.pairs[k]? = some p) :
    setPairState k st s = { s with
      fault := { s.fault with pairs := s.fault.pairs.set k { p with state := st } },
      rings := (setPairState k st s).rings, regs := (setPairState k st s).regs,
      ledg := { s.ledg with queue := (setPairState k st s).ledg.queue, suppressed := (setPairState k st s).ledg.suppressed } } := by
  unfold setPairState
  rw [pairAt_eq h]
  split
  · rename_i e
    have : s.fault.pairs.set k { p with state := st } = s.fault.pairs := by
      rw [← e]
      obtain ⟨h1, rfl⟩ := List.getElem?_eq_some_iff.mp h
      exact List.set_getElem_self h1
    rw [this]
  · rw [raiseOwn_frame]
    simp only [updPair, State.updFault, modify_set _ _ _ _ h]

theorem updPair_frame {k : Nat} {f : TellerPair → TellerPair} {s : State} {p : TellerPair} (h : s.fault.pairs[k]? = some p) :
    updPair k f s = { s with fault := { s.fault with pairs := s.fault.pairs.set k (f p) } } := by
  simp only [updPair, State.updFault, modify_set _ _ _ _ h]

theorem setService_frame (a b : Nat) (s : State) : setService a b s = { s with
      svc := { s.svc with state := a, pair := b }, regs := (setService a b s).regs } := by
  unfold setService
  rw [raiseVecIf_frame]

theorem abandon_frame (f w t : Nat) (k : StampKind) (s : State) : abandonLoads f w t k s = { s with
      fw := { s.fw with banks := (abandonLoads f w t k s).fw.banks },
      rings := (abandonLoads f w t k s).rings, regs := (abandonLoads f w t k s).regs,
      ledg := { s.ledg with queue := (abandonLoads f w t k s).ledg.queue, suppressed := (abandonLoads f w t k s).ledg.suppressed } } := by
  unfold abandonLoads
  generalize (s.fw.banks.filter fun b => b.feed == f && (b.state == 1 || b.state == 2)) = l
  induction l generalizing s with
  | nil => rfl
  | cons b l ih =>
    rw [List.foldl_cons, ih, raiseNode_frame]
    rfl

theorem abandonAll_frame (l : List Nat) (w : Nat) (k : StampKind) (s : State) : ∃ u : State, l.foldl (fun s f => abandonLoads f w s.clk.tally k s) s = u ∧ u = { s with
      fw := { s.fw with banks := u.fw.banks },
      rings := u.rings, regs := u.regs, ledg := { s.ledg with queue := u.ledg.queue, suppressed := u.ledg.suppressed } } := by
  refine ⟨_, rfl, ?_⟩
  induction l generalizing s with
  | nil => rfl
  | cons b l ih =>
    rw [List.foldl_cons, ih, abandon_frame]

theorem undo_frame (s : State) : undoRequest s = { s with
      fw := (undoRequest s).fw, svc := { s.svc with out := (undoRequest s).svc.out },
      adm := { s.adm with waiting := (undoRequest s).adm.waiting, fadeOut := (undoRequest s).adm.fadeOut } } := by
  unfold undoRequest
  split
  · rfl
  · split
    · rfl
    · extract_lets o stands busy u
      split
      · rfl
      · split
        · rfl
        · rfl

end Sys2Proof.Machine
end

