-- ==== Sys2Proof/Laws/UseCadence.lean ====
section
/-! SUPPORT. Boundaries: where they lie, and the course every command keeps to. -/

namespace Sys2Proof.Machine

theorem of_skel {s z : State} {t n f : Nat} (h : z.skel = { s.skel with tally := t, nextSample := n, nextFrame := f }) :
    z.clk.tally = t ∧ z.clk.nextSample = n ∧ z.clk.nextFrame = f ∧ z.pending = s.pending ∧ (s.Shape → z.Shape) := by
  simp only [State.skel, Skel.mk.injEq] at h
  obtain ⟨h0, h1, h2, h3, h4, h5, h6, h7, h8⟩ := h
  exact ⟨h1, h2, h3, h0, fun hs => ⟨h4 ▸ hs.1, h5 ▸ hs.2, h6 ▸ hs.3, h7 ▸ hs.4, h8 ▸ hs.5⟩⟩

theorem sampleNext_eq {s : State} (h : s.clk.nextSample % 512 = 0) (h2 : s.clk.tally ≤ s.clk.nextSample) : sampleNext s = s.clk.nextSample := by
  simp only [sampleNext, ceilDiv, sampleTicks]; omega

theorem frameNext_eq {s : State} (h : s.clk.nextFrame % 8192 = 0) (h2 : s.clk.tally ≤ s.clk.nextFrame) : frameNext s = s.clk.nextFrame := by
  simp only [frameNext, boundaryFrom, ceilDiv, frameTicks]; omega

theorem missed_skel (b : Nat) (s : State) (h : s.clk.nextSample % 512 = 0) (h2 : s.clk.tally ≤ s.clk.nextSample) (h3 : s.clk.tally ≤ b) :
    ∃ t n, ((missedSamples b s).foldl (fun s t => sampleAt t [] s) s).skel = { s.skel with tally := t, nextSample := n } ∧ t ≤ b ∧ n % 512 = 0
      ∧ (b ≤ s.clk.nextSample → n = s.clk.nextSample) := by
  have hm : ∀ t ∈ missedSamples b s, t < b ∧ t % 512 = 0 := by
    intro t ht
    simp only [missedSamples, List.mem_filter, List.mem_map, decide_eq_true_eq] at ht
    obtain ⟨⟨i, _, rfl⟩, hb⟩ := ht
    refine ⟨hb, ?_⟩
    rw [sampleNext_eq h h2]; simp only [sampleTicks]; omega
  have hz : b ≤ s.clk.nextSample → missedSamples b s = [] := by
    intro hb
    rw [List.eq_nil_iff_forall_not_mem]
    intro t ht
    have ht0 := ht
    simp only [missedSamples, List.mem_filter, List.mem_map, decide_eq_true_eq] at ht
    obtain ⟨⟨i, _, rfl⟩, hb'⟩ := ht
    rw [sampleNext_eq h h2] at hb'; omega
  have key : ∀ (l : List Nat) (x : State), (∀ t ∈ l, t < b ∧ t % 512 = 0) → x.clk.tally ≤ b → x.clk.nextSample % 512 = 0 →
      ∃ t n, (l.foldl (fun s t => sampleAt t [] s) x).skel = { x.skel with tally := t, nextSample := n } ∧ t ≤ b ∧ n % 512 = 0 := by
    intro l
    induction l with
    | nil => intro x _ hx hn; exact ⟨x.clk.tally, x.clk.nextSample, rfl, hx, hn⟩
    | cons a l ih =>
      intro x hl hx hn
      have e := sampleAt_skel a [] x
      have ha := hl a (by simp)
      obtain ⟨et, en, -, -, -⟩ := of_skel (s := x) (e.trans rfl)
      obtain ⟨t, n, h1, h2, h3⟩ := ih (sampleAt a [] x) (fun t ht => hl t (by simp [ht])) (by rw [et]; omega) (by rw [en]; simp only [sampleTicks]; omega)
      exact ⟨t, n, by rw [List.foldl_cons, h1, e], h2, h3⟩
  obtain ⟨t, n, h1, h4, h5⟩ := key _ s hm h3 h
  refine ⟨t, n, h1, h4, h5, ?_⟩
  intro hb
  rw [hz hb] at h1
  exact (congrArg Skel.nextSample h1).symm

def KeepsCourse (s : State) (c : Instr) (k : Skel) : Prop :=
  k.pending = s.pending ∧ (s.Shape → k.mboxes = 11 ∧ k.nmbs = 2 ∧ k.rings = 8 ∧ k.recs = 8 ∧ k.spokes = 40)
  ∧ (s.Cadence → k.nextSample % 512 = 0 ∧ k.nextFrame % 8192 = 0)
  ∧ (s.clk.tally ≤ k.tally ∨ (k.tally = 0 ∧ (c = .porstAssert ∨ ∃ h mon mclk, c = .coldReset h mon mclk)))

theorem course_same (s : State) (c : Instr) : KeepsCourse s c s.skel :=
  ⟨rfl, fun h => ⟨h.1, h.2, h.3, h.4, h.5⟩, fun h => ⟨h.1, h.2⟩, .inl le_rfl⟩

theorem boundaries_grid (t : Nat) : (ceilDiv t sampleTicks * sampleTicks) % 512 = 0 ∧ boundaryFrom t % 8192 = 0 := by
  simp [boundaryFrom, frameTicks, sampleTicks]

theorem course_renewed (s : State) (c : Instr) : KeepsCourse s c s.skel.renewed :=
  ⟨rfl, fun h => ⟨h.1, rfl, h.3, rfl, rfl⟩, fun _ => boundaries_grid _, .inl le_rfl⟩

theorem sampleNext_grid (s : State) (h : s.clk.nextSample % 512 = 0) : sampleNext s % 512 = 0 := by
  simp only [sampleNext, sampleTicks]; have := (boundaries_grid s.clk.tally).1; simp only [sampleTicks] at this; omega

theorem frameNext_grid (s : State) (h : s.clk.nextFrame % 8192 = 0) : frameNext s % 8192 = 0 := by
  simp only [frameNext]; have := (boundaries_grid s.clk.tally).2; omega

theorem course_sample (s : State) (c : Instr) (u : State) (t : Nat) (bad) (h : KeepsCourse s c u.skel) (ht : s.Cadence → t % 512 = 0) (hk : s.clk.tally ≤ u.clk.tally) :
    KeepsCourse s c (sampleAt t bad u).skel ∧ s.clk.tally ≤ (sampleAt t bad u).clk.tally := by
  have e := sampleAt_skel t bad u
  have e2 : (sampleAt t bad u).clk.tally = max u.clk.tally t := congrArg Skel.tally e
  refine ⟨?_, by rw [e2]; omega⟩
  rw [e]
  refine ⟨h.1, h.2.1, fun hc => ⟨?_, (h.2.2.1 hc).2⟩, .inl ?_⟩
  · have := ht hc; simp only [sampleTicks]; omega
  · simp only []; omega

theorem course_frame (s : State) (c : Instr) (u : State) (t : Nat) (env) (h : KeepsCourse s c u.skel) (ht : s.Cadence → t % 8192 = 0) (hk : s.clk.tally ≤ u.clk.tally) :
    KeepsCourse s c (frameAt t env u).skel ∧ s.clk.tally ≤ (frameAt t env u).clk.tally := by
  have e := frameAt_skel t env u
  have e2 : (frameAt t env u).clk.tally = max u.clk.tally t := congrArg Skel.tally e
  refine ⟨?_, by rw [e2]; omega⟩
  rw [e]
  refine ⟨h.1, h.2.1, fun hc => ⟨(h.2.2.1 hc).1, ?_⟩, .inl ?_⟩
  · have := ht hc; simp only [frameTicks]; omega
  · simp only []; omega

theorem course_samples (s : State) (c : Instr) (l : List Nat) (ht : s.Cadence → ∀ t ∈ l, t % 512 = 0) :
    ∀ u : State, KeepsCourse s c u.skel → s.clk.tally ≤ u.clk.tally →
      KeepsCourse s c (l.foldl (fun s t => sampleAt t [] s) u).skel ∧ s.clk.tally ≤ (l.foldl (fun s t => sampleAt t [] s) u).clk.tally := by
  induction l with
  | nil => intro u h hk; exact ⟨h, hk⟩
  | cons a l ih =>
    intro u h hk
    rw [List.foldl_cons]
    have := course_sample s c u a [] h (fun hc => ht hc a (by simp)) hk
    exact ih (fun hc t htt => ht hc t (by simp [htt])) _ this.1 this.2

theorem course_frameBoundary (s : State) (c : Instr) (env) : ∃ k, nextSkel (execFrameBoundary env s) = some k ∧ KeepsCourse s c k := by
  refine ⟨_, rfl, ?_⟩
  have h := course_samples s c (missedSamples (frameNext s) s) (fun hc t ht => by
    simp only [missedSamples, List.mem_filter, List.mem_map] at ht
    obtain ⟨⟨i, _, rfl⟩, _⟩ := ht
    have := sampleNext_grid s hc.1
    simp only [sampleTicks]; omega) s (course_same s c) le_rfl
  exact (course_frame s c _ _ env h.1 (fun hc => frameNext_grid s hc.2) h.2).1

theorem course_loss (s : State) (c : Instr) (n) : ∃ k, nextSkel (execMclkLoss n s) = some k ∧ KeepsCourse s c k := by
  unfold execMclkLoss
  split
  · exact ⟨_, rfl, course_same s c⟩
  · split
    · exact ⟨_, rfl, course_same s c⟩
    · extract_lets d x a u v
      have ha : KeepsCourse s c a.skel ∧ s.clk.tally ≤ a.clk.tally := ⟨course_same s c, le_rfl⟩
      have ea : a.clk.nextSample = s.clk.nextSample ∧ a.clk.nextFrame = s.clk.nextFrame := ⟨rfl, rfl⟩
      have hu : (KeepsCourse s c u.skel ∧ s.clk.tally ≤ u.clk.tally) := by
        show KeepsCourse s c (if _ then _ else _ : State).skel ∧ _ ≤ (if _ then _ else _ : State).clk.tally
        split
        · exact course_sample s c a _ [] ha.1 (fun hc => sampleNext_grid a (by rw [ea.1]; exact hc.1)) ha.2
        · exact ha
      have hv : (KeepsCourse s c v.skel ∧ s.clk.tally ≤ v.clk.tally) := by
        show KeepsCourse s c (if _ then _ else _ : State).skel ∧ _ ≤ (if _ then _ else _ : State).clk.tally
        split
        · refine course_frame s c u _ _ hu.1 (fun hc => frameNext_grid u ?_) hu.2
          exact (hu.1.2.2.1 hc).2
        · exact hu
      clear_value v
      refine ⟨_, rfl, ?_⟩
      rw [advance_skel]
      obtain ⟨⟨h1, h2, h3, h4⟩, h5⟩ := hv
      exact ⟨h1, h2, h3, .inl (le_trans h5 (le_max_left _ _))⟩

theorem course_zero (s : State) (c : Instr) (h : c = .porstAssert ∨ ∃ h mon mclk, c = .coldReset h mon mclk) :
    KeepsCourse s c { s.skel with tally := 0, nextSample := 0, nextFrame := 0, nmbs := 2, recs := 8, spokes := 40 } :=
  ⟨rfl, fun h => ⟨h.1, rfl, h.3, rfl, rfl⟩, fun _ => ⟨rfl, rfl⟩, .inr ⟨rfl, h⟩⟩

end Sys2Proof.Machine
end

