-- ==== Sys2Proof/Laws/UseSound.lean ====
section
/-! SUPPORT. Copies of ALARM nodes and the Bell path. -/

namespace Sys2Proof.Machine

theorem find_place {l : List (Node × Nat × Option Nat)} {n : Node} {s : State} (h : s.adm.place = l) : copySpokes s n = (l.find? fun e => e.1 == n).bind fun e => e.2.2.map fun b => (e.2.1, b) := by
  rw [copySpokes, h]

theorem noteFaults_present {t : Nat} {o : CopyObs} {s : State} (h : ∃ x y g k, o.primary = .present x g ∧ o.secondary = .present y k) : noteFaults t o s = s := by
  obtain ⟨x, y, g, k, h1, h2⟩ := h
  simp [noteFaults, h1, h2]

theorem trigAt_eq {s : State} {n : Nat} {x : BellTrig} (h : s.bell.trigs[n]? = some x) : s.bellTrigAt n = x := by
  simp [State.bellTrigAt, h]

theorem updTrig_eq {s : State} {n : Nat} {x : BellTrig} {f : BellTrig → BellTrig} (h : s.bell.trigs[n]? = some x) :
    s.updTrig n f = { s with bell := { s.bell with trigs := s.bell.trigs.set n (f x) } } := by
  simp only [State.updTrig, modify_set _ _ _ _ h]

theorem bellEvent_frame (c n : Nat) (s : State) : bellEvent c n s = { s with
    rings := (bellEvent c n s).rings, regs := (bellEvent c n s).regs,
    ledg := { s.ledg with queue := (bellEvent c n s).ledg.queue, suppressed := (bellEvent c n s).ledg.suppressed } } := by
  unfold bellEvent
  split
  · rw [raiseOwn_frame]
  · rfl

theorem bellEvent_bell (c n : Nat) (s : State) : (bellEvent c n s).bell = s.bell := by rw [bellEvent_frame]

theorem bellEvent_vals (c n : Nat) (s : State) : (bellEvent c n s).vals = s.vals := by rw [bellEvent_frame]

end Sys2Proof.Machine
end

