-- ==== Sys2Proof/Laws/UsePorts.lean ====
section
/-! SUPPORT. Ports and pilot channels. -/

namespace Sys2Proof.Machine

theorem portAt_upd {s : State} {id : PortId} {p : PortSt} {f : PortSt → PortSt} (h : s.portAt id = some p) : (s.updPort id f).portAt id = some (f p) := by
  cases id with
  | sai n =>
    simp only [State.portAt, State.saiAt, Option.map_eq_some_iff] at h
    obtain ⟨x, hx, rfl⟩ := h
    simp only [State.updPort, State.updSai, State.portAt, State.saiAt, List.find?_map]
    have : (((fun x => x.n == n) ∘ fun x : SaiPort => if x.n == n then { x with st := f x.st } else x)) = fun x => x.n == n := by
      funext y; simp only [Function.comp]; split <;> rfl
    rw [this, hx]
    have := List.find?_some hx
    simp only [Option.map_some, this, if_true]
  | aesi n =>
    simp only [State.portAt, State.aesiAt, Option.map_eq_some_iff] at h
    obtain ⟨x, hx, rfl⟩ := h
    simp only [State.updPort, State.updAesi, State.portAt, State.aesiAt, List.find?_map]
    have : (((fun x => x.n == n) ∘ fun x : AesIn => if x.n == n then { x with st := f x.st } else x)) = fun x => x.n == n := by
      funext y; simp only [Function.comp]; split <;> rfl
    rw [this, hx]
    have := List.find?_some hx
    simp only [Option.map_some, this, if_true]

theorem updPort_frame (s : State) (id : PortId) (f : PortSt → PortSt) : s.updPort id f = { s with sais := (s.updPort id f).sais, aesis := (s.updPort id f).aesis } := by
  cases id <;> rfl

theorem portAt_raise (c k t n d) (s : State) (id : PortId) (g : GearId) (f : Gear → Gear) : ((raiseOwn c k t n d s).updGear g f).portAt id = s.portAt id := by
  rw [raiseOwn_frame]
  cases id <;> rfl

theorem pilotAt_eq {s : State} {n : Nat} {p : Pilot} (h : s.pilots[n]? = some p) : s.pilotAt n = p := by simp [State.pilotAt, h]

end Sys2Proof.Machine
end

