-- ==== Sys2Proof/Laws/UseNet.lean ====
section
/-! SUPPORT. MACs: counters and queues. -/

namespace Sys2Proof.Machine

theorem macAt_eq {s : State} {n : Nat} {m : Mac} (h : s.net.macs[n]? = some m) : s.macAt n = m := by simp [State.macAt, h]

theorem updMac_eq {s : State} {n : Nat} {m : Mac} (h : s.net.macs[n]? = some m) (f : Mac → Mac) :
    s.updMac n f = { s with net := { s.net with macs := s.net.macs.set n (f m) } } := by simp only [State.updMac, modify_set _ _ _ _ h]

theorem macCount_frame {s : State} {n : Nat} {m : Mac} (h : s.net.macs[n]? = some m) (k d : Nat) :
    macCount n k d s = { s with
      net := { s.net with macs := s.net.macs.set n { m with cnt := ((macCount n k d s).macAt n).cnt, halfStat := ((macCount n k d s).macAt n).halfStat } },
      regs := (macCount n k d s).regs } := by
  have hl := (List.getElem?_eq_some_iff.mp h).1
  have get : ∀ y, (s.net.macs.set n y)[n]? = some y := by intro y; rw [List.getElem?_set]; simp [hl]
  have e : macCount n k d s = { s with
      net := { s.net with macs := s.net.macs.set n { m with cnt := m.cnt.set k (m.cnt.getD k 0#32 + wd d), halfStat := if (m.cnt.getD k 0#32).getLsbD 31 != (m.cnt.getD k 0#32 + wd d).getLsbD 31 then m.halfStat ||| wd (2 ^ k) else m.halfStat } },
      regs := (macCount n k d s).regs } := by
    unfold macCount
    rw [raiseVecIf_frame]
    simp only [macAt_eq h, updMac_eq h]
  have e2 : (macCount n k d s).macAt n = { m with cnt := m.cnt.set k (m.cnt.getD k 0#32 + wd d), halfStat := if (m.cnt.getD k 0#32).getLsbD 31 != (m.cnt.getD k 0#32 + wd d).getLsbD 31 then m.halfStat ||| wd (2 ^ k) else m.halfStat } := by
    rw [e]; exact macAt_eq (get _)
  rw [e2]
  exact e

theorem macCount_only (n k d : Nat) (s : State) : ∃ x r, macCount n k d s = { s with net := x, regs := r } := by
  unfold macCount
  rw [raiseVecIf_frame]
  exact ⟨_, _, rfl⟩

theorem macCount_clk (n k d : Nat) (s : State) : (macCount n k d s).clk = s.clk := by
  obtain ⟨x, r, e⟩ := macCount_only n k d s
  rw [e]

end Sys2Proof.Machine
end

