-- ==== Sys2Proof/Laws/UseDram.lean ====
section
/-! SUPPORT. DRAM: slots, transactions, activations, the ladder of a failed channel. -/

namespace Sys2Proof.Machine

theorem chAt_eq {s : State} {ch : Nat} {c : DramCh} (h : s.dram.channels[ch]? = some c) : s.chAt ch = c := by simp [State.chAt, h]

theorem updCh_eq {s : State} {ch : Nat} {c : DramCh} (h : s.dram.channels[ch]? = some c) (f : DramCh → DramCh) :
    s.updCh ch f = { s with dram := { s.dram with channels := s.dram.channels.set ch (f c) } } := by
  simp only [State.updCh, State.updDram, modify_set _ _ _ _ h]

theorem dramChannel_eq (g : Nat) : (g ^^^ g / 2 ^ 9 ^^^ g / 2 ^ 17 ^^^ g / 2 ^ 25) % 2 = groupChannel g := by
  unfold groupChannel
  rw [xor_mod2, Nat.add_mod, xor_mod2, Nat.add_mod ((g ^^^ g / 2 ^ 9)), xor_mod2]
  omega

theorem place_inj (h1 h2 : Nat) (hb : (placeOf h1 0).bank = (placeOf h2 0).bank) (hr : (placeOf h1 0).row = (placeOf h2 0).row)
    (hs : (placeOf h1 0).slot = (placeOf h2 0).slot) : h1 = h2 := by
  simp only [placeOf] at *
  have hl : h1 / 56 = h2 / 56 := by omega
  have e : h1 % 8 = h2 % 8 := by
    rw [hl] at hb
    have := congrArg (· ^^^ (h2 / 56 / 8 % 8) ^^^ (h2 / 56 % 8)) hb
    simpa [Nat.xor_assoc, Nat.xor_comm, Nat.xor_left_comm] using this
  omega

theorem enterTx_write (sh : Bool) (t x : DramTx) (a : Nat) (l : List Byte) (s : State) (h1 : (s.chAt t.ch).failed = false) (h2 : t.write = true)
    (h3 : t.bound = false) (h4 : t.place.vault = false) (ha : t.place.group * 512 + t.off = a) (hl : t.data = l) (hx : { t with shared := sh } = x) :
    ∃ cs, enterTx sh t s = { s with dram := { s.dram with
      normal := s.dram.normal.putBytes a l, entries := s.dram.entries ++ [x], channels := cs } } := by
  subst hx; subst ha; subst hl
  unfold enterTx
  rw [if_neg (by simp [h1]), if_pos h2]
  have e : (t.bound && t.place.vault) = false := by simp [h3]
  rw [e]
  simp only [Bool.false_eq_true, if_false, dramStore, h4, State.updDram, State.updCh]
  exact ⟨_, rfl⟩

theorem enterTx_read (sh : Bool) (t x : DramTx) (s : State) (h1 : (s.chAt t.ch).failed = false) (h2 : t.write = false)
    (h4 : t.place.vault = false)
    (hx : { t with shared := sh, data := s.dram.normal.bytes (t.place.group * 512 + t.off) t.bytes } = x) (h5 : coveredByWrites s.dram.entries x = false) :
    enterTx sh t s = { s with dram := { s.dram with entries := s.dram.entries ++ [x] } } := by
  have e' : dramRead s.dram t = s.dram.normal.bytes (t.place.group * 512 + t.off) t.bytes := by simp [dramRead, h4]
  unfold enterTx
  rw [if_neg (by simp [h1]), if_neg (by simp [h2])]
  rw [e', hx]
  show (if coveredByWrites s.dram.entries x = true then _ else _) = _
  rw [if_neg (by simp [h5])]
  rfl

theorem raiseMem_frame (code : Nat) (k : StampKind) (t cls d : Nat) (is : List Item) (s : State) :
    raiseMem code k t cls d is s = { s with
      rings := (raiseMem code k t cls d is s).rings, regs := (raiseMem code k t cls d is s).regs,
      ledg := { s.ledg with queue := (raiseMem code k t cls d is s).ledg.queue, suppressed := (raiseMem code k t cls d is s).ledg.suppressed } } :=
  raiseEvent_frame _ _

theorem raiseMem_dram (code : Nat) (k : StampKind) (t cls d : Nat) (is : List Item) (s : State) : (raiseMem code k t cls d is s).dram = s.dram := by
  rw [raiseMem_frame]

theorem raiseLimited_dram (code : Nat) (k : StampKind) (t : Nat) (n : Option Node) (m : Nat) (is : List Item) (s : State) :
    (raiseLimited code k t n m is s).dram = s.dram := by
  unfold raiseLimited
  split
  · rfl
  · extract_lets l hits due l' s2
    split
    · rw [raiseNode_frame]
    · rfl

theorem updCh_set {s : State} {ch : Nat} {c : DramCh} (h : s.dram.channels[ch]? = some c) (f : DramCh → DramCh) :
    (s.updCh ch f).dram.channels[ch]? = some (f c) := by
  have hl := (List.getElem?_eq_some_iff.mp h).1
  rw [updCh_eq h]; simp only; rw [List.getElem?_set]; simp [hl]

theorem activate_spec (ch : Nat) (p : Place) (req cls : Nat) (o : Bool) (s : State) (c : DramCh) (h : s.dram.channels[ch]? = some c) :
    ∃ c', c'.slot = c.slot ∧ (activate ch p req cls o s).dram = { s.dram with channels := s.dram.channels.set ch c' }
      ∧ activate ch p req cls o s = { s with
          dram := (activate ch p req cls o s).dram, rings := (activate ch p req cls o s).rings, regs := (activate ch p req cls o s).regs,
          ledg := { s.ledg with queue := (activate ch p req cls o s).ledg.queue, suppressed := (activate ch p req cls o s).ledg.suppressed } } := by
  unfold activate
  extract_lets g x now s1 first rows s2
  obtain ⟨c1, hs1, e1, h1⟩ : ∃ c1 : DramCh, c1.slot = c.slot ∧ s1 = { s with dram := { s.dram with channels := s.dram.channels.set ch c1 } }
      ∧ s1.dram.channels[ch]? = some c1 := ⟨_, by rfl, updCh_eq h _, updCh_set h _⟩
  obtain ⟨c2, hs2, e2⟩ : ∃ c2 : DramCh, c2.slot = c1.slot ∧ s2 = { s1 with dram := { s1.dram with channels := s1.dram.channels.set ch c2 } } :=
    ⟨_, by rfl, updCh_eq h1 _⟩
  split
  · refine ⟨c1, hs1, ?_, ?_⟩
    · rw [e1]
    · rw [e1]
  · rw [raiseMem_frame]
    refine ⟨c2, hs2.trans hs1, ?_, ?_⟩
    · rw [e2, e1]; simp only [List.set_set]; rfl
    · rw [e2, e1]

theorem settleScale_keep {γ : Type} (g : State → γ) (hg : ∀ (s : State) b, g { s with buses := b } = g s) (o : Option Nat) (s : State) : g (settleScale o s) = g s := by
  unfold settleScale
  apply foldl_keep
  intro u b
  dsimp only
  split
  · rfl
  · exact hg _ _

theorem takeStep_dram (b k : Nat) (s : State) : (takeStep b k s).dram = s.dram ∧ (takeStep b k s).ladder.pos = s.ladder.pos := by
  unfold takeStep
  split <;> first | exact ⟨rfl, rfl⟩ | (simp only [shedTails]; exact ⟨raiseOwn_dram _ _ _ _ _ _, raiseOwn_pos _ _ _ _ _ _⟩)

theorem takeSteps_dram (b n : Nat) (u : Bool) (s : State) : (takeSteps b n u s).dram = s.dram := by
  unfold takeSteps
  extract_lets ks s1 s2
  have e1 : s1.dram = s.dram := by
    apply foldl_keep (g := fun s : State => s.dram)
    intro v k
    simp only [raiseOwn_dram, moveTo, (takeStep_dram _ _ _).1]
  have e2 : s2.dram = s.dram := by
    show (if _ then _ else _ : State).dram = _
    split
    · rw [raiseOwn_dram, e1]
    · exact e1
  split
  · exact e2
  · rw [settleScale_keep (fun s => s.dram) (fun _ _ => rfl), e2]

theorem takeSteps_pos (b n : Nat) (u : Bool) (s : State) (hn : n < 8) : (takeSteps b n u s).ladder.pos = max n s.ladder.pos := by
  unfold takeSteps
  extract_lets ks s1 s2
  have key : ∀ (l : List Nat) (v : State), (l.foldl (fun s k => raiseOwn 0xA009 .boundary b none (k + 256 + (if (u && k == n) = true then 32768 else 0)) (moveTo b k (takeStep b k s))) v).ladder.pos = l.getLast?.getD v.ladder.pos := by
    intro l
    induction l with
    | nil => intro v; rfl
    | cons k l ih =>
      intro v
      rw [List.foldl_cons, ih, raiseOwn_pos, List.getLast?_cons]
      simp [moveTo]
  have hlast : ks.getLast?.getD s.ladder.pos = max n s.ladder.pos := by
    show ((List.range 8).filter fun k => decide (s.ladder.pos < k) && decide (k ≤ n)).getLast?.getD s.ladder.pos = _
    generalize s.ladder.pos = p
    by_cases hp : p < 8
    · have : ∀ n < 8, ∀ p < 8, ((List.range 8).filter fun k => decide (p < k) && decide (k ≤ n)).getLast?.getD p = max n p := by decide
      exact this n hn p hp
    · rw [List.filter_eq_nil_iff.mpr]
      · simp; omega
      · intro a ha
        have := List.mem_range.mp ha
        simp; omega
  have e1 : s1.ladder.pos = max n s.ladder.pos := by rw [← hlast]; exact key _ _
  have e2 : s2.ladder.pos = max n s.ladder.pos := by
    show (if _ then _ else _ : State).ladder.pos = _
    split
    · rw [raiseOwn_pos, e1]
    · exact e1
  split
  · exact e2
  · rw [settleScale_keep (fun s => s.ladder.pos) (fun _ _ => rfl), e2]

theorem failChannel_dram (b ch r : Nat) (x : State) : (failChannel b ch r x).dram = { x.dram with
    normal := [], channels := x.dram.channels.modify ch fun y => { y with failed := true, failing := none } } := by
  simp -zeta only [failChannel]
  extract_lets s1 s2 s3 f ws s4 l0 s5 slot
  have e3 : s3.dram = { x.dram with channels := x.dram.channels.modify ch fun y => { y with failed := true, failing := none } } := by
    show (takeSteps b 4 false s2).dram = _
    rw [takeSteps_dram]
    show (raiseMem _ _ _ _ _ _ s1).dram = _
    rw [raiseMem_dram]; rfl
  have e5 : s5.dram = s3.dram := by
    show (List.foldl (fun (s : State) n => raiseOwn 0xA00F .boundary b (some n) 0 s) _ _).dram = _
    rw [(fold_raise_keep b _ _ _).1]; rfl
  show { s5.dram with normal := [] } = _
  rw [e5, e3]

theorem failChannel_pos (b ch r : Nat) (x : State) : (failChannel b ch r x).ladder.pos = max 4 x.ladder.pos := by
  simp -zeta only [failChannel]
  extract_lets s1 s2 s3 f ws s4 l0 s5 slot
  have e3 : s3.ladder.pos = max 4 x.ladder.pos := by
    show (takeSteps b 4 false s2).ladder.pos = _
    rw [takeSteps_pos _ _ _ _ (by omega)]
    show max 4 (raiseMem _ _ _ _ _ _ s1).ladder.pos = _
    rw [raiseMem_frame]; rfl
  have e5 : s5.ladder.pos = s3.ladder.pos := by
    show (List.foldl (fun (s : State) n => raiseOwn 0xA00F .boundary b (some n) 0 s) _ _).ladder.pos = _
    rw [(fold_raise_keep b _ _ _).2]; rfl
  show s5.ladder.pos = _
  rw [e5, e3]

end Sys2Proof.Machine
end

