-- ==== Sys2Proof/Laws/UseHost.lean ====
section
/-! SUPPORT. Host access: registers, paired halves, HostDMA, the monitor. -/

namespace Sys2Proof.Machine

theorem regAddr_eq {m : Master} {base : Nat} (hb : base = (if m = .tellerA ∨ m = .tellerB then 0x10000000 else 0)) (r : Nat) : base + r = regAddr m r := by
  subst hb; cases m <;> simp [regAddr, isTeller]

theorem ctl_reg (s : State) (m : Master) (r : Nat) (h : r < 0x100000) : ctlPart s m (0x10000000 + r) = .reg r := by
  unfold ctlPart
  extract_lets k low
  rw [if_neg (by omega), if_neg (by omega), if_pos (by omega)]
  have : 0x10000000 + r - 0x10000000 = r := by omega
  rw [this]

theorem busWrite_reg (m : Master) (r : Nat) (v : Word) (s t : State) (h : r < 0x100000) (ht : isTeller m = true ∨ tellerOnly r = false)
    (hw : regWrite m r v s = some t) : busWrite m (regAddr m r) v s = (false, t) := by
  by_cases hm : isTeller m = true
  · simp only [busWrite, regAddr, hm, if_true, ctl_reg s m r h, hw]
  · have ht2 : tellerOnly r = false := by rcases ht with h | h; exact absurd h hm; exact h
    simp only [busWrite, regAddr, hm, Bool.false_eq_true, if_false, h, if_true, ht2, hw]

theorem busRead_reg (m : Master) (r : Nat) (v : Word) (s t : State) (h : r < 0x100000) (ht : isTeller m = true ∨ tellerOnly r = false)
    (hw : regRead m r s = some (v, t)) : busRead m (regAddr m r) s = (some v, t) := by
  by_cases hm : isTeller m = true
  · simp only [busRead, regAddr, hm, if_true, ctl_reg s m r h, hw]
  · have ht2 : tellerOnly r = false := by rcases ht with h | h; exact absurd h hm; exact h
    simp only [busRead, regAddr, hm, Bool.false_eq_true, if_false, h, if_true, ht2, hw]

theorem regAddr_mod (m : Master) (r : Nat) : regAddr m r % 4 = r % 4 := by
  unfold regAddr; split <;> omega

theorem masterWrite_reg (m : Master) (r : Nat) (v : Nat) (s t : State) (h : r < 0x100000) (h4 : r % 4 = 0) (ht : isTeller m = true ∨ tellerOnly r = false)
    (hon : hostOn s m = true) (hw : regWrite m r (wd v) s = some t) : masterWrite m (regAddr m r) 4 v s = t := by
  unfold masterWrite
  rw [if_neg (by simp [hon, Machine.sizeOk])]
  unfold accessWrite
  rw [if_neg (by rw [show min 4 4 = 4 from rfl, regAddr_mod]; omega), if_neg (by omega)]
  have : (List.range (4 / 4)).map (fun i => wd (v / 2 ^ (32 * i))) = [wd v] := by simp [List.range_succ]
  rw [this]
  simp only [writeRun, busWrite_reg m r _ s t h ht hw]

theorem masterRead_reg (m : Master) (r : Nat) (v : Word) (s t : State) (h : r < 0x100000) (h4 : r % 4 = 0) (ht : isTeller m = true ∨ tellerOnly r = false)
    (hon : hostOn s m = true) (hw : regRead m r s = some (v, t)) :
    masterRead m (regAddr m r) 4 s = { t with regs := { t.regs with readData := [some v] } } := by
  unfold masterRead
  rw [if_neg (by simp [hon, Machine.sizeOk])]
  unfold access
  rw [if_neg (by rw [show min 4 4 = 4 from rfl, regAddr_mod]; omega), if_neg (by omega)]
  simp only [show 4 / 4 = 1 from rfl, readRun, busRead_reg m r _ s t h ht hw, State.updRegs]

theorem half_off {m : Master} {a : Nat} (ha : a ∈ [0x60, 0x68, 0x70, 0xA008, 0xF008]) (hm : a = 0x60 ∨ a = 0x70 → m = .tellerA ∨ m = .tellerB) :
    (isTeller m = true ∨ tellerOnly a = false) ∧ (isTeller m = true ∨ tellerOnly (a + 4) = false) := by
  simp only [List.mem_cons, List.not_mem_nil, or_false] at ha
  rcases ha with rfl | rfl | rfl | rfl | rfl
  · rcases hm (Or.inl rfl) with rfl | rfl <;> exact ⟨Or.inl rfl, Or.inl rfl⟩
  · exact ⟨Or.inr (by decide), Or.inr (by decide)⟩
  · rcases hm (Or.inr rfl) with rfl | rfl <;> exact ⟨Or.inl rfl, Or.inl rfl⟩
  · exact ⟨Or.inr (by decide), Or.inr (by decide)⟩
  · exact ⟨Or.inr (by decide), Or.inr (by decide)⟩

theorem refuse_busErr (m : Master) (a k : Nat) (w : Bool) (s : State) : (refuse m a k w s).regs.err.busErr = true := by
  simp only [refuse, busError]
  split
  · rfl
  · rfl

theorem busWrite_flag (m : Master) (a : Nat) (v : Word) (s : State) : (busWrite m a v s).1 = true → (busWrite m a v s).2.regs.err.busErr = true := by
  unfold busWrite
  extract_lets bad good window
  have hbad : ∀ k, (bad k).2.regs.err.busErr = true := fun k => refuse_busErr _ _ _ _ _
  have hgood : ∀ x, (good x).1 = true → (good x).2.regs.err.busErr = true := by
    intro x
    cases x with
    | none => intro _; exact hbad _
    | some t => intro h; exact absurd h (by show ¬(false = true); simp)
  have hwin : ∀ x, (window x).1 = true → (window x).2.regs.err.busErr = true := by
    intro x
    show (match windowAccess x true (bytesOf v) s with | .ok y => (false, y.2) | .error k => bad k : Bool × State).1 = true → _
    intro h
    show (match windowAccess x true (bytesOf v) s with | .ok y => (false, y.2) | .error k => bad k : Bool × State).2.regs.err.busErr = true
    split at h
    · simp at h
    · exact hbad _
  split
  · split
    · simp
    · simp
    · exact hgood _
    · split
      · simp
      · intro _; exact hbad _
    · exact hwin _
    · intro _; exact hbad _
  · split
    · split
      · intro _; exact hbad _
      · exact hgood _
    · split
      · split
        · split
          · simp
          · intro _; exact hbad _
        · intro _; exact hbad _
      · split
        · split
          · simp
          · split
            · simp
            · intro _; exact hbad _
        · split
          · exact hwin _
          · intro _; exact hbad _

theorem wordOf_toNat (w : Word) : wd w.toNat = w := by simp [wd]

theorem spiFlags_applied (x : Nat) : b2n true ||| x / 2 * 2 ||| b2n false * 2 ||| b2n false * 4 ||| b2n false * 8 = 1 ||| x / 2 * 2 := by
  simp [b2n]

theorem oneBit_get (v n : Nat) (hn : n < 4) (k : Nat) (hk : k < 4) : (BitVec.ofNat 32 (2 ^ n)).getLsbD k = decide (k = n) := by
  revert n k; decide

theorem oneBit_filter (n : Nat) (hn : n < 4) : (List.range 4).filter (fun k => (BitVec.ofNat 32 (2 ^ n)).getLsbD k) = [n] := by
  revert n; decide

theorem admitPorts_nil (u : State) (hu : u.dram.ports = []) : admitPorts u = u := by
  simp only [admitPorts, hu, List.foldl_nil, State.updDram]
  rw [← hu]

theorem posted_zero {size wr rd : Nat} (h1 : wr < 2 * size) (h2 : rd < 2 * size) (h : wr ≠ rd) : posted size wr rd ≠ 0 := by
  unfold posted
  intro e
  have hs : 0 < 2 * size := by omega
  rcases Nat.lt_or_ge wr rd with c | c
  · rw [Nat.mod_eq_of_lt (by omega)] at e; omega
  · have : (wr + 2 * size - rd) = (wr - rd) + 2 * size := by omega
    rw [this, Nat.add_mod_right, Nat.mod_eq_of_lt (by omega)] at e; omega

theorem hd_gate {q : Nat} {h : HdQueue} {s : State} (hq : q < 8) (hh : s.regs.hd[q]? = some h) (he : h.enable = true) (hc : h.cur = none)
    (k4 : 4 ≤ h.k) (k12 : h.k ≤ 12) (h1 : h.wr < 2 ^ (h.k + 1)) (h2 : h.rd < 2 ^ (h.k + 1)) (h3 : h.wr ≠ h.rd) (w : List Word) (hw : w.length = 4) :
    ¬((8 ≤ q || !(s.hdAt q).enable || (s.hdAt q).cur.isSome || posted (2 ^ (s.hdAt q).kEff) (s.hdAt q).wr (s.hdAt q).rd = 0 || w.length ≠ 4) = true) := by
  have hat : s.hdAt q = h := by simp [State.hdAt, hh]
  have hk : h.kEff = h.k := by simp [HdQueue.kEff, k4, k12]
  have e2 : 2 * 2 ^ h.k = 2 ^ (h.k + 1) := by rw [Nat.pow_succ]; omega
  have := posted_zero (size := 2 ^ h.k) (by omega) (by omega) h3
  simp [hat, hk, he, hc, hw, this, hq]

end Sys2Proof.Machine
end

