-- ==== Sys2Proof/Laws/UsePower.lean ====
section
/-! SUPPORT. Resets: what boot leaves as the reset made it. -/

namespace Sys2Proof.Machine

/-- What the boot flow leaves as the reset made it. -/
def kept (s : State) := (s.svc, s.fw, s.armed, s.adm, s.boot.ready, s.boot.porst, s.boot.hostStrap, s.boot.monStrap, s.feeds, s.chans, s.dram, s.mbox, s.clk, s.flash, s.ledg.resets)

theorem kept_raise (c k t n d s) : kept (raiseOwn c k t n d s) = kept s := raiseOwn_keep kept (fun _ _ _ _ _ => rfl) c k t n d s

theorem kept_foldl {α : Type} (f : State → α → State) (h : ∀ s a, kept (f s a) = kept s) (l : List α) (s : State) : kept (l.foldl f s) = kept s :=
  foldl_keep f kept h l s

theorem kept_enter (n st : Nat) (f) (s : State) : kept (enterPilot n st f s) = kept s := by unfold enterPilot; dsimp only; rw [kept_raise]; rfl

theorem kept_on (n : Nat) (s : State) : kept (pilotOn n s) = kept s := by
  unfold pilotOn; dsimp only; split <;> first | rfl | (rw [kept_enter]; rfl)

theorem kept_hiz (n : Nat) (s : State) : kept (pilotHiz n s) = kept s := by
  unfold pilotHiz; dsimp only; split <;> first | rfl | (rw [kept_enter]; rfl)

theorem kept_bellEvent (c n : Nat) (s : State) : kept (bellEvent c n s) = kept s := by unfold bellEvent; split; exact kept_raise _ _ _ _ _ _; rfl

theorem kept_bellStop (n : Nat) (s : State) : kept (bellStop n s) = kept s := by unfold bellStop; rw [kept_bellEvent]; rfl

theorem kept_bellBegin (n : Nat) (s : State) : kept (bellBegin n s) = kept s := by unfold bellBegin; dsimp only; split <;> rfl

theorem kept_trig (n : Nat) (f) (s : State) : kept (s.updTrig n f) = kept s := rfl

theorem kept_look (n : Nat) (s : State) : kept (bellLook n s) = kept s := by
  unfold bellLook
  extract_lets now t u v so fo w
  have hu : kept u = kept s := kept_trig n _ s
  have hv : kept v = kept u := kept_bellEvent _ _ _
  have hw : kept w = kept u := kept_trig n _ u
  clear_value w
  have hx : kept { w with bell := { w.bell with routes := w.bell.routes.map fun r => { r with voices := r.voices.map fo } } } = kept w := rfl
  clear_value v fo so
  clear_value u now t
  split
  · rfl
  · split
    · split
      · rw [kept_trig, hv, hu]
      · rw [kept_bellBegin, hv, hu]
    · split
      · rw [kept_bellEvent, hu]
      · split
        · exact hu
        · split
          · exact hw.trans hu
          · rw [kept_bellStop, hu]

theorem kept_lookAll (s : State) : kept (bellLookAll s) = kept s := kept_foldl _ (fun _ _ => kept_look _ _) _ _

theorem kept_bellPilots (s : State) : kept (bellPilots s) = kept s := by
  unfold bellPilots
  split
  · rfl
  · apply kept_foldl; intro s n; split
    · unfold bellEnablePilot; rw [kept_on]; rfl
    · rfl

theorem kept_bootConfig (s : State) : kept (bootConfig s) = kept s := rfl

theorem kept_bootBell (s : State) : kept (bootLoadBell s) = kept s := by
  unfold bootLoadBell
  rw [kept_lookAll, kept_bellPilots]; rfl

theorem kept_raiseOn (e : Event) (s : State) (i : Nat) : kept (raiseOn e s i) = kept s := by rw [raiseOn_frame]; rfl

theorem kept_entry (e : Event) (r : Nat) (s : State) : kept (writeEntry e r s) = kept s := by
  unfold writeEntry
  extract_lets l ws n head entry old
  rfl

theorem kept_record (c i : Nat) (s : State) : kept (recordCause c i s) = kept s := by
  unfold recordCause
  extract_lets e
  exact (kept_entry _ _ _).trans (kept_foldl _ (fun _ _ => kept_raiseOn _ _ _) _ _)

theorem kept_jump (s : State) : kept (bootJump s) = kept s := by unfold bootJump; split <;> rfl

theorem kept_faults (s : State) : kept (settleFaults s) = kept s := by rw [settleFaults_frame]; rfl

theorem kept_warm (f) (s : State) : kept (warmPilots f s) = kept s := by
  unfold warmPilots
  apply kept_foldl; intro s n; split
  · rfl
  · show kept (pilotHiz n s) = _; exact kept_hiz _ _

theorem kept_warmReset (c : Nat) (s : State) : kept (warmReset c s) = kept (resetCore s) := by
  unfold warmReset
  extract_lets image named u crc v
  rw [kept_faults, kept_jump, kept_record]
  have hu : kept u = kept (resetCore s) := by show kept (bootConfig _) = _; rw [kept_bootConfig, kept_warm]
  have hv : kept v = kept u := by
    show kept (if _ then _ else _) = _
    split
    · rfl
    · exact kept_bootBell _
  rw [hv, hu]

end Sys2Proof.Machine
end

