-- ==== Sys2Proof/Laws/UseService.lean ====
section
/-! SUPPORT. Staying in service: the ladder, spares and schedules. -/

namespace Sys2Proof.Machine

theorem closeFrame_tally (s : State) : (closeFrame s).clk.tally = s.clk.tally := congrArg Skel.tally (closeFrame_skel s)

theorem moveAuditors_keep {γ : Type} (g : State → γ) (hr : ∀ c k t n d s, g (raiseOwn c k t n d s) = g s)
    (ha : ∀ (s : State) a, g { s with adm := { s.adm with auditors := a } } = g s) (b x : Nat) (s : State) : g (moveAuditors b x s) = g s := by
  unfold moveAuditors
  apply foldl_keep
  intro u e
  dsimp only
  split
  · exact ha _ _
  · rw [hr, ha]

theorem takeSchedule_place (b sp x : Nat) (p : Bool) (s : State) : (takeSchedule b sp x p s).adm.place =
    s.adm.place.map (fun e => (e.1, (if e.2.1 = sp then x else e.2.1), e.2.2.map fun k => if k = sp then x else k)) := by
  unfold takeSchedule
  dsimp only
  rw [moveAuditors_keep (fun s => s.adm.place) (raiseOwn_keep (fun s => s.adm.place) fun _ _ _ _ _ => rfl) (fun _ _ => rfl),
    raiseOwn_keep (fun s => s.adm.place) fun _ _ _ _ _ => rfl]
  rfl

theorem takeSchedule_spokes (b sp x : Nat) (p : Bool) (s : State) : (takeSchedule b sp x p s).spokes = (setRole x 0 s).spokes := by
  unfold takeSchedule
  dsimp only
  rw [moveAuditors_keep (fun s => s.spokes) (raiseOwn_keep (fun s => s.spokes) fun _ _ _ _ _ => rfl) (fun _ _ => rfl),
    raiseOwn_keep (fun s => s.spokes) fun _ _ _ _ _ => rfl]

theorem takeSchedule_keep {γ : Type} (g : State → γ) (h1 : ∀ c k t n d s, g (raiseOwn c k t n d s) = g s)
    (h2 : ∀ (s : State) a, g { s with adm := a } = g s) (h3 : ∀ (s : State) a, g { s with spokes := a } = g s) (b sp x : Nat) (p : Bool) (s : State) :
    g (takeSchedule b sp x p s) = g s := by
  unfold takeSchedule
  dsimp only
  rw [moveAuditors_keep g h1 (fun s a => h2 s _), h1, h2]
  exact h3 _ _

theorem takeSteps_keep {γ : Type} (g : State → γ) (h1 : ∀ c k t n d s, g (raiseOwn c k t n d s) = g s) (h2 : ∀ (s : State) b, g { s with buses := b } = g s)
    (h3 : ∀ (s : State) b n, g (moveTo b n s) = g s) (h4 : ∀ b k s, g (takeStep b k s) = g s) (b n : Nat) (u : Bool) (s : State) : g (takeSteps b n u s) = g s := by
  unfold takeSteps
  extract_lets ks s1 s2
  have e1 : g s1 = g s := by
    apply foldl_keep (g := g)
    intro v k
    rw [h1, h3, h4]
  have e2 : g s2 = g s := by
    show g (if _ then _ else _) = _
    split
    · rw [h1, e1]
    · exact e1
  split
  · exact e2
  · rw [settleScale_keep g h2, e2]

end Sys2Proof.Machine
end

