-- ==== Sys2Proof/Laws/UseRecord.lean ====
section
/-! SUPPORT. Event rings, paths and text: records written, words read back. -/

namespace Sys2Proof.Machine

theorem Mem.word_putWord_same (m : Mem) (a : Nat) (w : Word) : (m.putWord a w).word a = w := by
  unfold Mem.word Mem.putWord
  simp only [Mem.get_putBytes, Nat.le_refl, if_true, Nat.sub_self, Nat.le_add_right, Nat.add_sub_cancel_left]
  have h := wordOfBytes_bytesOf w
  simp only [bytesOf, List.getElem?_cons_zero, List.getElem?_cons_succ, Option.getD_some] at h ⊢
  exact h

theorem Mem.word_putWord_other (m : Mem) (a b : Nat) (w : Word) (h : b + 4 ≤ a ∨ a + 4 ≤ b) : (m.putWord a w).word b = m.word b := by
  unfold Mem.word
  rw [Mem.get_putWord_other, Mem.get_putWord_other, Mem.get_putWord_other, Mem.get_putWord_other] <;> omega

/-- Every ring word outside the words put reads as before. -/
theorem Mem.word_ringPut_other (size : Nat) (ws : List Word) (m : Mem) (pos p : Nat) (h : ∀ i, i < ws.length → p ≠ (pos + i) % size) :
    (ringPut size m pos ws).word (4 * p) = m.word (4 * p) := by
  induction ws generalizing m pos with
  | nil => rfl
  | cons w ws ih =>
    rw [ringPut, ih]
    · have := h 0 (by simp)
      simp only [Nat.add_zero] at this
      exact Mem.word_putWord_other _ _ _ _ (by omega)
    · intro i hi
      have := h (i + 1) (by simpa using hi)
      rw [Nat.add_right_comm, Nat.add_assoc]
      exact this

/-- The words put in a ring read back. -/
theorem Mem.word_ringPut_at (size : Nat) (ws : List Word) (m : Mem) (pos i : Nat) (hl : ws.length ≤ size) (hi : i < ws.length) :
    (ringPut size m pos ws).word (4 * ((pos + i) % size)) = ws.getD i 0 := by
  induction ws generalizing m pos i with
  | nil => simp at hi
  | cons w ws ih =>
    rw [ringPut]
    simp only [List.length_cons] at hl hi
    cases i with
    | zero =>
      rw [Mem.word_ringPut_other]
      · simp [Mem.word_putWord_same]
      · intro k hk he
        simp only [Nat.add_zero] at he
        have h1 : (pos + 1 + k) % size = (pos + (1 + k)) % size := by rw [Nat.add_assoc]
        rw [h1] at he
        have h2 : (pos + 0) ≡ (pos + (1 + k)) [MOD size] := he
        have h3 := Nat.ModEq.add_left_cancel' pos h2
        have h4 : (1 + k) % size = 1 + k := Nat.mod_eq_of_lt (by omega)
        unfold Nat.ModEq at h3
        rw [h4, Nat.zero_mod] at h3
        omega
    | succ k =>
      have := ih (m.putWord (4 * (pos % size)) w) (pos + 1) k (by omega) (by omega)
      rw [show pos + (k + 1) = pos + 1 + k by omega, this]
      rfl

theorem textBytes_pack (txt : Name) (h : ∀ c ∈ txt, 1 ≤ c ∧ c < 256) : ∃ k, textBytes (packText txt) = txt ++ List.replicate k 0 := by
  induction txt using packText.induct with
  | case1 => exact ⟨0, rfl⟩
  | case2 a =>
    have := h a (by simp)
    refine ⟨3, ?_⟩
    simp [packText, textBytes, bytesOf, wd, BitVec.extractLsb'_toNat, Nat.shiftRight_eq_div_pow, List.replicate]
    omega
  | case3 a b =>
    have := h a (by simp); have := h b (by simp)
    refine ⟨2, ?_⟩
    simp [packText, textBytes, bytesOf, wd, BitVec.extractLsb'_toNat, Nat.shiftRight_eq_div_pow, List.replicate]
    omega
  | case4 a b c =>
    have := h a (by simp); have := h b (by simp); have := h c (by simp)
    refine ⟨1, ?_⟩
    simp [packText, textBytes, bytesOf, wd, BitVec.extractLsb'_toNat, Nat.shiftRight_eq_div_pow, List.replicate]
    omega
  | case5 a b c d r ih =>
    obtain ⟨k, hk⟩ := ih (fun x hx => h x (by simp [hx]))
    have := h a (by simp); have := h b (by simp); have := h c (by simp); have := h d (by simp)
    refine ⟨k, ?_⟩
    have e : textBytes (packText (a :: b :: c :: d :: r)) = textBytes [wd (a + 256 * b + 65536 * c + 16777216 * d)] ++ textBytes (packText r) := by
      simp [packText, textBytes]
    rw [e, hk]
    simp [textBytes, bytesOf, wd, BitVec.extractLsb'_toNat, Nat.shiftRight_eq_div_pow]
    omega

theorem idxSeg_one (n : Nat) (h : n < 10) (hi : Nat) (hh : n < hi) : idxSeg 1 0 hi (digits 1 n) = some n := by
  have : ∀ n < 10, (digits 1 n).all isDigit = true ∧ (digits 1 n).length = 1 ∧ digitsVal (digits 1 n) = n := by decide +kernel
  obtain ⟨a, b, c⟩ := this n h
  simp [idxSeg, a, b, c, hh]

theorem idxSeg_two (n : Nat) (h : n < 100) (lo hi : Nat) (hl : lo ≤ n) (hh : n < hi) : idxSeg 2 lo hi (digits 2 n) = some n := by
  have : ∀ n < 100, (digits 2 n).all isDigit = true ∧ (digits 2 n).length = 2 ∧ digitsVal (digits 2 n) = n := by decide +kernel
  obtain ⟨a, b, c⟩ := this n h
  simp [idxSeg, a, b, c, hl, hh]

theorem idxSeg_three (n : Nat) (h : n < 1000) (hi : Nat) (hh : n < hi) : idxSeg 3 0 hi (digits 3 n) = some n := by
  have : ∀ n < 1000, (digits 3 n).all isDigit = true ∧ (digits 3 n).length = 3 ∧ digitsVal (digits 3 n) = n := by decide +kernel
  obtain ⟨a, b, c⟩ := this n h
  simp [idxSeg, a, b, c, hh]

theorem idxSeg_four (n : Nat) (h : n < 1024) (hi : Nat) (hh : n < hi) : idxSeg 4 0 hi (digits 4 n) = some n := by
  have : ∀ n < 1024, (digits 4 n).all isDigit = true ∧ (digits 4 n).length = 4 ∧ digitsVal (digits 4 n) = n := by decide +kernel
  obtain ⟨a, b, c⟩ := this n h
  simp [idxSeg, a, b, c, hh]

theorem digits_ne_till (n : Nat) (h : n < 1024) : (digits 4 n == nm "till") = false := by
  have : ∀ n < 1024, (digits 4 n == nm "till") = false := by decide +kernel
  exact this n h

theorem raiseOn_other (e : Event) (s : State) (i k : Nat) (h : i ≠ k) : (raiseOn e s i).rings[k]? = s.rings[k]? := by
  unfold raiseOn
  split
  · rfl
  · rw [raiseVecIf_frame]
    simp [List.getElem?_set, h]

theorem raiseOn_at (e : Event) (s : State) (k : Nat) (r : EvRing) (h : s.rings[k]? = some r) :
    (raiseOn e s k).rings[k]? = some (r.raise s e).1
    ∧ ((r.raise s e).2 = true → r.irqEn = true → k < 8 → (raiseOn e s k).regs.irqPend.getLsbD (8 + k) = true) := by
  obtain ⟨hk, rfl⟩ := List.getElem?_eq_some_iff.mp h
  unfold raiseOn
  simp only [h]
  refine ⟨?_, ?_⟩
  · rw [raiseVecIf_frame]; simp [hk]
  · intro h1 h2 h3
    simp only [h1, h2, Bool.and_self, raiseVecIf, if_true, raiseVec, State.updRegs]
    interval_cases k <;> simp [wd]

theorem pend_mono (e : Event) (s : State) (i b : Nat) (h : s.regs.irqPend.getLsbD b = true) : (raiseOn e s i).regs.irqPend.getLsbD b = true := by
  unfold raiseOn
  cases s.rings[i]? with
  | none => exact h
  | some r =>
    dsimp only
    unfold raiseVecIf
    split
    · simp [raiseVec, State.updRegs, h]
    · exact h

theorem words_congr (e : Event) (s u : State) (q : Nat) (h : u.fw = s.fw) : e.words u q = e.words s q := by
  have hh : handleOf u = handleOf s := by funext x; simp only [handleOf, handleRec, h]
  simp only [Event.words, hh]

theorem lost_congr (s u : State) (n q : Nat) (h1 : u.fw = s.fw) (h2 : u.clk = s.clk) : (lostEvent u n).words u q = (lostEvent s n).words s q := by
  rw [words_congr _ s u q h1]; simp only [lostEvent, h2]

theorem raise_congr (e : Event) (s u : State) (r : EvRing) (h1 : u.fw = s.fw) (h2 : u.clk = s.clk) : r.raise u e = r.raise s e := by
  unfold EvRing.raise
  simp only [words_congr e s u _ h1, lost_congr s u _ _ h1 h2]

theorem raise_off (e : Event) (s : State) (r : EvRing) (h : r.enable = false ∨ bitOf r.mask (e.code / 4096) = false) : r.raise s e = (r, false) := by
  unfold EvRing.raise
  rw [if_pos]
  rcases h with h | h <;> simp [h]

/-- The ring once ESEQ has countedRing a record. -/
def countedRing (r : EvRing) : EvRing := { r with eseq := (r.eseq + 1) % 2 ^ 32 }

theorem raise_on (e : Event) (s : State) (r : EvRing) (h1 : r.enable = true) (h2 : bitOf r.mask (e.code / 4096) = true) :
    r.raise s e = (match (countedRing r).run with
    | none => if (e.words s r.eseq).length ≤ (countedRing r).space then ((countedRing r).write (e.words s r.eseq), true) else ((countedRing r).lose r.eseq, false)
    | some (f, n) =>
      if (countedRing r).space < 6 then ((countedRing r).lose r.eseq, false)
      else
        if (e.words s r.eseq).length ≤ ({ ((countedRing r).write ((lostEvent s n).words s f)) with run := none } : EvRing).space then
          (({ ((countedRing r).write ((lostEvent s n).words s f)) with run := none } : EvRing).write (e.words s r.eseq), true)
        else (({ ((countedRing r).write ((lostEvent s n).words s f)) with run := none } : EvRing).lose r.eseq, true)) := by
  unfold EvRing.raise
  rw [if_neg (by simp [h1, h2])]
  rfl

theorem ringPut_append (size : Nat) (a b : List Word) : ∀ (m : Mem) (pos : Nat), ringPut size m pos (a ++ b) = ringPut size (ringPut size m pos a) (pos + a.length) b := by
  induction a with
  | nil => intro m pos; rfl
  | cons w a ih => intro m pos; rw [List.cons_append, ringPut, ih, ringPut, List.length_cons, Nat.add_right_comm, Nat.add_assoc]

theorem ringPut_mod (size : Nat) (ws : List Word) : ∀ (m : Mem) (pos k : Nat), pos % size = k % size → ringPut size m pos ws = ringPut size m k ws := by
  induction ws with
  | nil => intros; rfl
  | cons w ws ih =>
    intro m pos k h
    rw [ringPut, ringPut, h]
    exact ih _ _ _ (by rw [Nat.add_mod, h, ← Nat.add_mod])

theorem write_write (r : EvRing) (a b : List Word) (x : Option (Nat × Nat)) :
    (({ (r.write a) with run := x } : EvRing).write b) = { (r.write (a ++ b)) with run := x } := by
  simp only [EvRing.write, EvRing.size, ringPut_append, EvRing.mk.injEq, true_and, and_true, List.length_append]
  refine ⟨ringPut_mod _ _ _ _ _ ?_, ?_⟩
  · rw [Nat.mod_mod_of_dvd]; exact ⟨2, by ring⟩
  · rw [Nat.mod_add_mod, Nat.add_assoc]

theorem fold_before (e : Event) (l : List Nat) (k : Nat) : ∀ s : State, k ∉ l →
    (l.foldl (raiseOn e) s).rings[k]? = s.rings[k]? ∧ (l.foldl (raiseOn e) s).fw = s.fw ∧ (l.foldl (raiseOn e) s).clk = s.clk
    ∧ ∀ b, s.regs.irqPend.getLsbD b = true → (l.foldl (raiseOn e) s).regs.irqPend.getLsbD b = true := by
  induction l with
  | nil => intro s _; exact ⟨rfl, rfl, rfl, fun _ h => h⟩
  | cons a l ih =>
    intro s h
    simp only [List.mem_cons, not_or] at h
    obtain ⟨i1, i2, i3, i4⟩ := ih (raiseOn e s a) h.2
    rw [List.foldl_cons]
    refine ⟨i1.trans (raiseOn_other e s a k (fun hh => h.1 hh.symm)), ?_, ?_, fun b hb => i4 b (pend_mono e s a b hb)⟩
    · rw [i2, raiseOn_frame]
    · rw [i3, raiseOn_frame]

theorem raiseEvent_ring (e : Event) (s : State) (k : Nat) (r : EvRing) (hk : k < 8) (h : s.rings[k]? = some r) :
    (raiseEvent e s).rings[k]? = some (r.raise s e).1
    ∧ ((r.raise s e).2 = true → r.irqEn = true → (raiseEvent e s).regs.irqPend.getLsbD (8 + k) = true) := by
  have hl : ∀ u : State, (if ledgered e then ledgerQueue e u else u).rings = u.rings ∧ (if ledgered e then ledgerQueue e u else u).regs = u.regs := by
    intro u; split
    · rw [ledgerQueue_frame]; exact ⟨rfl, rfl⟩
    · exact ⟨rfl, rfl⟩
  unfold raiseEvent
  extract_lets v
  obtain ⟨l1, l2⟩ := hl v
  have hs : List.range 8 = List.range k ++ k :: (List.range (7 - k)).map (fun i => k + 1 + i) := by
    interval_cases k <;> rfl
  have hv : v = ((List.range (7 - k)).map (fun i => k + 1 + i)).foldl (raiseOn e) (raiseOn e ((List.range k).foldl (raiseOn e) s) k) := by
    show (List.range 8).foldl (raiseOn e) s = _
    rw [hs, List.foldl_append, List.foldl_cons]
  obtain ⟨a1, a2, a3, -⟩ := fold_before e (List.range k) k s (by simp)
  obtain ⟨b1, -, -, b4⟩ := fold_before e ((List.range (7 - k)).map (fun i => k + 1 + i)) k (raiseOn e ((List.range k).foldl (raiseOn e) s) k) (by simp; omega)
  obtain ⟨c1, c2⟩ := raiseOn_at e ((List.range k).foldl (raiseOn e) s) k r (a1.trans h)
  have hc := raise_congr e s ((List.range k).foldl (raiseOn e) s) r a2 a3
  rw [hc] at c1 c2
  refine ⟨?_, ?_⟩
  · rw [l1, hv, b1, c1]
  · intro h1 h2
    rw [l2, hv]
    exact b4 _ (c2 h1 h2 hk)

theorem lost_len (s : State) (n f : Nat) : ((lostEvent s n).words s f).length = 6 := rfl

end Sys2Proof.Machine
end

