-- ==== Sys2Proof/Tests/Base.lean ====
section
/-! SUPPORT. The small states the tests and the witnesses are built from. -/

namespace Sys2Proof.Tests

open Sys2Proof Sys2Proof.Machine

set_option Elab.async false

/-- A block that serves: every domain is on, the DRAM is ready, pair A is ACTIVE and pair B STANDBY. -/
def base : State :=
  { State.reset with
    boot := { Boot.reset with jumpAt := some 0, served := true, ready := true, domains := 0xFFF },
    svc := { Svc.reset with state := 1 },
    dram := { Dram.reset with ready := true, sp := 0 },
    fault := { FaultSt.reset with pairs := [{ TellerPair.reset with state := 1 }, { TellerPair.reset with state := 2 }] } }

/-- The same at tally `t`, with the boundaries to come after it. -/
def at_ (t : Nat) : State :=
  { base with clk := { Clk.reset with tally := t, nextSample := t / 512 * 512 + 512, nextFrame := t / 8192 * 8192 + 8192 } }

/-- A request of mailbox `m` on a node's handle. -/
def req (m : Nat) (h : Word) (items : List Item) : Request :=
  { mb := m, quiet := false, seq := 7, handle := h, commitAt := 0, items := items }

/-- The handle of a node when it is the first that was looked up, by mailbox 0. -/
def handled (n : Node) (tag : Option Nat) (s : State) : State :=
  { s with fw := { s.fw with handles := [{ ref := ⟨n, tag⟩, num := 1, gen := 1, live := true, pins := [0] }] } }

/-- The word of that handle. -/
def hword : Word := HandleRec.word { ref := ⟨.hub, none⟩, num := 1, gen := 1, live := true, pins := [0] }

/-- Declares nodes with class VOICE. -/
def declared (ns : List Node) (s : State) : State :=
  { s with adm := { s.adm with cfg := { s.adm.cfg with nodes := ns.map fun n => ⟨n, 1⟩ } } }

/-- Spoke 0 has a core. -/
def onSpoke (c : Core) (s : State) : State := { s with spokes := s.spokes.set 0 { SpokeSt.reset 0 with core := c } }

/-- An event of group 1. -/
def ev : Event := { code := 0x1001, kind := .boundary, stamp := 8192, node := none, source := 3, cls := 3, detail := 1, items := [] }

/-- Key and seal are present. -/
def keyed (s : State) : State := { s with maint := { s.maint with key := true, loop := true } }

end Sys2Proof.Tests
end

