-- ==== Sys2Proof/Tests/Slice0.lean ====
section
/-! SUPPORT. Well-formedness refuses an operand out of range for each of its checks, and the steps of the spec's own worked examples. -/

namespace Sys2Proof.Tests

open Sys2Proof Sys2Proof.Machine

set_option Elab.async false

/-! ### Ill-formed terms -/

/-- A name of 32 characters (R65). -/
def longName : Name := List.replicate 32 0x61

theorem test_wf_nodes_frame : ([.wheel 4, .spoke 4 0, .spoke 0 10, .car 0, .car 33, .zone 256, .object 768, .feed 1024, .align 1024, .corr 1024, .bank 1024 0,
    .bank 0 2, .eq 1024, .limit 1024, .channel 512, .bus 96] : List Node).all (fun n => !n.wf) = true := by decide

theorem test_wf_nodes_console : ([.sceneChip 64, .sceneLib 1024, .cls 4, .slot 4, .bellMsg 64, .bellTrig 4, .bellRoute 64, .stage longName] : List Node).all (fun n => !n.wf)
    = true := by decide

theorem test_wf_nodes_ports : ([.sai 16, .aesi 4, .aeso 4, .pdm 16, .gearSai 16, .gearAesi 4, .gearPdm 16, .net 4, .gate 4, .ptp 4, .tx 4 0, .tx 0 128, .rx 4 0, .rx 0 128,
    .pilot 4, .tandem [longName], .inst [longName], .ring 8] : List Node).all (fun n => !n.wf) = true := by decide

theorem test_wf_items : ([⟨65536, []⟩, ⟨0, List.replicate 1019 0⟩] : List Item).all (fun i => !i.wf) = true := by decide +kernel

/-- A request of a mailbox that does not exist, and one with an item whose TAG is too wide. -/
def illReq : List Request := [req 11 0 [], req 0 0 [⟨65536, []⟩]]

theorem test_wf_requests : illReq.all (fun r => !r.wf) = true := by decide

theorem test_wf_request_commands : illReq.all (fun r => ([.ping r, .lookup r, .release r, .query r, .read r, .stage r, .commit r, .discard r, .admitConfig r, .sceneStore r,
    .sceneRecall r, .filterLoad r, .eventRingSet r, .ledgerRead r, .ledgerClear r, .nmbConfig r true, .fwBegin r, .fwData r, .fwEnd r] : List Instr).all fun c => !c.wf)
    = true := by decide

def dgramOf (mac src dst : Nat) : Datagram := { mac := mac, srcAddr := 0, srcPort := src, dstPort := dst, fragmented := false, length := 0, words := [] }

theorem test_wf_datagrams : ([dgramOf 4 0 0, dgramOf 0 65536 0, dgramOf 0 0 65536] : List Datagram).all (fun d => !d.wf && !(Instr.nmbDatagram d).wf) = true := by decide

def subframe (n : Nat) : Subframe := { sample := n, v := false, c := false, parity := false, biph := false }

theorem test_wf_ports : ([.sai 16, .aesi 4] : List PortId).all (fun p => !p.wf && !(Instr.portLocked p).wf && !(Instr.portMismatch p).wf && !(Instr.portStopDetect p 1).wf
      && !(Instr.portDead p).wf) = true
    ∧ ([.sai 16, .aesi 4, .pdm 16] : List GearId).all (fun g => !g.wf && !(Instr.gearWarm g).wf && !(Instr.gearFadeDone g).wf) = true
    ∧ (subframe (2 ^ 24)).wf = false := by decide

theorem test_wf_units : ([.corr 1024, .eq 1024, .align 1024, .chanEq 512, .busEq 96, .chanDelay 512] : List SwapUnit).all (fun u => !u.wf && !(Instr.swapDone u).wf) = true := by
  decide

def rtp (udpPort version pt : Nat) (rtag : Option Nat) : RtpPacket :=
  { dst := 0, udpPort := udpPort, srcIp := 0, version := version, pt := pt, ssrc := 0, stamp := 0, rtag := rtag, payload := [] }

def ethOf (vid : Option Nat) (b : FrameBody) : EthFrame := { length := 64, fcsOk := true, codeErr := false, vid := vid, body := b }

theorem test_wf_packets : ([rtp 65536 2 0 none, rtp 0 4 0 none, rtp 0 2 128 none, rtp 0 2 0 (some 65536)] : List RtpPacket).all (fun p => !p.wf) = true := by decide

theorem test_wf_frames : ([.pause 65536, .macControl 65536, .ptp true (2 ^ 80), .rtp (rtp 65536 2 0 none), .datagram (dgramOf 4 0 0)] : List FrameBody).all
      (fun b => !b.wf && !(Instr.ethFrameReceive 0 (ethOf none b)).wf) = true
    ∧ (ethOf (some 4096) .other).wf = false ∧ (Instr.ethFrameReceive 4 (ethOf none .other)).wf = false := by decide

theorem test_wf_dram : (DramSpace.copyBound 2).wf = false
    ∧ ([⟨0, 4, .normal, 0, 4, false, []⟩, ⟨0, 0, .copyBound 2, 0, 4, false, []⟩, ⟨0, 0, .normal, 0, 4, true, []⟩] : List DramReq).all
      (fun q => !q.wf && !(Instr.dramRequestAccept q).wf) = true
    ∧ ([⟨64, false⟩] : List EccObs).all (fun e => !e.wf) = true := by decide

theorem test_wf_environment : ({ ch := 4, sense := 0, atLimit := false, overComp := false, trim := 0 } : PilotObs).wf = false
    ∧ ([⟨[(.feed 1024, 0)], [], []⟩, ⟨[(.feed 0, 40)], [], []⟩, ⟨[], [⟨.gearSai 16, .passA⟩], []⟩, ⟨[], [], [⟨4, 0, false, false, 0⟩]⟩] : List FrameEnv).all
      (fun e => !e.wf && !(Instr.frameBoundary e).wf) = true
    ∧ ({ node := .feed 1024, primary := .missing, secondary := .missing } : CopyObs).wf = false := by decide

def readings (n lanes : Nat) : SensorSet :=
  { slack := List.replicate n 0, slackHub := 0, slackTlr := 0, sramVmin := 0, tempMax := 0, ceRate := 0, eyeMin := 0, eyeDrop := 0, eyes := List.replicate lanes 0 }

theorem test_wf_readings : ([readings 39 8, readings 40 7] : List SensorSet).all (fun m => !m.wf && !(Instr.replan true 0 m).wf) = true
    ∧ [0, 3, 5, 16].all (fun n => !widthOk n) = true := by decide

theorem test_wf_cadence : ([.sampleBoundary [2 ^ 19], .spokeFrameComplete 40, .spokeOverrun 40, .mclkLoss 9, .hubMbInWrWrite 8 0, .hubMbOutRdWrite 8 0, .requestTimeout 11,
    .responseWrite 11, .hubEvRdWrite 8 0, .hubBusyAnswer 11, .tellerSelfTestDone 2 true] : List Instr).all (fun c => !c.wf) = true := by decide

theorem test_wf_feeds : ([.filterReady 1024 0, .filterReady 0 2, .loadAbandoned 1024 0, .loadAbandoned 0 2, .laneReserve 1024, .laneFillDone 1024, .rampEnd (.bus 96) 0,
    .rampEnd (.bus 0) 65536, .routeFadeEnd (.bus 96) 0, .routeFadeEnd (.bus 0) 65536, .ambHoldEnd 256, .alarmMark [⟨.feed 1024, .missing, .missing⟩],
    .auditResolution (.feed 1024) .notUsable, .bellTrigRecognise 4 true, .bellRepetitionEnd 4, .bellGapEnd 4, .instanceEntry 40 [], .instanceDrainDone 40, .fenceReached 40,
    .dmaComplete 40 0, .dmaComplete 0 8] : List Instr).all (fun c => !c.wf) = true := by decide

theorem test_wf_load_store : ([.lnop 40, .ldW 40 0 0 0 0, .ldW 0 32 0 0 0, .ldW 0 0 8 0 0, .ldW 0 0 0 4 0, .ldW 0 0 0 0 8, .ldD 0 32 0 0 0, .ldQ 0 0 8 0 0, .ldWW 40 0 0 0 0,
    .ldWW 0 32 0 0 0, .ldWW 0 0 8 0 0, .ldWW 0 0 0 32 0, .ldWW 0 0 0 0 8, .stW 0 0 0 4 0, .stD 0 0 0 0 8, .stQ 40 0 0 0 0, .ldA 0 8 0 0 0, .ldA 0 0 8 0 0, .stA 0 8 0 0 0,
    .stA 0 0 0 4 0] : List Instr).all (fun c => !c.wf) = true := by decide

theorem test_wf_mac : ([.mnop 40, .mac1 0 true 8 0 0 true true, .mac1 0 true 0 32 0 true true, .mac1 0 true 0 0 32 true true, .mac4V 40 true 0 0 0 true true,
    .mac4B 0 true 8 0 0 true true, .mac4W 0 true 0 32 0 true true, .cmac 0 true 0 0 32 true true true, .red 0 true 8 0 0, .red4 0 true 0 32 0, .aclr 0 8 true, .aclr 40 0 true,
    .mulr 0 true 32 0 0, .add 0 true 0 32 0, .sub 0 true 0 0 32, .shl 40 true 0 0 true 0, .shr 0 32 0 true 0, .and 0 0 32 0, .or 0 0 0 32, .xor 40 0 0 0, .min 0 32 0 0,
    .max 0 0 32 0, .abs 0 true 32 0, .neg 0 true 0 32, .mov 40 0 0] : List Instr).all (fun c => !c.wf) = true := by decide

theorem test_wf_control : ([.cnop 40, .cmacShort 0 true 4 0 0 true, .cmacShort 0 true 0 16 0 true, .cmacShort 0 true 0 0 16 true, .loop 0 true 0 1, .loop 0 true 33 1, .loop 0 true 1 0,
    .loop 0 true 1 65, .loopr 0 true 0 0, .loopr 0 true 33 0, .loopr 0 true 1 32, .br 0 2048, .br 0 (-2049), .bz 0 32 0, .bz 0 0 64, .bnz 0 0 (-65), .movp 0 4 0 true 0,
    .movp 0 0 8 true 0, .movp 0 0 0 true 32, .flag 0 true 32 true true, .dma 0 32, .dwait 0 8, .exit 40, .moviD 0 32 0, .moviP 0 8 0, .moviN 0 8 0, .moviRb 0 8 0,
    .moviRl 0 8 0, .illegalBundle 40 0] : List Instr).all (fun c => !c.wf) = true := by decide

theorem test_wf_sound : ([.tdmPeriod 16 0 0 [], .tdmPeriod 0 (2 ^ 64) 0 [], .tdmPeriod 0 0 0 (List.replicate 17 0), .aes3Frame 4 0 .z (subframe 0) (subframe 0),
    .aes3Frame 0 (2 ^ 64) .z (subframe 0) (subframe 0), .aes3Frame 0 0 .z (subframe (2 ^ 24)) (subframe 0), .aes3Frame 0 0 .z (subframe 0) (subframe (2 ^ 24)),
    .portStopDetect (.sai 0) 0, .portStopDetect (.sai 0) 4, .slotChange 16 0, .slotChange 0 (2 ^ 64), .aes3OutBlockStart 4, .aes3ValidityRearm 4 0, .aes3ValidityRearm 0 2,
    .pdmStuck 16 true, .pdmRecover 16] : List Instr).all (fun c => !c.wf) = true := by decide

theorem test_wf_net : ([.pauseExpire 4, .pauseLong 4, .frameTransmitStart 4, .frameTransmitEnd 4, .streamPacketHandoff 4 0, .streamPacketHandoff 0 128, .gateInterval 4,
    .gateListApplied 4, .linkChange 4 true 0, .linkChange 0 true 3, .cbPathLost 128 0, .cbPathLost 0 4, .mediaOffsetSet (2 ^ 32), .mediaOffsetChanged (2 ^ 32)] : List Instr).all
      (fun c => !c.wf) = true := by decide

theorem test_wf_memory : ([.dramSlot 2 [], .dramSlot 0 [⟨64, true⟩], .vaultRepaired 2, .refreshInterval 2, .readPanic 40, .mr4Poll 2 1, .mr4Poll 0 3, .dqsOscTrack 2 0, .retrainStart 2,
    .retrainDone 2 [0, 0, 0, 0], .retrainDone 0 [0, 0, 0], .bankSkewWindow 2, .channelFailed 2 1, .channelFailed 0 0, .channelFailed 0 5, .pilotParamApply 4, .rangeHizEnd 4]
    : List Instr).all (fun c => !c.wf) = true := by decide

theorem test_wf_host : ([.registerWrite .spi (2 ^ 32) 4 0, .registerWrite .spi 0 3 0, .registerWrite .spi 0 1 256, .rcRead .pcie (2 ^ 32) 4, .rcRead .pcie 0 16,
    .pairedWriteHalf .spi (2 ^ 32) 0, .pairWindowExpire (2 ^ 32), .hubHdWrWrite 16 0, .hostDmaDescriptor 16 [0, 0, 0, 0], .hostDmaDescriptor 0 [0, 0, 0], .coldReset 4 true true,
    .domainSwitch 12 true] : List Instr).all (fun c => !c.wf) = true := by decide

theorem test_wf_service : ([.auditChargeExpire 40, .spokeRetired 40, .plannedPromotion 40, .releaseWordTimeout 2, .faultClockStop 2, .recorderFlush 8, .monRd (2 ^ 32) 1, .monRd 0 0,
    .monRd 0 257, .monWr (2 ^ 32) 0, .monFill (2 ^ 32) 0 0, .monFill 0 (2 ^ 32) 0, .monWrp (2 ^ 32) 0, .monRdi (2 ^ 32) 0, .monRdi 0 (2 ^ 32), .monWri (2 ^ 32) 0, .monTrace 2048,
    .monLedger true (2 ^ 32) 0, .monLedger true 0 (2 ^ 32)] : List Instr).all (fun c => !c.wf) = true := by decide

/-! ### The spec's examples -/

/-- What a command leaves, and the state itself where it does not go on. -/
def after (c : Instr) (s : State) : State :=
  match exec c s with
  | .next t => t
  | _ => s

/-- d[0] and the flags of spoke 0. -/
def d0 (s : State) : List Word × List Bool :=
  (((s.coreAt 0).map fun c => c.regs.d.take 1).getD [], ((s.coreAt 0).map fun c => [c.regs.ova, c.regs.ovr]).getD [])

/-- Spoke 0 with a value in acc0. -/
def accHolds (z : Int) : State := onSpoke { Core.reset with regs := { Core.reset.regs with acc := Core.reset.regs.acc.set 0 z } } base

/-- Spoke 0 with a value in d1. -/
def dHolds (w : Word) : State := onSpoke { Core.reset with regs := { Core.reset.regs with d := Core.reset.regs.d.set 1 w } } base

/-- R277: a raw accumulator of 3 x 2^30 gives 2. -/
theorem test_red_tie_up : d0 (after (.red 0 true 0 0 0) (accHolds (3 * 2 ^ 30))) = ([2#32], [false, false]) := by decide +kernel

/-- R277: -3 x 2^30 gives -1. -/
theorem test_red_tie_negative : d0 (after (.red 0 true 0 0 0) (accHolds (-3 * 2 ^ 30))) = ([0xFFFFFFFF#32], [false, false]) := by decide +kernel

/-- R275, R278: the sum of -2^31 with itself clamps with S and wraps without, and sets OVR either way. -/
theorem test_add_clamps : d0 (after (.add 0 true 0 1 1) (dHolds 0x80000000)) = ([0x80000000#32], [false, true]) := by decide +kernel

theorem test_add_wraps : d0 (after (.add 0 false 0 1 1) (dHolds 0x80000000)) = ([0#32], [false, true]) := by decide +kernel

/-- R275: abs of the most negative number. -/
theorem test_abs_clamps : d0 (after (.abs 0 true 0 1) (dHolds 0x80000000)) = ([0x7FFFFFFF#32], [false, true]) := by decide +kernel

/-- R290: an arithmetic shift towards minus infinity. -/
theorem test_shr_floor : (d0 (after (.shr 0 0 1 true 1) (dHolds 0xFFFFFFFF))).1 = [0xFFFFFFFF#32] := by decide +kernel

/-- 14: moving the BAR2 window by one 64-bit write of the value and its complement. -/
theorem test_bar2_pair : (after (.registerWrite .pcie 0x68 8 0xFFFFFFFC00000003) base).regs.bar2Base = 3 := by decide +kernel

/-- 02: the host posts the nine words of LOOKUP from index 2044 on. -/
def lookupSent : State :=
  let ws : List Word := [0x00900002, 0x1A7, 0, 0, 0x00010004, 0x6565662F, 0x34302F64, 0x652F3331, 0x71]
  { base with mbox := base.mbox.modify 2 fun b => { b with inRing := ringPut 1024 b.inRing 2044 ws, inRd := 2044, inWr := 2044 } }

/-- 02: the message wraps after its fourth word: word 4 of it stands at position 0. -/
theorem test_lookup_wraps : (lookupSent.mboxAt 2).inRing.words (4 * 1020) 4 = [0x00900002#32, 0x1A7#32, 0#32, 0#32]
    ∧ (lookupSent.mboxAt 2).inRing.words 0 2 = [0x00010004#32, 0x6565662F#32] := by decide +kernel

theorem test_lookup_posted : ((after (.hubMbInWrWrite 2 5) lookupSent).mboxAt 2).inWr = 5 := by decide +kernel

/-- 02: taking it sets the read index to 5. -/
theorem test_lookup_taken : ((after .requestTake (after (.hubMbInWrWrite 2 5) lookupSent)).mboxAt 2).inRd = 5 := by decide +kernel

/-- 04: one frame moves the caller by 6826 of 3 584 000 units. -/
theorem test_motion_step : moveToward ⟨212000 * 1024, 0, 0⟩ ⟨215500 * 1024, 0, 0⟩ 20000 1 = ⟨212000 * 1024 + 6826, 0, 0⟩ := by decide +kernel

/-- 04: with 350 units left the object arrives. -/
theorem test_motion_arrives : moveToward ⟨215500 * 1024 - 350, 0, 0⟩ ⟨215500 * 1024, 0, 0⟩ 20000 1 = ⟨215500 * 1024, 0, 0⟩ := by decide +kernel

/-- The table gives no row any bits. -/
theorem test_no_word_spells_a_command : decodeTableWord 16 0x1234 = none := by decide

/-- An empty queue idles for one tick. -/
theorem test_idle : step State.reset = .next (idle State.reset) ∧ (idle State.reset).clk.tally = 1 := ⟨rfl, by decide +kernel⟩

end Sys2Proof.Tests
end

