-- ==== Sys2Proof/Tests/WitnessDram.lean ====
section
/-! SUPPORT. Concrete states and operands that meet the hypotheses of the statements about the DRAM, spares, the ladder and the records
kept in service. -/

namespace Sys2Proof.Tests

open Sys2Proof Sys2Proof.Machine

set_option Elab.async false

/-- Channel 1 of the DRAM stands so at tally `t`. -/
def ch1 (t : Nat) (c : DramCh) : State := { at_ t with dram := { base.dram with channels := [DramCh.reset, c] } }

theorem witness_DramUpkeep :
    (∃ (s : State) (c : DramCh), s.dram.channels[1]? = some c ∧ s.dram.ready = true ∧ c.failed = false ∧ c.gather = none ∧ s.dram.spNext = none
      ∧ c.passAt + s.plan.retrain * 24576000 ≤ s.clk.tally)
    ∧ (∃ (s : State) (c : DramCh), s.dram.channels[1]? = some c ∧ s.dram.ready = true ∧ s.dram.spNext ≠ none)
    ∧ (∃ (s : State) (c : DramCh) (g : Nat) (eyes : List Nat), s.dram.channels[1]? = some c ∧ s.dram.ready = true ∧ c.gather = some g ∧ g + 64 * 8192 ≤ s.clk.tally
      ∧ eyes.length = 4 ∧ 0 ∈ eyes ∧ c.failing = none)
    ∧ (∃ (s : State) (c : DramCh) (top : Nat), s.dram.channels[1]? = some c ∧ s.dram.ready = true ∧ c.skewAt + 3000 * 8192 ≤ s.clk.tally ∧ top ∈ c.skew
      ∧ (∀ n ∈ c.skew, n ≤ top) ∧ 4 * top ≤ c.skew.sum)
    ∧ (∃ (s : State) (c : DramCh) (top : Nat), s.dram.channels[1]? = some c ∧ c.skewAt + 3000 * 8192 ≤ s.clk.tally ∧ top ∈ c.skew
      ∧ (∀ n ∈ c.skew, n ≤ top) ∧ c.skew.sum < 4 * top ∧ c.skewRun + 1 ≠ 3600)
    ∧ (∃ (s : State) (c : DramCh) (top : Nat), s.dram.channels[1]? = some c ∧ c.skewAt + 3000 * 8192 ≤ s.clk.tally ∧ top ∈ c.skew
      ∧ (∀ n ∈ c.skew, n ≤ top) ∧ c.skew.sum < 4 * top ∧ c.skewRun + 1 = 3600)
    ∧ (∃ (s : State) (p : Nat), s.dram.ready = true ∧ s.dram.spNext = some p ∧ s.clk.tally % 8192 = 0 ∧ ∀ x ∈ s.dram.channels, x.gather = none)
    ∧ 6144 ≤ (at_ 6144).clk.tally % 8192 :=
  ⟨⟨ch1 14745600000 DramCh.reset, DramCh.reset, rfl, rfl, rfl, rfl, rfl, by decide⟩,
    ⟨{ base with dram := { base.dram with spNext := some 1 } }, DramCh.reset, by decide⟩,
    ⟨ch1 524288 { DramCh.reset with gather := some 0 }, { DramCh.reset with gather := some 0 }, 0, [0, 9, 9, 9], rfl, rfl, rfl, by decide⟩,
    ⟨ch1 24576000 { DramCh.reset with skew := [1, 1, 1, 1, 0, 0, 0, 0] }, { DramCh.reset with skew := [1, 1, 1, 1, 0, 0, 0, 0] }, 1, rfl, rfl, by decide⟩,
    ⟨ch1 24576000 { DramCh.reset with skew := [1, 1, 2, 1, 0, 0, 0, 0] }, { DramCh.reset with skew := [1, 1, 2, 1, 0, 0, 0, 0] }, 2, rfl, by decide⟩,
    ⟨ch1 24576000 { DramCh.reset with skew := [1, 1, 2, 1, 0, 0, 0, 0], skewRun := 3599 }, { DramCh.reset with skew := [1, 1, 2, 1, 0, 0, 0, 0], skewRun := 3599 }, 2, rfl,
      by decide +kernel⟩,
    ⟨{ at_ 8192 with dram := { base.dram with spNext := some 3 } }, 3, by decide⟩, by decide⟩

/-- The last word of a group, written or read by the SPI master. -/
def dreq (write : Bool) : DramReq := { requester := 43, cls := 3, space := .normal, addr := 508, bytes := 4, write := write, data := if write then [1, 2, 3, 4] else [] }

theorem witness_DramRequests :
    ∀ write : Bool, base.dram.ready = true ∧ (∀ c ∈ base.dram.channels, c.failed = false) ∧ base.dram.ports = [] ∧ (dreq write).space = .normal ∧ (dreq write).requester ≤ 46
      ∧ (dreq write).cls < 4 ∧ 0 < (dreq write).bytes ∧ (dreq write).bytes % 4 = 0 ∧ (dreq write).addr % 4 = 0
      ∧ ((dreq write).addr + (dreq write).bytes - 1) / 512 = (dreq write).addr / 512
      ∧ (dreq write).addr + (dreq write).bytes ≤ 2 * 8 * 3584 * (base.dram.density * 8192 - base.boot.dramCfg.vaultRows - 1)
      ∧ (∀ e ∈ base.dram.entries, e.shared = true) ∧ base.dram.entries.length < 96 ∧ (base.dram.entries.filter fun e => e.req = (dreq write).requester).length < 16
      ∧ (base.dram.entries.filter fun e => 40 ≤ e.req ∧ e.req ≤ 43).length < 8 ∧ (write = true → (dreq write).data.length = (dreq write).bytes) := by
  intro write
  cases write <;> decide +kernel

/-- A transaction on channel 1, bank 2. -/
def tx (bound : Bool) : DramTx :=
  { num := 0, req := 43, cls := 3, ch := 1, place := ⟨false, 2, 1, 0, 1⟩, off := 0, bytes := 4, write := false, data := [0, 0, 0, 0], bound := bound, shared := true,
    at_ := 0, panic := false, promoted := false, rmw := 0 }

def slotted (t : Nat) (c : DramCh) (es : List DramTx) : State := { ch1 t c with dram := { (ch1 t c).dram with entries := es } }

/-- Slot `k` of channel 1, with a transaction and a scrub step that is due. -/
def due (k : Nat) : State := slotted 5 { DramCh.reset with slot := k, scrubAt := 5, scrubbed := 1 } [tx false]

theorem backlog_slot : ∀ k ∈ [9, 10], ∃ (s : State) (c : DramCh) (x : DramTx), s.dram.channels[1]? = some c ∧ c.owed < 8 ∧ s.dram.entries = [x] ∧ x.ch = 1
    ∧ x.bound = false ∧ c.slot = k ∧ (c.slot = 4 * x.place.bank + 1 ∨ c.slot = 4 * x.place.bank + 2) ∧ c.back = [] ∧ c.heal = [] ∧ c.gather = none
    ∧ s.clk.tally = c.scrubAt ∧ c.scrubbed ≠ 0 ∧ s.boot.dramCfg.scrub ≠ 0 := by
  intro k hk
  simp only [List.mem_cons, List.not_mem_nil, or_false] at hk
  rcases hk with rfl | rfl
  · exact ⟨due 9, _, tx false, rfl, by decide⟩
  · exact ⟨due 10, _, tx false, rfl, by decide⟩

theorem witness_DramSlots :
    (∃ (s : State) (c : DramCh), s.dram.channels[1]? = some c ∧ s.dram.ready = true ∧ c.failed = false ∧ 8 ≤ c.owed)
    ∧ (∃ (s : State) (c : DramCh), s.dram.channels[1]? = some c ∧ s.dram.ready = true ∧ c.failed = false ∧ c.owed < 8 ∧ -8 < c.owed ∧ s.dram.entries = [] ∧ c.back = []
      ∧ c.heal = [] ∧ c.gather = none)
    ∧ (∃ (s : State) (c : DramCh) (x : DramTx), s.dram.channels[1]? = some c ∧ c.owed < 8 ∧ s.dram.entries = [x] ∧ s.dram.ports = [] ∧ x.ch = 1 ∧ x.rmw = 0
      ∧ x.bound = true ∧ c.slot = 4 * x.place.bank + 3)
    ∧ (∃ (s : State) (c : DramCh) (x : DramTx), s.dram.channels[1]? = some c ∧ c.owed < 8 ∧ s.dram.entries = [x] ∧ s.dram.ports = [] ∧ x.ch = 1 ∧ x.rmw = 0
      ∧ x.bound = false ∧ c.slot ≠ 4 * x.place.bank + 1 ∧ c.slot ≠ 4 * x.place.bank + 2 ∧ ∀ e ∈ c.throttled, e.1 ≠ x.place.bank)
    ∧ (∀ k ∈ [9, 10], ∃ (s : State) (c : DramCh) (x : DramTx), s.dram.channels[1]? = some c ∧ c.owed < 8 ∧ s.dram.entries = [x] ∧ x.ch = 1 ∧ x.bound = false ∧ c.slot = k
      ∧ (c.slot = 4 * x.place.bank + 1 ∨ c.slot = 4 * x.place.bank + 2) ∧ c.back = [] ∧ c.heal = [] ∧ c.gather = none ∧ s.clk.tally = c.scrubAt ∧ c.scrubbed ≠ 0
      ∧ s.boot.dramCfg.scrub ≠ 0)
    ∧ (∃ (s : State) (c : DramCh), s.dram.channels[1]? = some c ∧ s.dram.ready = true ∧ c.failed = false ∧ c.repair = [(⟨true, 2, 1, 0, 1⟩, 5, 0)])
    ∧ (∃ (s : State) (c : DramCh), s.dram.channels[1]? = some c ∧ s.dram.ready = true ∧ c.failed = false ∧ c.failing = none ∧ s.clk.tally % 8192 ≠ 0)
    ∧ ∃ (s : State) (c : DramCh), s.dram.channels[1]? = some c ∧ s.dram.ready = true ∧ c.failed = false ∧ c.failing = some 2 ∧ s.clk.tally % 8192 = 0 :=
  ⟨⟨ch1 0 { DramCh.reset with owed := 8 }, _, rfl, by decide⟩, ⟨ch1 0 { DramCh.reset with owed := 7 }, _, rfl, by decide⟩,
    ⟨slotted 0 { DramCh.reset with slot := 11 } [tx true], _, tx true, rfl, by decide⟩, ⟨slotted 0 { DramCh.reset with slot := 11 } [tx false], _, tx false, rfl, by decide⟩,
    fun k hk => backlog_slot k hk,
    ⟨ch1 0 { DramCh.reset with repair := [(⟨true, 2, 1, 0, 1⟩, 5, 0)] }, _, rfl, by decide⟩, ⟨ch1 8191 DramCh.reset, _, rfl, by decide⟩,
    ⟨ch1 8192 { DramCh.reset with failing := some 2 }, _, rfl, by decide⟩⟩

/-- Spokes 0 and 1 are to be retired at 8192. -/
def doomed : State := { at_ 8192 with fault := { base.fault with doomed := [(0, 5), (1, 6)] } }

/-- ALARM channel 0 has to be placed, and every spoke is retired. -/
def spent : State :=
  { at_ 8192 with
    spokes := base.spokes.map fun x => { x with role := 3 },
    ladder := { LadderSt.reset with replacing := some 0 },
    adm := { Adm.reset with cfg := { Cfg.empty with nodes := [⟨.channel 0, 0⟩] } } }

theorem ladderFails_alarm (s : State) (n : Nat) (h : (decide (activeWheels (withArmed s) < 2) && hasAlarm (withArmed s)) = true) :
    (ladderFails s n false).isNone = false := by
  simp only [ladderFails, h, if_true]
  repeat' split
  all_goals rfl

theorem tryPlace_alarm (s : State) (n : Nat)
    (h : ∀ (pl : Placement) (au : List (Node × Nat)), let s' := withArmed { s with adm := { s.adm with place := pl, auditors := au } }
      (decide (activeWheels s' < 2) && hasAlarm s') = true) : tryPlace s none n = none := by
  simp only [tryPlace]
  split
  · rfl
  · simp [ladderFails_alarm _ n (h _ _)]

set_option maxRecDepth 100000 in
theorem witness_findPlace : findPlace (closeFrame spent) = none := by
  have ha : auditSpokes (closeFrame spent) = [] := by decide +kernel
  unfold findPlace
  rw [ha]
  simp only [List.map_nil, List.findSome?_eq_none_iff]
  intro n _ p hp
  simp only [List.mem_singleton] at hp
  subst hp
  rw [Option.map_eq_none_iff]
  exact tryPlace_alarm _ n fun _ _ => rfl

theorem witness_SparesTaken :
    (∃ s : State, s.clk.tally % 8192 = 0 ∧ (doomedAt s s.clk.tally).contains 1 = true ∧ getsSpare (closeFrame s) s.clk.tally 1 = false)
    ∧ (∃ s : State, s.clk.tally % 8192 = 0 ∧ (doomedAt s s.clk.tally).contains 0 = true ∧ getsSpare (closeFrame s) s.clk.tally 0 = true
      ∧ wheelSpare (closeFrame s) s.clk.tally 0 = some 9 ∧ plainOn (closeFrame s) 0 = [])
    ∧ (∃ s : State, s.clk.tally % 8192 = 0 ∧ s.plan.promote = [(39, 8192)] ∧ 8192 ≤ s.clk.tally ∧ wheelSpare (closeFrame s) s.clk.tally 2 = some 29
      ∧ isRetired (closeFrame s) 20 = false)
    ∧ (∃ s : State, s.clk.tally % 8192 = 0 ∧ s.serving = true ∧ s.ladder.replacing = some 0 ∧ findPlace (closeFrame s) = none)
    ∧ base.ladder.replacing = none :=
  ⟨⟨doomed, by decide +kernel⟩, ⟨doomed, by decide +kernel⟩,
    ⟨{ at_ 8192 with plan := { Plan.reset with promote := [(39, 8192)] } }, by decide +kernel⟩, ⟨spent, by decide, by decide, rfl, witness_findPlace⟩, rfl⟩

theorem witness_LadderMoves :
    (∃ (s : State) (n : Nat), s.clk.tally % 8192 = 0 ∧ s.serving = true ∧ s.ladder.replacing = none ∧ neededStep (closeFrame s) = some n)
    ∧ (∃ s : State, s.clk.tally % 8192 = 0 ∧ s.serving = true ∧ s.ladder.replacing = none ∧ neededStep (closeFrame s) = none)
    ∧ (∃ s : State, s.clk.tally % 8192 = 0 ∧ s.serving = true ∧ s.ladder.replacing = none ∧ s.ladder.checked + 3000 * 8192 ≤ s.clk.tally ∧ (closeFrame s).ladder.pos = 0)
    ∧ (∃ s : State, s.clk.tally % 8192 = 0 ∧ s.serving = true ∧ s.ladder.replacing = none ∧ s.ladder.checked + 3000 * 8192 ≤ s.clk.tally
      ∧ mayUndo { closeFrame s with ladder := { (closeFrame s).ladder with checked := s.clk.tally } } = true)
    ∧ (spent.clk.tally % 8192 = 0 ∧ spent.serving = true ∧ spent.ladder.replacing ≠ none)
    ∧ ((at_ 24567808).clk.tally % 8192 = 0 ∧ (at_ 24567808).clk.tally < (at_ 24567808).ladder.checked + 3000 * 8192) :=
  ⟨⟨at_ 8192, 0, by decide +kernel⟩, ⟨{ spent with ladder := LadderSt.reset }, by decide +kernel⟩, ⟨at_ 24576000, by decide +kernel⟩,
    ⟨{ at_ 245760000 with ladder := { LadderSt.reset with pos := 7 } }, by decide +kernel⟩, by decide, by decide⟩

/-- Queue 7 fills a descriptor for the recorder. -/
def recording (t : Nat) : State :=
  { at_ t with
    regs := { base.regs with hd := base.regs.hd.set 7 { HdQueue.reset with cur := some { addr := 64, len := 160, irq := false, fill := 80 } } },
    recs := base.recs.set 7 { RecRing.reset with since := some 0 } }

def sensors (slack temp : Int) (ce eye : Nat) : SensorSet :=
  { slack := List.replicate 40 slack, slackHub := slack, slackTlr := slack, sramVmin := 700, tempMax := temp, ceRate := ce, eyeMin := eye, eyeDrop := 0, eyes := List.replicate 8 0 }

/-- A daily re-plan is due. -/
def planned : State := { at_ 8191 with ledg := { Ledgers.reset with opSec := 86400 } }

theorem witness_ServiceRecords :
    (∃ (s : State) (h : HdQueue) (c : HdCur) (g : RecRing), s.regs.hd[7]? = some h ∧ h.cur = some c ∧ c.irq = false ∧ 4 ≤ h.k ∧ h.k ≤ 12 ∧ s.recs[7]? = some g
      ∧ g.since = some 0 ∧ 0 + 300 * 8192 ≤ s.clk.tally)
    ∧ (∃ (s : State) (h : HdQueue) (c : HdCur) (g : RecRing), s.regs.hd[7]? = some h ∧ h.cur = some c ∧ s.recs[7]? = some g ∧ g.since = some 0
      ∧ s.clk.tally < 0 + 300 * 8192 ∧ c.fill + 80 ≤ c.len)
    ∧ (∃ s : State, s.serving = true ∧ s.ledg.queue = [(ev, 3)] ∧ s.ledg.events.length < 8192)
    ∧ (∃ s : State, s.serving = true ∧ s.ledg.opSaved + 600 ≤ s.ledg.opSec) ∧ (∃ s : State, s.ledg.opSec < s.ledg.opSaved + 600)
    ∧ (planned.serving = true ∧ planned.plan.dailyAt + 86400 ≤ planned.ledg.opSec ∧ (0x3FF : Nat).testBit 10 = false ∧ planned.clk.tally % 8192 ≠ 0
      ∧ planned.ladder.replacing = none ∧ planned.ledg.margins.length < 4096)
    ∧ (∃ m : SensorSet, max 0 (60 - slackMin m) ≠ 0) ∧ (∃ m : SensorSet, max 0 (60 - slackMin m) = 0 ∧ max 0 (50 - ((800 : Int) - m.sramVmin)) = 0
      ∧ 120 < slackMin m ∧ 80 < (800 : Int) - m.sramVmin ∧ 1040 < m.tempMax ∧ 256 < m.ceRate ∧ m.eyeMin < 40)
    ∧ (∃ m : SensorSet, 50 < slackMin m ∧ m.tempMax ≤ 1040 ∧ 100 < slackMin m ∧ 16 < m.ceRate ∧ m.ceRate ≤ 256 ∧ 40 ≤ m.eyeMin ∧ m.eyeDrop ≤ 10 ∧ 50 ≤ m.eyeMin)
    ∧ ∃ s : State, s.clk.mhzTarget < 750 ∧ s.plan.vcore = 800 :=
  ⟨⟨recording 2457600, _, _, _, rfl, rfl, rfl, by decide, by decide, rfl, rfl, by decide⟩, ⟨recording 2457599, _, _, _, rfl, rfl, rfl, rfl, by decide⟩,
    ⟨{ base with ledg := { Ledgers.reset with queue := [(ev, 3)] } }, by decide⟩, ⟨{ base with ledg := { Ledgers.reset with opSec := 600 } }, by decide⟩, ⟨base, by decide⟩,
    by decide, ⟨sensors 59 0 0 50, by decide +kernel⟩, ⟨sensors 121 1041 257 39, by decide +kernel⟩, ⟨sensors 121 1040 256 50, by decide +kernel⟩,
    ⟨{ base with clk := { Clk.reset with mhzTarget := 725 } }, by decide⟩⟩

end Sys2Proof.Tests
end

