-- ==== Sys2Proof/Tests/WitnessRequests.lean ====
section
/-! SUPPORT. Concrete states and operands that meet the hypotheses of the statements about mailboxes and requests. -/

namespace Sys2Proof.Tests

open Sys2Proof Sys2Proof.Machine

set_option Elab.async false

/-- Mailbox `m` has these words posted, from index 0. -/
def posted_ (m : Nat) (ws : List Word) (s : State) : State :=
  { s with mbox := s.mbox.modify m fun b => { b with inRing := ringPut 1024 b.inRing 0 ws, inWr := ws.length } }

theorem witness_MailboxDoorbells :
    (∃ (v : Word) (b : Mbox) (n : Nat), base.mbox[7]? = some b ∧ n = v.toNat % 2048
      ∧ (n + 2048 - b.inRd) % 2048 ≤ 1024 ∧ (b.inWr + 2048 - b.inRd) % 2048 ≤ (n + 2048 - b.inRd) % 2048)
    ∧ (∃ (v : Word) (b : Mbox) (n : Nat), base.mbox[0]? = some b ∧ n = v.toNat % 2048
      ∧ ¬((n + 2048 - b.inRd) % 2048 ≤ 1024 ∧ (b.inWr + 2048 - b.inRd) % 2048 ≤ (n + 2048 - b.inRd) % 2048))
    ∧ (∃ (v : Word) (b : Mbox) (n : Nat), base.mbox[0]? = some b ∧ n = v.toNat % 2048 ∧ (n + 2048 - b.outRd) % 2048 ≤ (b.outWr + 2048 - b.outRd) % 2048)
    ∧ (∃ (v : Word) (b : Mbox) (n : Nat), base.mbox[0]? = some b ∧ n = v.toNat % 2048 ∧ ¬(n + 2048 - b.outRd) % 2048 ≤ (b.outWr + 2048 - b.outRd) % 2048)
    ∧ (∃ (v : Word) (r : EvRing) (n two : Nat), base.rings[7]? = some r ∧ n = v.toNat % 32768 ∧ two = 2 * r.size
      ∧ n < two ∧ (n + two - r.rd) % two ≤ (r.wr + two - r.rd) % two)
    ∧ ∃ (v : Word) (r : EvRing) (n two : Nat), base.rings[0]? = some r ∧ n = v.toNat % 32768 ∧ two = 2 * r.size
      ∧ ¬(n < two ∧ (n + two - r.rd) % two ≤ (r.wr + two - r.rd) % two) :=
  ⟨⟨1024, Mbox.reset, 1024, by decide⟩, ⟨1025, Mbox.reset, 1025, by decide⟩, ⟨2048, Mbox.reset, 0, by decide⟩, ⟨1, Mbox.reset, 1, by decide⟩,
    ⟨0, EvRing.reset 7, 0, 8192, by decide⟩, ⟨8192, EvRing.reset 0, 8192, 8192, by decide⟩⟩

/-- The front of mailbox 0 in the terms of the statement: served next, with the LEN of its first word. -/
def frontOk (s : State) (len : Nat) : Bool :=
  s.serving && nextMbox s == some 0 && fld ((inFront s 0 4).getD 0 0) 20 12 == len

theorem witness_RequestTaken :
    (State.reset.serving = false) ∧ (nextMbox base = none)
    ∧ frontOk (posted_ 0 [0x00300001, 0, 0, 0] base) 3 = true
    ∧ frontOk (posted_ 0 [0x40000001, 0, 0, 0] base) 1024 = true
    ∧ (∃ (s : State) (h : List Word), frontOk s 4 = true ∧ h = inFront s 0 4 ∧ fld (h.getD 0 0) 0 16 ≠ 0x0120 ∧ fld (h.getD 0 0) 19 1 ≠ 0)
    ∧ (∃ (s : State) (h : List Word), frontOk s 4 = true ∧ h = inFront s 0 4 ∧ fld (h.getD 0 0) 0 16 ≠ 0x0120 ∧ fld (h.getD 0 0) 16 2 ≠ 0)
    ∧ (∃ (s : State) (h : List Word) (items : List Item), frontOk s 6 = true ∧ h = inFront s 0 4 ∧ fld (h.getD 0 0) 19 1 = 0 ∧ fld (h.getD 0 0) 16 2 = 0
      ∧ itemWords items = (inFront s 0 6).drop 4 ∧ (∀ i ∈ items, i.tag < 65536 ∧ i.vals.length < 65536) ∧ (opcodes.map (·.1)).contains (fld (h.getD 0 0) 0 16) = true)
    ∧ (∃ (s : State) (h : List Word), frontOk s 4 = true ∧ h = inFront s 0 4 ∧ fld (h.getD 0 0) 0 16 = 0x0120 ∧ itemWords [] = (inFront s 0 4).drop 4)
    ∧ ∃ (s : State) (h : List Word), frontOk s 4 = true ∧ h = inFront s 0 4 ∧ (∀ e ∈ opcodes, e.1 ≠ fld (h.getD 0 0) 0 16) ∧ fld (h.getD 0 0) 0 16 ≠ 0x0120 :=
  ⟨by decide, by decide, by decide +kernel, by decide +kernel,
    ⟨posted_ 0 [0x00480001, 0, 0, 0] base, _, by decide +kernel, rfl, by decide +kernel⟩,
    ⟨posted_ 0 [0x00410001, 0, 0, 0] base, _, by decide +kernel, rfl, by decide +kernel⟩,
    ⟨posted_ 0 [0x00600001, 0, 0, 0, 1, 5] base, _, [{ tag := 0, vals := [5] }], by decide +kernel, rfl, by decide +kernel⟩,
    ⟨posted_ 0 [0x00400120, 0, 0, 0] base, _, by decide +kernel, rfl, by decide +kernel⟩,
    ⟨posted_ 0 [0x00400099, 0, 0, 0] base, _, by decide +kernel, rfl, by decide +kernel⟩⟩

/-- A response that waits on mailbox 7. -/
def resp : Resp := { opcode := 1, quiet := false, seq := 7, handle := 0, detail := 0, status := 0, items := [], after := .none }

theorem witness_ResponsesWritten :
    (∃ (s : State) (m p : Nat), m < 11 ∧ isNmb m = false ∧ p = inPosted s m ∧ 4 ≤ p ∧ frontReady s m = false ∧ waiting s m = false
      ∧ (s.mboxAt m).headAt + 3000 * 8192 ≤ s.clk.tally)
    ∧ (∃ (s : State) (m n : Nat), m < 11 ∧ isNmb m = false ∧ s.serving = false ∧ waiting s m = false ∧ n = frontLen s m ∧ 4 ≤ n ∧ n ≤ 1023 ∧ n ≤ inPosted s m)
    ∧ (∃ (s : State) (p : Resp) (b : Mbox), b = s.mboxAt 10 ∧ findKey 10 s.svc.out = some p ∧ p.after ≠ .adm
      ∧ 1024 < (b.outWr + 2048 - b.outRd) % 2048 + p.words.length)
    ∧ ∃ (s : State) (p : Resp) (b : Mbox), b = s.mboxAt 7 ∧ findKey 7 s.svc.out = some p ∧ p.after = .none
      ∧ (b.outWr + 2048 - b.outRd) % 2048 + p.words.length ≤ 1024 :=
  ⟨⟨posted_ 10 [0x00500001, 0, 0, 0] (at_ 24576000), 10, 4, by decide +kernel⟩,
    ⟨posted_ 10 [0x00400001, 0, 0, 0] State.reset, 10, 4, by decide +kernel⟩,
    ⟨{ base with svc := { base.svc with out := [(10, resp)] }, mbox := base.mbox.set 10 { Mbox.reset with outWr := 1021 } }, resp, _, rfl, by decide +kernel⟩,
    ⟨{ base with svc := { base.svc with out := [(7, resp)] }, mbox := base.mbox.set 7 { Mbox.reset with outWr := 1020 } }, resp, _, rfl, by decide +kernel⟩⟩

/-- NMB1 listens on port 5000 of MAC 2, under the bootstrap attachment. -/
def netted (b : Nmb) : State :=
  { base with
    nmbs := [Nmb.reset, b],
    boot := { base.boot with nets := base.boot.nets.set 2 { NetBoot.zero with ipv4 := 0x0A000001#32 } } }

def nmb1 : Nmb := { Nmb.reset with macs := 4, port := 5000 }
def dgram : Datagram := { mac := 2, srcAddr := 9, srcPort := 77, dstPort := 5000, fragmented := false, length := 16, words := [0x00400001, 3, 0, 0] }
def sender : NetKey := ⟨9, 77, 3, 2⟩

theorem witness_NetworkMailbox :
    (∃ (s : State) (d : Datagram) (b : Nmb), macUp s d.mac = true ∧ nmbFor s d = some 1 ∧ s.nmbs[1]? = some b ∧ d.fragmented = false ∧ d.length < 16)
    ∧ (∃ (s : State) (d : Datagram) (b : Nmb), macUp s d.mac = true ∧ nmbFor s d = some 1 ∧ s.nmbs[1]? = some b ∧ d.fragmented = true)
    ∧ (∃ (s : State) (b : Nmb), macUp s dgram.mac = true ∧ nmbFor s dgram = some 1 ∧ s.nmbs[1]? = some b ∧ dgram.fragmented = false ∧ 16 ≤ dgram.length
      ∧ b.taken = some sender)
    ∧ (∃ (s : State) (b : Nmb), macUp s dgram.mac = true ∧ nmbFor s dgram = some 1 ∧ s.nmbs[1]? = some b ∧ b.taken = none
      ∧ b.stored.find? (fun e => e.1.addr == 9 && e.1.port == 77 && e.1.seq == 3) = some (sender, [1]))
    ∧ ∃ (s : State) (b : Nmb) (r : Mbox), macUp s dgram.mac = true ∧ nmbFor s dgram = some 1 ∧ s.nmbs[1]? = some b ∧ b.taken = none ∧ b.stored = []
      ∧ s.mbox[9]? = some r ∧ (r.inWr + 2048 - r.inRd) % 2048 + min 368 (dgram.length / 4) ≤ 1024 :=
  ⟨⟨netted nmb1, { dgram with length := 15 }, nmb1, by decide⟩, ⟨netted nmb1, { dgram with fragmented := true }, nmb1, by decide⟩,
    ⟨netted { nmb1 with taken := some sender }, _, by decide, by decide, rfl, by decide⟩,
    ⟨netted { nmb1 with stored := [(sender, [1])] }, _, by decide, by decide, rfl, by decide⟩,
    ⟨netted nmb1, nmb1, Mbox.reset, by decide⟩⟩

/-- Mailbox 7 may run requests. -/
theorem executes_base (s : State) (r : Request) (hs : s.serving = true) (ho : s.svc.out = []) (hm : r.mb < 11) : Executes s r :=
  ⟨hm, by simp [ho], hs⟩

/-- A block with channel 0 declared and looked up by mailbox 0. -/
def withChannel : State := handled (.channel 0) none (declared [.channel 0] base)

theorem witness_RequestTree :
    (Executes base (req 10 0 []))
    ∧ (∃ (ws : List Word) (txt : Name) (ref : Ref), (req 1 0 [{ tag := 1, vals := ws }]).handle = 0 ∧ textOf ws = some txt ∧ findPath base [] txt = .ok ref)
    ∧ (∃ h : HandleRec, (withChannel.fw.handles.find? fun x => x.word == hword && x.pins.contains 0) = some h)
    ∧ (∃ ref : Ref, refOfHandle withChannel hword = some ref ∧ ref.tag = none ∧ Fits (req 1 hword []) (queryItems withChannel ref))
    ∧ (∃ (s : State) (ref : Ref), refOfHandle s hword = some ref ∧ ref.tag = some 0x142 ∧ Fits (req 9 hword []) [{ tag := 2, vals := valueAt s ref.node 0x142 }])
    ∧ ∃ (ref : Ref) (l : List Item), refOfHandle withChannel hword = some ref ∧ ref.tag = none
      ∧ l = (nodeTags withChannel ref.node).map (fun t => { tag := t, vals := valueAt withChannel ref.node t : Item })
      ∧ sumNat (l.map fun i => 1 + i.vals.length) ≤ 1019 ∧ Fits (req 1 hword []) l :=
  ⟨executes_base _ _ rfl rfl (by decide), ⟨packText [47, 98, 101, 108, 108], [47, 98, 101, 108, 108], ⟨.bell, none⟩, by decide, by decide +kernel, by rfl⟩,
    ⟨_, rfl⟩, ⟨_, rfl, rfl, by intro h; cases h⟩, ⟨handled (.channel 0) (some 0x142) (declared [.channel 0] base), _, rfl, rfl, by intro h; decide +kernel⟩,
    ⟨_, _, rfl, rfl, rfl, by decide +kernel, by intro h; cases h⟩⟩

end Sys2Proof.Tests
end

