-- ==== Sys2Proof/Tests/WitnessEscrow.lean ====
section
/-! SUPPORT. Concrete states and operands that meet the hypotheses of the statements about escrow, scenes, configurations, ledgers and
updates. -/

namespace Sys2Proof.Tests

open Sys2Proof Sys2Proof.Machine

set_option Elab.async false

/-- DELAY_XFADE of channel 0, and its write. -/
def xfade : Write := { node := .channel 0, tag := 0x142, vals := [10] }

/-- Mailbox 1 has it staged. -/
def stagedOne : State := { withChannel with fw := { withChannel.fw with staged := [(1, xfade)] } }

theorem witness_RequestEscrow :
    (∃ (r : Request) (ref : Ref) (l : List (Nat × Write × PSpec)) (u : State), Executes withChannel r ∧ r.commitAt = 0
      ∧ refOfHandle withChannel r.handle = some ref ∧ permits (classOf withChannel ref.node) r.mb = true
      ∧ stageType withChannel ref (realItems r.items) = .ok l ∧ l.length = 1 ∧ rangeFault l = none
      ∧ depFault (stageView withChannel r.mb (l.map fun e => e.2.1)) l = none
      ∧ u = { withChannel with fw := { withChannel.fw with staged := (l.map fun e => e.2.1).foldl (stageOne r.mb) withChannel.fw.staged } }
      ∧ escrowFits u = true)
    ∧ (∃ r : Request, Executes withChannel r ∧ boundaryWord r.commitAt = true ∧ r.commitAt ≠ 0 ∧ (∀ i ∈ r.items, i.tag = 0) ∧ stagedOf withChannel r.mb = []
      ∧ Fits r [armItem (commitBoundary withChannel r) 0])
    ∧ ∃ (r : Request) (b : Nat), Executes stagedOne r ∧ r.commitAt = 0 ∧ (∀ i ∈ r.items, i.tag = 0) ∧ stagedOf stagedOne r.mb = [xfade]
      ∧ (stillThere stagedOne xfade = true ∧ permits (classOf stagedOne xfade.node) r.mb = true) ∧ gateWrites [xfade] = [] ∧ writesFit stagedOne [xfade] = none
      ∧ (b : Int) = commitBoundary stagedOne r ∧ stagedOne.clk.tally + 1024 ≤ b ∧ (∀ a ∈ stagedOne.armed, a.mb = r.mb → a.at_ ≠ b)
      ∧ (stagedOne.armed.filter fun a => a.mb == r.mb).length < 8 ∧ Fits r [armItem b (sumNat ([xfade].map Write.words))] :=
  ⟨⟨req 1 hword [{ tag := 0x142, vals := [10] }], ⟨.channel 0, none⟩, _, _, executes_base _ _ rfl rfl (by decide), by decide, by decide, by decide +kernel, rfl,
      by decide +kernel, by rfl, by decide +kernel, rfl, by decide +kernel⟩,
    ⟨{ req 1 0 [] with commitAt := 24576 }, executes_base _ _ rfl rfl (by decide), by decide, by decide, by decide, by decide, by intro h; cases h⟩,
    ⟨req 1 0 [], 8192, executes_base _ _ rfl rfl (by decide), by decide, by decide, by decide +kernel, by decide +kernel, by decide +kernel, by decide +kernel,
      by decide +kernel, by decide +kernel, by decide +kernel, by decide +kernel, by intro h; cases h⟩⟩

/-- Scene 0 on the chip is looked up; channel 0 is declared, and mailbox 1 has one write staged. -/
def withScene : State := { handled (.sceneChip 0) none (declared [.channel 0] base) with fw := { (handled (.sceneChip 0) none base).fw with staged := [(1, xfade)] } }

/-- It holds one write. -/
def scene0 : Scene := { node := .sceneChip 0, state := 1, xfade := 100, storedAt := 0, alarm := false, writes := [xfade] }
def withStored : State := { withScene with fw := { withScene.fw with scenes := [scene0] } }

theorem witness_RequestScenes_store :
    (∃ (r : Request) (w0 xf : Word) (ws : List Write), Executes withScene r ∧ r.commitAt = 0 ∧ nodeOfHandle withScene r.handle = some (.sceneChip 0)
      ∧ poolOf (.sceneChip 0) = some (true, 524288) ∧ r.items = [{ tag := 0x40, vals := [w0, xf] }, { tag := 0x41, vals := [] }] ∧ onlyBits 0x1F3 w0 = true ∧ xf.toNat ≤ 2000
      ∧ permits (some (if w0.getLsbD 8 then 0 else 1)) r.mb = true ∧ fld w0 0 2 = 0
      ∧ ws = captured withScene ((withScene.adm.cfg.nodes.map NodeRec.node).filter fun k =>
          captureKind w0 k && (([] : List Word).isEmpty || ((listedNodes withScene []).filterMap id).contains k))
      ∧ ws ≠ [] ∧ (∀ w ∈ ws, agrees withScene (w0.getLsbD 8) w.node = true) ∧ sumNat (ws.map fun w => w.vals.length) ≤ 131072
      ∧ poolUsed withScene true (.sceneChip 0) + sumNat (ws.map fun w => w.vals.length) ≤ 524288)
    ∧ (∃ (w0 : Word) (ws : List Write), onlyBits 0x1F3 w0 = true ∧ permits (some (if w0.getLsbD 8 then 0 else 1)) 1 = true ∧ fld w0 0 2 = 1
      ∧ ws = stagedOf withScene 1 ∧ ws ≠ [] ∧ (∀ w ∈ ws, sceneTag withScene w.node w.tag = true) ∧ ∀ w ∈ ws, agrees withScene (w0.getLsbD 8) w.node = true)
    ∧ ∃ (w0 h : Word) (k : Node) (x : Scene), onlyBits 0x1F3 w0 = true ∧ fld w0 0 2 = 2 ∧ nodeOfHandle withStored h = some k ∧ (poolOf k).isSome = true
      ∧ sceneRec withStored k = some x ∧ x.state = 1 ∧ ∀ w ∈ x.writes, agrees withStored (w0.getLsbD 8) w.node = true :=
  ⟨⟨req 1 hword [{ tag := 0x40, vals := [0x10, 2000] }, { tag := 0x41, vals := [] }], 0x10, 2000, _, executes_base _ _ rfl rfl (by decide), by decide, by decide,
      by decide, by decide, by decide, by decide, by decide, by decide, rfl, by decide +kernel⟩,
    ⟨1, _, by decide, by decide, by decide, rfl, by decide +kernel⟩, ⟨2, hword, .sceneChip 0, scene0, by decide +kernel⟩⟩

theorem witness_RequestScenes_recall :
    ∃ (r : Request) (fade b : Nat), Executes withStored r ∧ r.commitAt = 0 ∧ nodeOfHandle withStored r.handle = some (.sceneChip 0)
      ∧ sceneRec withStored (.sceneChip 0) = some scene0 ∧ scene0.state = 1 ∧ permits (some (if scene0.alarm then 0 else 1)) r.mb = true
      ∧ r.items = [{ tag := 0x43, vals := [wd fade] }] ∧ fade ≤ 2000
      ∧ escrowFits { withStored with armed := withStored.armed ++ [{ mb := r.mb, at_ := 0, seq := r.seq, kind := .commit, writes := scene0.writes }] } = true
      ∧ (∀ w ∈ scene0.writes, stillThere withStored w = true) ∧ writesFit withStored scene0.writes = none ∧ (b : Int) = commitBoundary withStored r
      ∧ withStored.clk.tally + 1024 ≤ b ∧ (∀ a ∈ withStored.armed, a.mb = r.mb → a.at_ ≠ b) ∧ (withStored.armed.filter fun a => a.mb == r.mb).length < 8 :=
  ⟨req 1 hword [{ tag := 0x43, vals := [2000] }], 2000, 8192, executes_base _ _ rfl rfl (by decide), by decide, by decide, by decide, by decide, by decide, by decide,
    by decide, by decide +kernel, by decide +kernel, by decide +kernel, by decide +kernel⟩

/-- Slot 0 of the configurations is looked up; the DRAM holds zeros, so its body has no record. -/
def slot0 : State := handled (.slot 0) none base

/-- Bank 1 of feed 0 is looked up, for up to 16 384 taps. -/
def bank1 (old : Option Bank) : State :=
  let s := handled (.bank 0 1) none (declared [.feed 0] base)
  { s with vals := [{ node := .feed 0, tag := 0x104, vals := [16384] }], fw := { s.fw with banks := old.toList } }

def loading : Bank := { feed := 0, bank := 1, state := 1, total := 2, shift := 4, taps := [9], crc := 0, readyAt := 0, mb := 1, lastAt := 0 }

/-- What ADMIT checks of that slot. -/
def slot0Admits : Bool :=
  match readConfig slot0 0 with
  | .error _ => false
  | .ok x => leavesAlarm slot0 x.2 && (recordsFault (under slot0 x.2 x.2.values) x.1.recs).isNone
      && (admitCheck slot0 (under slot0 x.2 (admittedVals slot0 x.2))).isOk

theorem slot0_admits : slot0Admits = true := by decide +kernel

theorem slot0_passes : ∃ d c pl, readConfig slot0 0 = .ok (d, c) ∧ leavesAlarm slot0 c = true ∧ recordsFault (under slot0 c c.values) d.recs = none
    ∧ admitCheck slot0 (under slot0 c (admittedVals slot0 c)) = .ok pl := by
  have h := slot0_admits
  unfold slot0Admits at h
  split at h
  · cases h
  · next x hx =>
    simp only [Bool.and_eq_true, Option.isNone_iff_eq_none] at h
    cases ha : admitCheck slot0 (under slot0 x.2 (admittedVals slot0 x.2)) with
    | error e => rw [ha] at h; cases h.2
    | ok pl => exact ⟨x.1, x.2, pl, hx, h.1.1, h.1.2, ha⟩

theorem witness_RequestConfig :
    (∃ d c pl, readConfig slot0 0 = .ok (d, c) ∧ leavesAlarm slot0 c = true ∧ recordsFault (under slot0 c c.values) d.recs = none
      ∧ admitCheck slot0 (under slot0 c (admittedVals slot0 c)) = .ok pl)
    ∧ (Executes slot0 (req 1 hword []) ∧ nodeOfHandle slot0 hword = some (.slot 0) ∧ slot0.adm.waiting = none)
    ∧ (nodeOfHandle (bank1 none) hword = some (.bank 0 1) ∧ permits (classOf (bank1 none) (.feed 0)) 1 = true ∧ 16384 ≤ pN (bank1 none) (.feed 0) 0x104
      ∧ onlyBits 0x703 (0x401 : Word) = true ∧ fld (0x401 : Word) 8 3 ≤ 4 ∧ (((bank1 none).feedAt 0).map fun fd => audible fd 1) ≠ some true
      ∧ (bank1 none).bankAt 0 1 = none ∧ (0x401 : Word).getLsbD 0 = true ∧ (0x401 : Word).getLsbD 1 = false)
    ∧ (∃ k, (bank1 (some loading)).bankAt 0 1 = some k ∧ k.state = 1 ∧ k.mb = 1 ∧ k.total = 2 ∧ k.shift = fld (0x402 : Word) 8 3 ∧ 1 = k.taps.length
      ∧ onlyBits 0x703 (0x402 : Word) = true ∧ (0x402 : Word).getLsbD 0 = false ∧ (0x402 : Word).getLsbD 1 = true ∧ 1 + [7#32].length = k.total)
    ∧ (∃ s : State, Executes s (req 1 hword []) ∧ nodeOfHandle s hword = some (.ring 7))
    ∧ ∃ (lo hi : Word), Authorised (keyed base) (req 1 0 []) ∧ onlyBits 0xFF lo = true
      ∧ ¬(fld lo 0 4 ≠ 0 ∧ fld hi 0 16 ≠ 0 ∧ fld lo 4 4 ≠ 0 ∧ fld hi 16 16 ≠ 0 ∧ fld hi 0 16 = fld hi 16 16) ∧ (keyed base).flash.update = none :=
  ⟨slot0_passes, ⟨executes_base _ _ rfl rfl (by decide), by decide⟩, by decide +kernel, ⟨loading, by decide +kernel⟩,
    ⟨handled (.ring 7) none base, executes_base _ _ rfl rfl (by decide), by decide⟩, ⟨0x0F, 0x1388, ⟨by decide, by decide, by decide⟩, by decide⟩⟩

/-- An entry of the event ledger. -/
def led : LedgerEntry := { num := 4, ev := ev, opSec := 0, resets := 1, repeats := 0, words := [1, 2] }
def withLedger : State := keyed { handled .ledgerEvent none base with ledg := { Ledgers.reset with events := [led], evNext := 5 } }

/-- An update under way. -/
def upd : Update := { mb := 1, target := 1, length := 8, crc := 0, words := [1], last := 0 }
def updating (u : Update) : State := keyed { base with flash := { base.flash with update := some u } }

theorem witness_RequestLedgerUpdate :
    (∃ first most : Nat, Executes withLedger (req 1 hword []) ∧ ledgerOf withLedger hword = some false ∧ first < 2 ^ 32 ∧ 1 ≤ most ∧ most ≤ 255
      ∧ ((ledgerHeld withLedger false).head?).isSome = true ∧ Fits (req 1 hword []) (fitItems 1015 ((ledgerHeld withLedger false).map fun e => { tag := 0x71, vals := e.2 })))
    ∧ (Authorised withLedger (req 1 hword []) ∧ ledgerOf withLedger hword = some false)
    ∧ (Executes (keyed base) (req 10 0 []) ∧ Authorised (keyed base) (req 10 0 []) ∧ (keyed base).flash.update = none ∧ (keyed base).boot.image ≠ 1)
    ∧ (∃ (u : Update) (off : Nat) (ws : List Word), Authorised (updating u) (req 1 0 []) ∧ (updating u).flash.update = some u ∧ u.mb = 1 ∧ ws ≠ [] ∧ ws.length ≤ 1013
      ∧ off = 4 * u.words.length ∧ off + 4 * ws.length ≤ u.length ∧ u.length ≤ 16777216)
    ∧ ∃ u : Update, Authorised (updating u) (req 1 0 []) ∧ (updating u).flash.update = some u ∧ u.mb = 1 ∧ u.length ≤ 4 * u.words.length :=
  ⟨⟨0xFFFFFFFF, 255, executes_base _ _ rfl rfl (by decide), by decide, by decide, by decide, by decide, by decide, by intro h; cases h⟩,
    ⟨⟨by decide, by decide, by decide⟩, by decide⟩,
    ⟨executes_base _ _ rfl rfl (by decide), ⟨by decide, by decide, by decide⟩, by decide⟩,
    ⟨upd, 4, [9], ⟨by decide, by decide, by decide⟩, by decide⟩, ⟨{ upd with words := [1, 2] }, ⟨by decide, by decide, by decide⟩, by decide⟩⟩

theorem witness_RequestGates :
    (∃ (s : State) (r : Request), r.mb < 11 ∧ (∀ e ∈ s.svc.out, e.1 ≠ r.mb) ∧ s.serving = false)
    ∧ (∃ r : Request, r.mb < 11 ∧ base.serving = true ∧ isNmb r.mb = true)
    ∧ (isNmb 10 = false ∧ base.maint.key = false)
    ∧ (∃ s : State, s.serving = true ∧ s.maint.key = true ∧ s.maint.loop = false)
    ∧ ∃ r : Request, r.mb < 11 ∧ r.commitAt ≠ 0 ∧ r.commitAt.toNat % 8192 ≠ 0 :=
  ⟨⟨State.reset, req 10 0 [], by decide⟩, ⟨req 9 0 [], by decide⟩, by decide, ⟨{ base with maint := { Maint.reset with key := true } }, by decide⟩,
    ⟨{ req 0 0 [] with commitAt := 8193 }, by decide⟩⟩

end Sys2Proof.Tests
end

