-- ==== Sys2Proof/Tests/WitnessGeneral.lean ====
section
/-! SUPPORT. Concrete states and operands that meet the hypotheses of the statements about the queue, the invariant, messages, event
rings, resets and bring-up. -/

namespace Sys2Proof.Tests

open Sys2Proof Sys2Proof.Machine

set_option Elab.async false

theorem reset_inv : State.reset.Inv :=
  ⟨⟨by decide, by decide, by decide, by decide, by decide⟩, ⟨by decide, by decide⟩, by intro c h; cases h⟩

theorem witness_CommandQueue :
    (∃ (s : State) (c : Instr) (rest : List Instr), s.pending = c :: rest) ∧ ∃ s : State, s.pending = [] :=
  ⟨⟨{ base with pending := [.requestTake, .monKey] }, .requestTake, [.monKey], rfl⟩, base, rfl⟩

theorem witness_ResetState : ∃ s : State, s = State.reset := ⟨_, rfl⟩

theorem witness_EveryCommandCompletes : ∃ s : State, s.Shape := ⟨State.reset, reset_inv.shape⟩

theorem witness_StepKeepsInvariant : ∃ s t : State, s.Inv ∧ s.pending ≠ [] ∧ step s = .next t :=
  ⟨{ State.reset with pending := [.jtagExtest] }, _,
    ⟨⟨by decide, by decide, by decide, by decide, by decide⟩, ⟨by decide, by decide⟩, by
      intro c h; simp only [List.mem_singleton] at h; subst h; rfl⟩, by decide, rfl⟩

theorem witness_MessageEncoding :
    (∃ is : List Item, is ≠ [] ∧ ∀ i ∈ is, i.wf = true)
    ∧ (∃ txt : Name, txt ≠ [] ∧ ∀ c ∈ txt, 1 ≤ c ∧ c < 256)
    ∧ (∃ (c : Cfg) (n : Node) (p : List Name), n.wf = true ∧ n = .tandem p ∧ p ≠ [] ∧ stageIn c p = none)
    ∧ (∃ (c : Cfg) (n : Node) (p : List Name), n.wf = true ∧ n = .inst p ∧ p ≠ [] ∧ stageIn c p ≠ none)
    ∧ ∃ n : Node, n.wf = true ∧ (∀ p, n ≠ .tandem p) ∧ ∀ p, n ≠ .inst p :=
  ⟨⟨[{ tag := 65535, vals := [1, 2] }, { tag := 1, vals := [] }], by decide⟩,
    ⟨[1, 255], by decide⟩,
    ⟨Cfg.empty, _, [[65]], by decide, rfl, by decide, by decide⟩,
    ⟨{ Cfg.empty with tandems := [⟨[[65]], 1, 1, 1, none, [⟨[66], some [67]⟩], [], []⟩] }, _, [[65], [66]], by decide, rfl, by decide, by decide⟩,
    ⟨.rx 3 127, by decide, by simp, by simp⟩⟩

theorem witness_EventRings_words :
    ∃ (e : Event) (w : List Word), w = e.words State.reset 5 ∧ e.code < 65536 ∧ e.source < 16 ∧ e.cls < 4 ∧ w.length < 4096
      ∧ [StampKind.boundary, .detect, .block, .teller][0]? = some e.kind :=
  ⟨ev, ev.words State.reset 5, by decide +kernel⟩

/-- Ring 0 with these indices and this run of lost records. -/
def withRing (wr rd : Nat) (run : Option (Nat × Nat)) : EvRing := { EvRing.reset 0 with wr := wr, rd := rd, run := run, irqEn := true }

theorem witness_EventRings :
    (∃ r, State.reset.rings[7]? = some r ∧ (r.enable = false ∨ r.mask.testBit (ev.code / 4096) = false))
    ∧ (∃ r, State.reset.rings[0]? = some r ∧ r.enable = true ∧ r.mask.testBit (ev.code / 4096) = true ∧ r.run = none
      ∧ (ev.words State.reset r.eseq).length ≤ r.space)
    ∧ (∃ r, ({ base with rings := base.rings.set 0 (withRing 4096 0 none) } : State).rings[0]? = some r ∧ r.irqEn = true ∧ r.run = none
      ∧ r.space < (ev.words base r.eseq).length)
    ∧ (∃ r, ({ base with rings := base.rings.set 0 (withRing 4091 0 (some (1, 2))) } : State).rings[0]? = some r ∧ r.run = some (1, 2) ∧ r.space < 6)
    ∧ (∃ r : EvRing, r = withRing 4084 0 (some (1, 2)) ∧ 6 ≤ r.space
      ∧ (ev.words base r.eseq).length ≤ ({ r with wr := (r.wr + 6) % (2 * r.size) } : EvRing).space ∧ (ev.words base r.eseq).length + 6 ≤ r.size)
    ∧ ∃ r : EvRing, r = withRing 4085 0 (some (1, 2)) ∧ 6 ≤ r.space
      ∧ ({ r with wr := (r.wr + 6) % (2 * r.size) } : EvRing).space < (ev.words base r.eseq).length :=
  ⟨⟨EvRing.reset 7, by decide +kernel⟩, ⟨EvRing.reset 0, by decide +kernel⟩, ⟨withRing 4096 0 none, by decide +kernel⟩,
    ⟨withRing 4091 0 (some (1, 2)), by decide +kernel⟩, ⟨withRing 4084 0 (some (1, 2)), by decide +kernel⟩,
    ⟨withRing 4085 0 (some (1, 2)), by decide +kernel⟩⟩

theorem witness_Resets :
    (∃ h : Nat, h < 4 ∧ base.boot.porst = false)
    ∧ (∃ s : State, s.boot.porst = true)
    ∧ ∃ (s : State) (a : Nat), s.boot.jumpAt = some a ∧ s.boot.served = false :=
  ⟨⟨3, by decide⟩, ⟨{ base with boot := { base.boot with porst := true } }, rfl⟩,
    ⟨{ base with boot := { base.boot with served := false } }, 0, by decide⟩⟩

/-- Wheel 0 has lost its spokes. -/
def noWheel0 : State := { base with spokes := base.spokes.zipIdx.map fun e => if e.2 < 10 then { e.1 with role := 3 } else e.1 }

theorem witness_BringUp :
    (∃ (s : State) (c0 c1 : DramCh), s.boot.domains.testBit 7 = true ∧ s.dram.ready = false ∧ s.dram.channels = [c0, c1])
    ∧ (∃ (s : State) (a : Nat) (p q : TellerPair), s.boot.jumpAt = some a ∧ s.boot.served = false ∧ s.svc.state = 0 ∧ s.dram.ready = true
      ∧ s.fault.pairs = [p, q] ∧ p.marked = false ∧ q.marked = false ∧ s.flash.cfgs = [none, none])
    ∧ (noWheel0.serving = true ∧ noWheel0.clk.tally % 8192 = 0 ∧ noWheel0.boot.domains.testBit 2 = true
      ∧ ∀ i, i < 10 → spokeRole noWheel0 (10 * (2 - 2) + i) ≠ 0 ∧ spokeRole noWheel0 (10 * (2 - 2) + i) ≠ 2)
    ∧ (base.serving = true ∧ base.clk.tally % 8192 = 0 ∧ base.boot.domains.testBit 8 = true
      ∧ ∀ n, n < 4 → macAdmitted base n = false ∧ macBoot base n = false)
    ∧ (∃ s : State, (s.serving = true → s.clk.tally % 8192 = 0) ∧ s.boot.domains.testBit 5 = false ∧ s.boot.jumpAt.isSome = true)
    ∧ ((at_ 8191).serving = true ∧ (at_ 8191).clk.tally % 8192 ≠ 0) :=
  ⟨⟨{ base with dram := Dram.reset }, DramCh.reset, DramCh.reset, by decide⟩,
    ⟨{ base with boot := { base.boot with served := false }, svc := Svc.reset, fault := FaultSt.reset }, 0, TellerPair.reset, TellerPair.reset, by decide⟩,
    by decide +kernel, by decide +kernel, ⟨{ base with boot := { base.boot with domains := 0xFDF } }, by decide⟩, by decide⟩

end Sys2Proof.Tests
end

