-- ==== Sys2Proof/Tests/WitnessHost.lean ====
section
/-! SUPPORT. Concrete states and operands that meet the hypotheses of the statements about host accesses, the monitor and JTAG. -/

namespace Sys2Proof.Tests

open Sys2Proof Sys2Proof.Machine

set_option Elab.async false

/-- A block with these host registers. -/
def withRegs (f : HostRegs → HostRegs) (s : State) : State := { s with regs := f s.regs }

theorem witness_RegisterAccess_masters : ∀ m : Master, hostOn base m = true := by intro m; cases m <;> decide

theorem witness_RegisterAccess :
    (∃ size off : Nat, (size = 1 ∨ size = 2) ∧ off < 4 ∧ off % size = 0)
    ∧ (∃ size off : Nat, (size = 1 ∨ size = 2) ∧ off < 0x100000 ∧ off % size = 0)
    ∧ (∃ size a : Nat, ((size = 2 ∧ a % 2 ≠ 0) ∨ (0 < size ∧ size % 4 = 0 ∧ a % 4 ≠ 0)) ∧ base.regs.err.busErr = false ∧ base.regs.busValid = false ∧ a < 2 ^ 24)
    ∧ (∃ s : State, hostOn s .pcie = true ∧ s.regs.busValid = true)
    ∧ (∃ (s : State) (h : HdQueue) (v : Nat), s.regs.hd[15]? = some h ∧ 4 ≤ h.k ∧ h.k ≤ 12 ∧ h.wr < 2 ^ (h.k + 1) ∧ h.rd < 2 ^ (h.k + 1) ∧ v < 2 ^ (h.k + 1)
      ∧ (v + 2 ^ (h.k + 1) - h.rd) % 2 ^ (h.k + 1) ≤ 2 ^ h.k ∧ (h.wr + 2 ^ (h.k + 1) - h.rd) % 2 ^ (h.k + 1) ≤ (v + 2 ^ (h.k + 1) - h.rd) % 2 ^ (h.k + 1))
    ∧ ∃ (s : State) (h : HdQueue) (v : Nat), s.regs.hd[0]? = some h ∧ 4 ≤ h.k ∧ h.k ≤ 12 ∧ h.wr < 2 ^ (h.k + 1) ∧ h.rd < 2 ^ (h.k + 1) ∧ v < 2 ^ (h.k + 1)
      ∧ 2 ^ h.k < (v + 2 ^ (h.k + 1) - h.rd) % 2 ^ (h.k + 1) :=
  ⟨⟨2, 2, by decide⟩, ⟨2, 0xFFFFE, by decide⟩, ⟨4, 0xFFFFFE, by decide⟩, ⟨withRegs (fun r => { r with busValid := true }) base, by decide⟩,
    ⟨base, HdQueue.reset, 16, by decide⟩, ⟨base, HdQueue.reset, 17, by decide⟩⟩

/-- A half of a pair waits at offset `a`. -/
def half (m : Master) (a : Nat) : State := keyed (withRegs (fun r => { r with halves := [{ off := a, master := m, value := 1#32, at_ := 0 }] }) (at_ 3))

theorem witness_PairedWrites :
    (∃ (s : State) (m : Master) (a : Nat), hostOn s m = true ∧ a ∈ [0x60, 0x68, 0x70, 0xA008, 0xF008] ∧ (a = 0x60 ∨ a = 0x70 → m = .tellerA ∨ m = .tellerB)
      ∧ ∀ h ∈ s.regs.halves, h.off ≠ a)
    ∧ (∀ a ∈ [0x60, 0x68, 0x70, 0xA008, 0xF008], hostOn (half .tellerA a) .tellerA = true ∧ (half .tellerA a).regs.halves.length = 1
      ∧ (half .tellerA a).regs.halves.find? (fun h => h.off = a) = some { off := a, master := .tellerA, value := 1#32, at_ := 0 }
      ∧ (half .tellerA a).clk.tally ≤ 0 + 3 ∧ (half .tellerA a).maint.key = true ∧ (half .tellerA a).maint.loop = true)
    ∧ (∃ (s : State) (h : PairHalf), hostOn s .pcie = true ∧ s.regs.halves.find? (fun h => h.off = 0x68) = some h ∧ h.master ≠ .pcie)
    ∧ (∃ (s : State) (h : PairHalf), s.regs.halves.find? (fun h => h.off = 0x68) = some h ∧ 2#32 ≠ ~~~h.value)
    ∧ (∃ (s : State) (h : PairHalf), s.regs.halves.find? (fun h => h.off = 0x68) = some h ∧ h.at_ + 3 < s.clk.tally)
    ∧ ∃ (s : State) (h : PairHalf), s.regs.halves.find? (fun h => h.off = 0xF008) = some h ∧ h.master = .spi ∧ s.clk.tally ≤ h.at_ + 3
      ∧ s.maint.key = false ∧ s.maint.loop = true :=
  ⟨⟨base, .spi, 0x68, by decide⟩, by decide, ⟨half .spi 0x68, _, by decide, rfl, by decide⟩, ⟨half .spi 0x68, _, rfl, by decide⟩,
    ⟨{ half .spi 0x68 with clk := (at_ 4).clk }, _, rfl, by decide⟩,
    ⟨{ half .spi 0xF008 with maint := { Maint.reset with loop := true } }, _, rfl, by decide⟩⟩

theorem witness_SpiTransactions :
    (∃ cmd a2 a1 a0 b0 b1 b2 b3 hcrc dcrc : Byte, hostOn base .spi = true ∧ cmd = 0x12#8 ∧ (a2.toNat * 65536 + a1.toNat * 256 + a0.toNat) % 4 = 0
      ∧ hcrc = crc8 [cmd, 0#8, a2, a1, a0] ∧ dcrc = crc8 [b0, b1, b2, b3])
    ∧ (∃ cmd hcrc dcrc b0 b1 b2 b3 : Byte, cmd = 0x02#8 ∧ hcrc = crc8 [cmd, 0#8, 0xFF#8, 0xFF#8, 0xFC#8] ∧ dcrc ≠ crc8 [b0, b1, b2, b3])
    ∧ (∃ cmd hcrc : Byte, cmd = 0x13#8 ∧ hcrc = crc8 [cmd, 0#8, 0#8, 0#8, 0x54#8])
    ∧ (∃ cmd hcrc : Byte, cmd = 0x03#8 ∧ hcrc ≠ crc8 [cmd, 0#8, 0#8, 0#8, 0x54#8] ∧ ∀ h ∈ base.regs.halves, h.master ≠ .spi) :=
  ⟨⟨0x12#8, 0#8, 0#8, 0x54#8, 1#8, 2#8, 3#8, 4#8, _, _, by decide, rfl, by decide, rfl, rfl⟩, ⟨0x02#8, _, 0#8, 0#8, 0#8, 0#8, 0#8, rfl, rfl, by decide +kernel⟩,
    ⟨0x13#8, _, rfl, rfl⟩, ⟨0x03#8, 0#8, rfl, by decide +kernel⟩⟩

/-- Queue 0 has a descriptor to take. -/
def queued : HdQueue := { HdQueue.reset with enable := true, wr := 31, rd := 30 }

theorem witness_HostEngines :
    (∃ (s : State) (x : Mac), s.net.macs[3]? = some x ∧ s.regs.snapUntil ≤ s.clk.tally ∧ s.boot.domains.testBit 8 = true)
    ∧ (∃ (s : State) (x : Mac), s.net.macs[0]? = some x ∧ s.regs.snapUntil ≤ s.clk.tally ∧ s.boot.domains.testBit 8 = false)
    ∧ (∃ s : State, s.clk.tally < s.regs.snapUntil)
    ∧ (∃ (s : State) (b : IndBank) (x : Mac), hostOn s .spi = true ∧ s.regs.ind[masterCode .spi]? = some b ∧ b.addr = 0x03000010#32 ∧ s.boot.domains.testBit 8 = true
      ∧ s.net.macs[0]? = some x)
    ∧ (∃ (s : State) (b : IndBank), hostOn s .pcie = true ∧ s.regs.ind[masterCode .pcie]? = some b ∧ b.addr.toNat < 0x02000000)
    ∧ (∀ len ∈ [63#32, 65#32, 65600#32], len.toNat < 64 ∨ 65536 < len.toNat ∨ len.toNat % 64 ≠ 0)
    ∧ (∃ (s : State) (h : HdQueue), s.regs.hd[7]? = some h ∧ h.enable = true ∧ h.cur = none ∧ 4 ≤ h.k ∧ h.k ≤ 12
      ∧ h.wr < 2 ^ (h.k + 1) ∧ h.rd < 2 ^ (h.k + 1) ∧ h.wr ≠ h.rd)
    ∧ (∀ len ∈ [64#32, 65536#32], 64 ≤ len.toNat ∧ len.toNat ≤ 65536 ∧ len.toNat % 64 = 0)
    ∧ (∃ (s : State) (h : HdQueue), s.regs.hd[0]? = some h ∧ h.enable = true ∧ h.cur = none ∧ 4 ≤ h.k ∧ h.k ≤ 12
      ∧ h.wr < 2 ^ (h.k + 1) ∧ h.rd < 2 ^ (h.k + 1) ∧ h.wr ≠ h.rd ∧ (0x40#32).toNat % 64 = 0
      ∧ (s.recs.getD 0 RecRing.reset).recs = [])
    ∧ (∃ (s : State) (b : IndBank), s.regs.ind[2]? = some b ∧ (∀ h ∈ s.regs.halves, h.master ≠ .pcie) ∧ s.dram.ports = []
      ∧ ∀ e ∈ s.dram.entries, e.req = 42 ∨ e.req = 43 → e.write = true)
    ∧ ∃ s : State, (s.boot.hostStrap = 0 ∨ s.boot.hostStrap = 2) ∧ s.boot.domains.testBit 9 = true :=
  ⟨⟨base, Mac.reset, by decide⟩, ⟨{ base with boot := { base.boot with domains := 1 } }, Mac.reset, by decide⟩,
    ⟨withRegs (fun r => { r with snapUntil := 1 }) base, by decide⟩,
    ⟨withRegs (fun r => { r with ind := List.replicate 4 { IndBank.reset with addr := 0x03000010#32 } }) base, _, Mac.reset, rfl, rfl, by decide⟩,
    ⟨base, IndBank.reset, by decide⟩,
    by simp, ⟨withRegs (fun r => { r with hd := List.replicate 16 queued }) base, queued, by decide +kernel⟩,
    by simp, ⟨withRegs (fun r => { r with hd := List.replicate 16 queued }) base, queued, by decide +kernel⟩,
    ⟨base, IndBank.reset, by decide⟩, ⟨base, by decide⟩⟩

theorem witness_MonitorAccess :
    (base.boot.porst = false ∧ base.maint.awaiting = false)
    ∧ (∃ (r : Nat) (w : Word) (t : State), r < 0x100000 ∧ r % 4 = 0 ∧ regRead .tellerA r base = some (w, t))
    ∧ (∃ a : Nat, a % 4 ≠ 0)
    ∧ (base.boot.jumpAt ≠ none ∧ base.maint.key = false)
    ∧ (∃ s : State, s.boot.jumpAt ≠ none ∧ s.maint.key = true ∧ s.maint.loop = false)
    ∧ (∃ s u : State, s.boot.jumpAt ≠ none ∧ s.maint.key = true ∧ s.maint.loop = true ∧ u = raiseNode 0xB007 .teller s.clk.tally none 10 0 [] s
      ∧ (∀ h ∈ u.regs.halves, h.master ≠ .tellerA) ∧ u.boot.domains.testBit 6 = true ∧ (∀ h ∈ u.regs.halves, h.off ≠ 0x68)
      ∧ (∃ x, u.boot.domains.testBit 8 = true ∧ u.net.macs[0]? = some x ∧ u.regs.mind.off = false))
    ∧ (∃ p : Nat, p + 8 ≤ 0x2000000 ∧ p % 4 = 0)
    ∧ ∃ x : Mac, base.boot.domains.testBit 8 = true ∧ base.net.macs[0]? = some x ∧ base.regs.mind.off = false :=
  ⟨by decide, ⟨0x54, 0#32, base, by decide⟩, ⟨0x10000001, by decide⟩, by decide, ⟨{ base with maint := { Maint.reset with key := true } }, by decide⟩,
    ⟨keyed base, _, by decide, by decide, by decide, rfl, by decide +kernel, by decide +kernel, by decide +kernel, Mac.reset, by decide +kernel⟩,
    ⟨0x1FFFFF8, by decide⟩, ⟨Mac.reset, by decide⟩⟩

/-- One entry of the event ledger. -/
def entry : LedgerEntry := { num := 4, ev := ev, opSec := 0, resets := 1, repeats := 0, words := [1, 2] }

theorem witness_MonitorLines :
    (base.boot.porst = false ∧ base.maint.awaiting = false ∧ 2047 < 2048)
    ∧ (∃ (s : State) (r : List Word), s.boot.jumpAt = none ∧ s.ledg.margins.getLast? = some r)
    ∧ (∃ (s : State) (a : Nat) (r : List Word), s.boot.jumpAt = some a ∧ s.ledg.margins.getLast? = some r)
    ∧ (∃ (s : State) (first n : Nat), s.ledg.events ≠ [] ∧ ∀ e ∈ ledgerHeld s false, e.1 < first ∨ first + n ≤ e.1)
    ∧ (∃ (s : State) (e : LedgerEntry), s.ledg.events = [e])
    ∧ (∃ rate : Nat, rate ∈ [115200, 230400, 460800, 921600, 1000000, 2000000, 3000000])
    ∧ (∃ rate : Nat, rate ∉ [115200, 230400, 460800, 921600, 1000000, 2000000, 3000000])
    ∧ (∃ s : State, s.svc.state ≠ 1)
    ∧ (∃ (s : State) (ws : List Word) (b : Mbox), s.svc.state = 1 ∧ s.mbox[10]? = some b ∧ (b.inWr + 2048 - b.inRd) % 2048 + ws.length + 1 ≤ 1024)
    ∧ (∃ s : State, s.maint.awaiting = true)
    ∧ ∃ (s : State) (b : Nat), s.maint.baudAt = some b ∧ b + 10 * 24576000 ≤ s.clk.tally :=
  ⟨by decide, ⟨{ State.reset with ledg := { Ledgers.reset with margins := [[1]] } }, [1], by decide⟩,
    ⟨{ base with ledg := { Ledgers.reset with margins := [[1]] } }, 0, [1], by decide⟩,
    ⟨{ base with ledg := { Ledgers.reset with events := [entry] } }, 1, 3, by decide⟩,
    ⟨{ base with ledg := { Ledgers.reset with events := [entry] } }, entry, rfl⟩, ⟨3000000, by decide⟩, ⟨9600, by decide⟩, ⟨State.reset, by decide⟩,
    ⟨base, [1, 2, 3], Mbox.reset, by decide⟩, ⟨{ base with maint := { Maint.reset with awaiting := true } }, rfl⟩,
    ⟨{ at_ 245760000 with maint := { Maint.reset with baudAt := some 0 } }, 0, by decide⟩⟩

end Sys2Proof.Tests
end

