-- ==== Sys2Proof/Tests/WitnessPorts.lean ====
section
/-! SUPPORT. Concrete states and operands that meet the hypotheses of the statements about sample ports, the gear unit, the pilot channels
and the network. -/

namespace Sys2Proof.Tests

open Sys2Proof Sys2Proof.Machine

set_option Elab.async false

/-- TDM port 0 with this status, of 8 slots, at 48 kHz unless a RATE value is given. -/
def sai (p : PortSt) : SaiPort :=
  { n := 0, st := p, slots := 8, rxMask := 0xFF, txMask := 0, change := none, tx := [], missing := 0, excess := 0, slip := false, bcnt := 0, dout := [] }

def port (st clean fifo : Nat) : PortSt :=
  { PortSt.new 0 (.sai 0) with state := st, clean := clean, fifo := List.replicate fifo (0, []) }

def ported (t : Nat) (p : PortSt) (vals : List Write) : State := { at_ t with sais := [sai p], vals := vals }

/-- The fifo after a period on port 0. -/
def fifoAfter (s : State) (x : SaiPort) (bclks : Nat) : List (Nat × List Int) :=
  (periodStep (portHz s (.sai 0)) s.clk.holdover (bclks == 32 * x.slots) 1 512 x.st).fifo

theorem witness_PortPeriods_tdm :
    (∃ (s : State) (x : SaiPort), s.saiAt 0 = some x ∧ x.change = none ∧ portHz s (.sai 0) = 48000 ∧ ((fifoAfter s x 256).length + 1) * x.slots ≤ 32)
    ∧ (∃ (s : State) (x : SaiPort), s.saiAt 0 = some x ∧ x.change = none ∧ portHz s (.sai 0) = 48000 ∧ 32 < ((fifoAfter s x 256).length + 1) * x.slots
      ∧ (periodStep (portHz s (.sai 0)) s.clk.holdover true 1 512 x.st).state ≠ 2)
    ∧ ∃ (s : State) (x : SaiPort), s.saiAt 0 = some x ∧ x.change = none ∧ portHz s (.sai 0) ≠ 48000 :=
  ⟨⟨ported 0 (port 1 3 3) [], _, rfl, by decide +kernel⟩, ⟨ported 0 (port 1 3 4) [], _, rfl, by decide +kernel⟩,
    ⟨ported 0 (port 1 3 0) [⟨.sai 0, 0x102, [1]⟩], _, rfl, by decide +kernel⟩⟩

theorem witness_PortPeriods_step :
    (∃ (p : PortSt) (start : Nat), p.state = 1 ∧ p.clean ≠ 0 ∧ p.clean < 479 ∧ (((start : Int) - p.first) * 48000 - p.clean * 24576000).natAbs ≤ 8 * 48000)
    ∧ (∃ (p : PortSt) (start : Nat), p.state = 2 ∧ p.anomaly = none ∧ (((start : Int) - p.base) * 48000 - (p.count + 1 : Nat) * 24576000).natAbs ≤ 8 * 48000)
    ∧ (port 3 0 0).state = 3 ∧ (port 4 0 0).state = 4 :=
  ⟨⟨port 1 478 0, 478 * 512 + 8, by decide⟩, ⟨port 2 0 0, 504, by decide⟩, rfl, rfl⟩

def aesi0 : AesIn := { n := 0, st := PortSt.new 0 (.aesi 0), chans := [AesChan.new, AesChan.new], sinceZ := none, parity := 0, biph := 0, block := 0, fresh := 0, flags := 0 }

theorem witness_PortPeriods_change :
    (∃ (s : State) (x : SaiPort) (b start : Nat), (∀ y ∈ s.sais, y.n = 0 → y = x) ∧ s.sais ≠ [] ∧ x.n = 0 ∧ x.change = some b ∧ b ≤ start)
    ∧ ∃ (s : State) (x : AesIn) (pre : Preamble), s.aesiAt 0 = some x ∧ x.sinceZ = none ∧ pre ≠ .z ∧ (∀ y ∈ s.aesis, y.n = 0 → y = x) ∧ x.chans.length = 2 :=
  ⟨⟨{ base with sais := [{ sai (port 2 0 0) with change := some 512 }] }, { sai (port 2 0 0) with change := some 512 }, 512, 512, by decide⟩,
    ⟨{ base with aesis := [aesi0] }, aesi0, .lost, by decide⟩⟩

theorem witness_PortStates :
    (∃ (s : State) (p : PortSt), s.portAt (.sai 0) = some p ∧ s.clk.tally % 8192 = 0 ∧ p.state = 1 ∧ p.stop = none ∧ 480 ≤ p.clean)
    ∧ (∃ (s : State) (p : PortSt) (c q : Nat), s.portAt (.sai 0) = some p ∧ s.clk.tally % 8192 = 0 ∧ p.state = 2 ∧ p.stop = none ∧ p.anomaly = some (c, q))
    ∧ (∃ (s : State) (p : PortSt) (c q : Nat), s.portAt (.sai 0) = some p ∧ s.clk.tally % 8192 = 0 ∧ p.stop = some (c, q) ∧ (p.state = 1 ∨ p.state = 2 ∨ p.state = 3))
    ∧ (∃ (s : State) (p : PortSt), s.portAt (.sai 0) = some p ∧ (p.state = 1 ∨ p.state = 2 ∨ p.state = 3) ∧ p.stop = none ∧ p.last + 1024 ≤ s.clk.tally)
    ∧ (∃ (s : State) (p : PortSt), s.portAt (.aesi 0) = some p ∧ (p.state = 1 ∨ p.state = 2 ∨ p.state = 3) ∧ p.stop = none ∧ p.last + 1024 ≤ s.clk.tally)
    ∧ ((at_ 8192).clk.tally % 8192 = 0) ∧ ((at_ 98304).clk.tally % (192 * 512) = 0)
    ∧ (∃ (s : State) (x : Pdm), s.pdmAt 15 = some x ∧ (x.state = 1 ∨ x.state = 2) ∧ x.deadAt = none)
    ∧ ∃ (s : State) (x : Pdm), s.pdmAt 15 = some x ∧ x.state = 4 ∧ x.backAt = none :=
  ⟨⟨ported 8192 (port 1 480 0) [], _, rfl, by decide +kernel⟩,
    ⟨ported 8192 { port 2 0 0 with anomaly := some (1, 5) } [], { port 2 0 0 with anomaly := some (1, 5) }, 1, 5, by decide +kernel⟩,
    ⟨ported 8192 { port 3 0 0 with stop := some (1, 5) } [], { port 3 0 0 with stop := some (1, 5) }, 1, 5, by decide +kernel⟩,
    ⟨ported 1024 (port 3 0 0) [], port 3 0 0, by decide +kernel⟩,
    ⟨{ at_ 1024 with aesis := [aesi0] }, aesi0.st, by decide +kernel⟩, by decide, by decide,
    ⟨{ base with pdms := [{ n := 15, state := 2, stuck := 0, flag := false, deadAt := none, backAt := none }] }, _, rfl, by decide⟩,
    ⟨{ base with pdms := [{ n := 15, state := 4, stuck := 0, flag := false, deadAt := none, backAt := none }] }, _, rfl, by decide⟩⟩

def gear (w : Option Nat) (f : Fade Nat) : Gear :=
  { id := .sai 0, want := none, ask := none, warmTo := w, warmAll := 1, byLock := true, ta := 0, filter := f, muteAt := none, rampAt := none, resets := 0,
    mismatches := 0, words := [], count := 0, frozen := [], fcount := 0 }

def geared (g : Gear) : State := { at_ 8192 with gears := [g] }

theorem witness_GearRules :
    (∃ (s : State) (g : Gear), s.gearAt (.sai 0) = some g ∧ (∀ x ∈ s.gears, x.id = .sai 0 → x = g) ∧ s.clk.tally % 8192 = 0 ∧ g.warmTo = some 8192 ∧ 8192 ≤ s.clk.tally
      ∧ ∀ k, GearId.sai 0 ≠ .pdm k)
    ∧ (∃ (s : State) (g : Gear), s.gearAt (.sai 0) = some g ∧ (∀ x ∈ s.gears, x.id = .sai 0 → x = g) ∧ g.warmTo = none)
    ∧ (∃ (s : State) (g : Gear), s.gearAt (.sai 0) = some g ∧ (∀ x ∈ s.gears, x.id = .sai 0 → x = g) ∧ s.clk.tally % 8192 = 0 ∧ g.filter.len ≠ 0
      ∧ g.filter.len ≤ g.filter.pos ∧ g.filter.pending = none)
    ∧ ∃ (s : State) (t : Nat), s.clk.tally % 8192 = 0 ∧ s.ladder.gearFaultAt = some t ∧ t + 30000 * 8192 ≤ s.clk.tally :=
  ⟨⟨geared (gear (some 8192) (Fade.const 0)), gear (some 8192) (Fade.const 0), rfl, by decide, by decide, rfl, by decide, by intro k h; cases h⟩,
    ⟨geared (gear none (Fade.const 0)), gear none (Fade.const 0), rfl, by decide, rfl⟩,
    ⟨geared (gear none { Fade.const 0 with new := 1, len := 160, pos := 160 }), gear none { Fade.const 0 with new := 1, len := 160, pos := 160 }, rfl, by decide⟩,
    ⟨{ at_ 245760000 with ladder := { LadderSt.reset with gearFaultAt := some 0 } }, 0, by decide⟩⟩

/-- Pilot channel 3 stands so at tally 5120. -/
def piloted (p : Pilot) : State := { at_ 5120 with pilots := base.pilots.set 3 p }

theorem witness_PilotRules :
    (∃ (s : State) (p : Pilot), s.pilots[3]? = some p ∧ p.due = [(5121, 0x104, 9)] ∧ s.clk.tally < 5121)
    ∧ (∃ (s : State) (p : Pilot), s.pilots[3]? = some p ∧ p.due = [(5120, 0x104, 65535)] ∧ 5120 ≤ s.clk.tally)
    ∧ (∃ (s : State) (p : Pilot), s.pilots[3]? = some p ∧ p.due = [(5120, 0x102, 1)] ∧ 5120 ≤ s.clk.tally ∧ p.state = 0 ∧ 1 ≠ p.stored.getD p.range)
    ∧ (∃ (s : State) (p : Pilot), s.pilots[3]? = some p ∧ p.due = [(5120, 0x101, 1)] ∧ 5120 ≤ s.clk.tally ∧ p.state = 0 ∧ p.stored = none ∧ p.on = false)
    ∧ (∃ (s : State) (p : Pilot), s.pilots[3]? = some p ∧ p.state = 3 ∧ p.since + 5120 ≤ s.clk.tally ∧ p.stopping = false)
    ∧ ∃ (s : State) (p : Pilot), s.pilots[3]? = some p ∧ p.state = 3 ∧ p.since + 5120 ≤ s.clk.tally ∧ p.stopping = true :=
  ⟨⟨piloted { Pilot.reset 3 with due := [(5121, 0x104, 9)] }, _, rfl, rfl, by decide⟩, ⟨piloted { Pilot.reset 3 with due := [(5120, 0x104, 65535)] }, _, rfl, rfl, by decide⟩,
    ⟨piloted { Pilot.reset 3 with due := [(5120, 0x102, 1)] }, _, rfl, rfl, by decide⟩, ⟨piloted { Pilot.reset 3 with due := [(5120, 0x101, 1)] }, _, rfl, rfl, by decide⟩,
    ⟨piloted { Pilot.reset 3 with state := 3 }, _, rfl, rfl, by decide⟩, ⟨piloted { Pilot.reset 3 with state := 3, stopping := true }, _, rfl, rfl, by decide⟩⟩

/-- MAC 0 is admitted with its members, stands so, and carries transmit stream 0 and receive stream 0. -/
def netting (t : Nat) (m : Mac) (tx : List TxStream) (rx : List RxStream) (vals : List Write) : State :=
  { at_ t with
    net := { Net.reset with macs := m :: List.replicate 3 Mac.reset, txs := tx, rxs := rx }, vals := vals,
    nmbs := [{ Nmb.reset with macs := 1, port := 5000 }, Nmb.reset],
    adm := { Adm.reset with cfg := { Cfg.empty with nodes := [⟨.net 0, 1⟩, ⟨.ptp 0, 1⟩, ⟨.tx 0 0, 0⟩, ⟨.rx 0 0, 1⟩] } } }

def up : Mac := { Mac.reset with link := 1 }
def eth (len : Nat) (b : FrameBody) : EthFrame := { length := len, fcsOk := true, codeErr := false, vid := none, body := b }
def dg0 : Datagram := { mac := 3, srcAddr := 9, srcPort := 77, dstPort := 5000, fragmented := false, length := 16, words := [0x00400001, 3, 0, 0] }

theorem witness_NetReceive :
    (∃ s : State, s.net.macs[0]? = some up ∧ macUp s 0 = true ∧ up.link = 1 ∧ 64 ≤ macMax s 0 ∧ macMax s 0 < 9999 ∧ macVlan s 0 ≠ 4095)
    ∧ (∃ s : State, macUp s 0 = true ∧ macPauseRx s 0 = false)
    ∧ (∃ s : State, nmbFor (macCount 0 1 64 (macCount 0 0 1 s)) { dg0 with mac := 0 } = some 0)
    ∧ (∃ m : Mac, m.pause = none ∧ m.sending = none) ∧ (∃ m : Mac, m.pause = none ∧ m.sending ≠ none)
    ∧ (∃ (m : Mac) (p : Pause), m.pause = some p ∧ m.sending ≠ none)
    ∧ (∃ (s : State) (m : Mac), s.net.macs[0]? = some m ∧ macUp s 0 = true ∧ m.link ≠ 0)
    ∧ (∃ (s : State) (m : Mac), s.net.macs[0]? = some m ∧ macUp s 0 = true ∧ m.link ≠ 1 ∧ 0 = macSpeed s 0)
    ∧ (∃ (m : Mac) (old : Word), m.cnt[31]? = some old ∧ old.getLsbD 31 = (BitVec.ofNat 32 (old.toNat + 1)).getLsbD 31)
    ∧ ∃ (m : Mac) (old : Word), m.cnt[31]? = some old ∧ old.getLsbD 31 ≠ (BitVec.ofNat 32 (old.toNat + 1)).getLsbD 31 :=
  ⟨⟨netting 0 up [] [] [], by decide +kernel⟩, ⟨netting 0 up [] [] [⟨.net 0, 0x109, [0]⟩], by decide +kernel⟩, ⟨netting 0 up [] [] [], by decide +kernel⟩,
    ⟨up, by decide⟩, ⟨{ up with sending := some (⟨none, 64, none, 0, 0, [], false⟩, 0) }, by decide⟩,
    ⟨{ up with pause := some ⟨5, none, false⟩, sending := some (⟨none, 64, none, 0, 0, [], false⟩, 0) }, _, rfl, by decide⟩,
    ⟨netting 0 up [] [] [], _, rfl, by decide +kernel⟩, ⟨netting 0 Mac.reset [] [] [⟨.net 0, 0x102, [0]⟩], _, rfl, by decide +kernel⟩,
    ⟨up, 0, by decide +kernel⟩, ⟨{ up with cnt := List.replicate 32 0x7FFFFFFF#32 }, 0x7FFFFFFF#32, by decide +kernel⟩⟩

def frame : TxFrame := { stream := none, bytes := 64, rtag := none, seq := 0, stamp := 0, payload := [], waited := false }
def tx0 : TxStream := { mac := 0, s := 0, on := true, stopAt := none, seq := 65535, rseq := 1, q0 := 0, fill := [], ready := some (0, []), packets := 0 }

theorem witness_NetTransmit :
    (∃ m : Mac, m.link = 1 ∧ m.sending = none ∧ m.pause = none ∧ m.gate = none ∧ m.queues.length = 8 ∧ m.cnt[14]? = some 0 ∧ m.queues[6]? = some [frame, frame]
      ∧ m.queues[7]? = some [] ∧ frame.waited = false)
    ∧ (∃ m : Mac, selectTx 0 1000000000 m = some (6, frame))
    ∧ (∃ (m : Mac) (l : List (Nat × Nat)) (t0 : Nat), m.gate = some (l, t0) ∧ selectTx 1000000000 512 m = some (0, frame))
    ∧ (∃ m : Mac, m.sending = some (frame, 3))
    ∧ (∃ (s : State) (m : Mac) (l : List (Nat × Nat)), s.net.macs[0]? = some m ∧ m.gateNext = some (some l, 8192) ∧ 8192 ≤ s.clk.tally)
    ∧ (∃ (s : State) (m : Mac) (l : List (Nat × Nat)), s.net.macs[0]? = some m ∧ m.gateNext = some (some l, 8193) ∧ s.clk.tally < 8193)
    ∧ (∃ (s : State) (m : Mac) (p : Pause), s.net.macs[0]? = some m ∧ m.pause = some p ∧ p.start = some 0 ∧ p.quanta * 512 * 24576000 ≤ (s.clk.tally - 0) * rateBits m.rate)
    ∧ ∃ (s : State) (m : Mac), s.net.macs[0]? = some m ∧ m.pause = some ⟨65535, some 0, false⟩ ∧ 0 + 8192 < s.clk.tally ∧ carriesAlarm s 0 = true :=
  ⟨⟨{ up with queues := List.replicate 6 [] ++ [[frame, frame], []] }, by decide +kernel⟩,
    ⟨{ up with queues := List.replicate 6 [] ++ [[frame, frame], []] }, by decide +kernel⟩,
    ⟨{ up with queues := [frame] :: List.replicate 7 [frame], gate := some ([(1, 1024)], 0) }, _, 0, rfl, by decide +kernel⟩,
    ⟨{ up with sending := some (frame, 3) }, rfl⟩,
    ⟨netting 8192 { up with gateNext := some (some [(1, 1024)], 8192) } [] [] [], _, [(1, 1024)], rfl, rfl, by decide⟩,
    ⟨netting 8192 { up with gateNext := some (some [(1, 1024)], 8193) } [] [] [], _, [(1, 1024)], rfl, rfl, by decide⟩,
    ⟨netting 13 { up with pause := some ⟨1, some 0, false⟩ } [] [] [], _, _, rfl, rfl, rfl, by decide⟩,
    ⟨netting 8193 { up with pause := some ⟨65535, some 0, false⟩ } [tx0] [] [], _, rfl, rfl, by decide +kernel⟩⟩

def rx0 (h : List (Nat × Nat)) : RxStream :=
  { mac := 0, s := 0, on := true, run := true, placed := [], fade := none, ramp := 0, flush := false, quietTo := none, offAt := none, adjust := 0, late := 0, excess := 0,
    bad := 0, packets := 0, cb := { CbState.new with heard := h } }

theorem witness_NetStreams :
    (∃ (s : State) (x : TxStream), (s.net.txs.find? fun x => x.mac == 0 && x.s == 0) = some x ∧ x.ready = some (0, []) ∧ pN s (.tx 0 0) 0x10B ≠ 1)
    ∧ (∃ (s : State) (x : TxStream), (s.net.txs.find? fun x => x.mac == 0 && x.s == 0) = some x ∧ x.ready = some (0, []) ∧ pN s (.tx 0 0) 0x10B = 1
      ∧ cbPartner s 0 = some 1)
    ∧ (∃ (s : State) (x : RxStream), s.rxAt 0 = some x ∧ pN s (.rx x.mac 0) 0x112 = 1 ∧ 0 ∈ streamMacs s x.mac true ∧ findKey 0 x.cb.heard = some 0
      ∧ 0 + 300 * 8192 ≤ s.clk.tally ∧ (∃ h ∈ x.cb.heard, h.1 ≠ 0 ∧ s.clk.tally < h.2 + 300 * 8192) ∧ x.cb.lost = none)
    ∧ (∃ s : State, s.clk.tally % 8192 = 0 ∧ servoPort s = some 0 ∧ s.net.macs[0]? = some up ∧ up.ptp ≠ 3 ∧ s.net.offset = none ∧ pN s (.ptp 0) 0x110 = 0)
    ∧ ∃ s : State, s.clk.tally % 8192 = 0 ∧ s.net.offset = some 5 ∧ pN s (.ptp 0) 0x110 = 0 :=
  ⟨⟨netting 0 up [tx0] [] [], tx0, by decide +kernel⟩, ⟨netting 0 up [tx0] [] [⟨.tx 0 0, 0x10B, [1]⟩, ⟨.net 0, 0x10A, [1]⟩], tx0, by decide +kernel⟩,
    ⟨netting 2457600 up [] [rx0 [(0, 0), (1, 5)]] [⟨.rx 0 0, 0x112, [1]⟩], rx0 [(0, 0), (1, 5)], by decide +kernel⟩,
    ⟨netting 8192 up [] [] [⟨.ptp 0, 0x101, [1]⟩], by decide +kernel⟩,
    ⟨{ netting 8192 up [] [] [] with net := { Net.reset with offset := some 5 } }, by decide +kernel⟩⟩

end Sys2Proof.Tests
end

