-- ==== Sys2Proof/Tests/WitnessTeller.lean ====
section
/-! SUPPORT. Concrete states and operands that meet the hypotheses of the statements about tellers, the fault outputs, authorisation,
boundaries and clocks. -/

namespace Sys2Proof.Tests

open Sys2Proof Sys2Proof.Machine

set_option Elab.async false

/-- Pair A has been found to have failed before tally `t`; its `k` failures lie in the last day. -/
def failed (t k : Nat) : State :=
  { at_ t with fault := { base.fault with
      detected := some 5, pairs := [{ TellerPair.reset with state := 1, fails := List.replicate k 0 }, { TellerPair.reset with state := 2 }] } }

/-- STATE is FAILOVER; mailbox 0 had a READ under way. -/
def failover : State :=
  { failed 8192 0 with
    svc := { base.svc with
      state := 2, journal := some (0, Fw.reset, Fw.reset),
      out := [(0, { opcode := 0x0010, quiet := false, seq := 1, handle := 0, detail := 0, status := 0, items := [], after := .none })] } }

theorem witness_TellerFailover :
    (base.serving = true ∧ (pairAt base base.fault.active).state = 1 ∧ base.fault.detected = none)
    ∧ (∃ (d k : Nat) (p : TellerPair), (failed 8192 2).clk.tally % 8192 = 0 ∧ (failed 8192 2).fault.detected = some d ∧ d < (failed 8192 2).clk.tally
      ∧ k = (failed 8192 2).fault.active ∧ (failed 8192 2).fault.pairs[k]? = some p ∧ k < 2 ∧ (failed 8192 2).fault.pairs.length = 2
      ∧ 3 ≤ (((failed 8192 2).ledg.opSec :: p.fails).filter (fun t => decide ((failed 8192 2).ledg.opSec < t + 86400))).length)
    ∧ (failover.svc.state = 2 ∧ failover.fault.pairs.length = 2 ∧ (pairAt failover 1).state = 2 ∧ (∀ j < 1, (pairAt failover j).state ≠ 2)
      ∧ failover.svc.journal = some (0, failover.fw, failover.fw) ∧ ∃ p, failover.svc.out = [(0, p)] ∧ p.status = 0 ∧ p.opcode = 0x0010)
    ∧ ∃ (s : State) (p : TellerPair), s.fault.pairs[1]? = some p ∧ p.testing = true ∧ p.state ≠ 2 ∧ p.state ≠ 3 ∧ p.marked = false :=
  ⟨by decide, ⟨5, 0, _, by decide, by decide, by decide, by decide, rfl, by decide +kernel⟩, ⟨by decide, by decide, by decide, by decide, rfl, _, rfl, by decide⟩,
    ⟨{ base with fault := { base.fault with pairs := [TellerPair.reset, { TellerPair.reset with testing := true }] } }, _, rfl, by decide⟩⟩

/-- No condition holds and every release word is new. -/
def quiet : State :=
  { at_ 24576000 with
    fault := { base.fault with relA := 24576000, relB := 24576000, code4At := none }, bell := { Bell.reset with imageOk := true } }

theorem witness_FaultOutputs :
    (∃ s : State, lowestCondition s ≠ none)
    ∧ (∃ s : State, s.fault.test.getLsbD 0 = true) ∧ (∃ s : State, s.fault.stopA = true) ∧ (at_ 491520).fault.relA + 60 * 8192 ≤ (at_ 491520).clk.tally
    ∧ (∃ s : State, s.fault.test.getLsbD 1 = true) ∧ (∃ s : State, s.fault.stopB = true) ∧ (at_ 491520).fault.relB + 60 * 8192 ≤ (at_ 491520).clk.tally
    ∧ ((at_ 24575999).clk.tally < (at_ 24575999).fault.lastBad + 3000 * 8192 ∧ (at_ 24575999).fault.outA = true ∧ (at_ 24575999).fault.outB = true)
    ∧ (lowestCondition quiet = none ∧ quiet.fault.lastBad + 3000 * 8192 ≤ quiet.clk.tally ∧ ownCause quiet 0 = false ∧ ownCause quiet 1 = false) :=
  ⟨⟨State.reset, by decide +kernel⟩, ⟨{ base with fault := { base.fault with test := 1 } }, by decide⟩, ⟨{ base with fault := { base.fault with stopA := true } }, rfl⟩,
    by decide, ⟨{ base with fault := { base.fault with test := 2 } }, by decide⟩, ⟨{ base with fault := { base.fault with stopB := true } }, rfl⟩,
    by decide, by decide, by decide +kernel⟩

/-- A seal loop that has matched `n` bits. -/
def sealed (n : Nat) (whole : Bool) : State := { base with maint := { Maint.reset with matched := n, loop := whole } }

theorem witness_Authorisation :
    (base.maint.key = false) ∧ ((keyed base).maint.key = true)
    ∧ (base.boot.porst = false ∧ base.boot.sealDriven = true)
    ∧ (∃ (s : State) (sns : Bool), (decide (sns = s.maint.lfsr.getLsbD 14) && (s.maint.loop || decide (min (s.maint.matched + 1) 256 = 256))) = s.maint.loop
      ∧ s.boot.porst = false ∧ s.boot.sealDriven = true)
    ∧ (∃ (s : State) (sns : Bool), sns = s.maint.lfsr.getLsbD 14 ∧ min (s.maint.matched + 1) 256 = 256 ∧ s.maint.loop = false ∧ s.boot.porst = false
      ∧ s.boot.sealDriven = true)
    ∧ (∃ (s : State) (sns : Bool), sns ≠ s.maint.lfsr.getLsbD 14 ∧ s.maint.loop = true ∧ s.boot.porst = false ∧ s.boot.sealDriven = true)
    ∧ ∃ (s : State) (u : Update), s.flash.update = some u ∧ u.last + 30000 * 8192 ≤ s.clk.tally :=
  ⟨by decide, by decide, by decide, ⟨sealed 3 false, false, by decide⟩, ⟨sealed 255 false, false, by decide⟩, ⟨sealed 256 true, true, by decide⟩,
    ⟨{ at_ 245760000 with flash := { Flash.reset with
        update := some { mb := 0, target := 2, length := 4, crc := 0, words := [], last := 0 } } }, _, rfl, by decide⟩⟩

theorem witness_BoundariesRun :
    (∃ s : State, s.clk.nextSample % 512 = 0 ∧ s.clk.nextFrame % 8192 = 0 ∧ s.clk.tally ≤ s.clk.nextSample ∧ s.clk.tally ≤ s.clk.nextFrame
      ∧ s.clk.nextSample < s.clk.nextFrame ∧ s.clk.mclkPresent = true ∧ s.clk.onHoldover = false ∧ s.clk.nextSample ≤ s.clk.tally + min 9 8)
    ∧ ∃ s : State, s.clk.nextSample % 512 = 0 ∧ s.clk.nextFrame % 8192 = 0 ∧ s.clk.tally ≤ s.clk.nextSample ∧ s.clk.tally ≤ s.clk.nextFrame
      ∧ s.clk.nextFrame ≤ s.clk.nextSample :=
  ⟨⟨at_ 8700, by decide⟩, ⟨State.reset, by decide⟩⟩

/-- The clock at boundary `t`. -/
def clocked (t : Nat) (f : Clk → Clk) : State := { at_ t with clk := f (at_ t).clk }

theorem witness_ClockRules :
    (∃ s : State, s.clk.mclkPresent = false) ∧ (base.clk.mclkPresent = true)
    ∧ (∃ s : State, s.clk.mclkPresent = true ∧ s.clk.ratioSince + 3000 * 8192 ≤ s.clk.tally ∧ s.clk.mclkSince + 3000 * 8192 ≤ s.clk.tally)
    ∧ (∃ s : State, s.clk.tally % 8192 = 0 ∧ (closeFrame s).clk = s.clk ∧ s.clk.onHoldover = true ∧ s.clk.holdover = false ∧ s.clk.lostAt ≤ s.clk.tally)
    ∧ (∃ s : State, s.clk.tally % 8192 = 0 ∧ (closeFrame s).clk = s.clk ∧ s.serving = true ∧ s.clk.onHoldover = true
      ∧ s.clk.mclkPresent = true ∧ s.clk.mclkSince + 3000 * 8192 ≤ s.clk.tally ∧ s.clk.ratio = 1000000000 - 200000)
    ∧ (∃ s : State, s.clk.tally % 8192 = 0 ∧ (closeFrame s).clk = s.clk ∧ s.clk.onHoldover = true ∧ s.clk.ratio = 1000000000 + 200000)
    ∧ (∃ s : State, s.clk.tally % 8192 = 0 ∧ (closeFrame s).clk = s.clk ∧ s.clk.mhz ≠ s.clk.mhzTarget ∧ s.clk.mhzAt ≠ some s.clk.tally ∧ s.clk.mhzTarget = 725)
    ∧ ∃ s : State, s.clk.tally % 8192 = 0 ∧ (closeFrame s).clk = s.clk ∧ s.clk.mhz ≠ s.clk.mhzTarget ∧ s.clk.mhzAt ≠ some s.clk.tally ∧ s.clk.mhz < s.clk.mhzTarget :=
  ⟨⟨clocked 0 fun c => { c with mclkPresent := false }, rfl⟩, by decide, ⟨clocked 24576000 id, by decide⟩,
    ⟨clocked 8192 fun c => { c with onHoldover := true, lostAt := 8000 }, by decide +kernel⟩,
    ⟨clocked 24576000 fun c => { c with onHoldover := true, holdover := true, ratio := 999800000 }, by decide +kernel⟩,
    ⟨clocked 24576000 fun c => { c with onHoldover := true, holdover := true, ratio := 1000200000 }, by decide +kernel⟩,
    ⟨clocked 8192 fun c => { c with mhzTarget := 725 }, by decide +kernel⟩, ⟨clocked 8192 fun c => { c with mhz := 725 }, by decide +kernel⟩⟩

/-- Frame 0 runs on spoke 9, the AUDIT spoke, and on the others, at tally `t`. -/
def running (t : Nat) : State := { at_ t with snd := { Sound.reset with running := some 0 } }

theorem witness_SpokeFrames :
    (∃ x : SpokeSt, (running 100).snd.running = some 0 ∧ (running 100).spokes[39]? = some x ∧ (running 100).snd.complete.contains 39 = false
      ∧ (running 100).snd.aborted.contains 39 = false)
    ∧ (∃ x : SpokeSt, (running 100).spokes[38]? = some x ∧ x.role = 0 ∧ x.core.dmaq = [] ∧ x.core.inst = none)
    ∧ (∃ x : SpokeSt, (running 8192).spokes[0]? = some x ∧ (running 8192).clk.tally = 0 + 8192 ∧ x.role = 0)
    ∧ ∃ x : SpokeSt, (running 8192).spokes[9]? = some x ∧ (running 8192).clk.tally = 0 + 8192 ∧ x.role = 2 :=
  ⟨⟨_, by decide, rfl, by decide⟩, ⟨_, rfl, by decide⟩, ⟨_, rfl, by decide⟩, ⟨_, rfl, by decide⟩⟩

end Sys2Proof.Tests
end

