-- ==== Sys2Proof/Tests/WitnessSound.lean ====
section
/-! SUPPORT. Concrete states and operands that meet the hypotheses of the statements about fades, filter banks, ALARM copies and the Bell
path. -/

namespace Sys2Proof.Tests

open Sys2Proof Sys2Proof.Machine

set_option Elab.async false

def send0 : SendSt := { route := Fade.const 0, level := Ramp.const 0 }

/-- Channel 0 with this delay. -/
def chan (f : Fade Nat) : Channel :=
  { n := 0, trim := Ramp.const 0, makeup := Ramp.const 0, mute := Ramp.const 0, fader := Ramp.const 0, shed := Ramp.const 0, byp := Fade.const 0,
    src := Fade.const 0, sec := Fade.const [], secOld := [], secNew := [], dyn := 0, delay := f, sends := [], direct := send0, clips := 0, replaced := 0,
    line := [], raw := [] }

/-- A fade over 16 samples that is done, to form 3, with `p` pending. -/
def done (p : Option Nat) : Fade Nat := { old := 1, new := 3, len := 16, pos := 16, pending := p, replaced := 0 }

def withChan (p : Option Nat) : State := { at_ 8192 with chans := [chan (done p)] }

def zone0 : Zone := { n := 0, e := 0, a := 0, g0 := 0, g1 := 0, held := 1, holdTo := some 8192, hp := [], lp := [] }

def asked0 : SceneReq := { scene := .sceneChip 0, mb := 1, seq := 1, at_ := 0, frames := 3, writes := [] }

theorem witness_BoundaryOrder :
    ((at_ 8192).clk.tally % 8192 = 0)
    ∧ (∃ s : State, s.clk.tally % 8192 = 0 ∧ ∀ y ∈ (closeFrame s).chans, y.n = 0 → y.delay = done none)
    ∧ (∃ s : State, s.clk.tally % 8192 = 0 ∧ ∀ y ∈ (closeFrame s).chans, y.n = 0 → y.delay = done (some 3))
    ∧ (∃ s : State, s.clk.tally % 8192 = 0 ∧ 3 * pN (closeFrame s) (.channel 0) 0x142 ≠ 0 ∧ ∀ y ∈ (closeFrame s).chans, y.n = 0 → y.delay = done (some 7))
    ∧ (done none).len ≠ 0 ∧ (done none).len ≤ (done none).pos
    ∧ (∃ (s : State) (q : SceneReq) (e : Nat), s.clk.tally % 8192 = 0 ∧ (closeFrame s).sceneRun.running = some (q, e) ∧ e ≤ (closeFrame s).clk.tally
      ∧ (closeFrame s).sceneRun.pending = none ∧ (closeFrame s).clk = s.clk)
    ∧ ∃ (s : State) (q : Zone) (t : Nat), s.clk.tally % 8192 = 0 ∧ s.zoneAt 0 = some q ∧ q.holdTo = some t ∧ t ≤ s.clk.tally :=
  ⟨by decide, ⟨withChan none, by decide +kernel⟩, ⟨withChan (some 3), by decide +kernel⟩, ⟨withChan (some 7), by decide +kernel⟩, by decide, by decide,
    ⟨{ at_ 8192 with sceneRun := { running := some (asked0, 8192), pending := none, replaced := 0 } }, asked0, 8192, by decide +kernel⟩,
    ⟨{ at_ 8192 with zones := [zone0] }, zone0, 8192, by decide, rfl, by decide⟩⟩

def bank (st : Nat) : Bank := { feed := 0, bank := 1, state := st, total := 1, shift := 0, taps := [5], crc := 0, readyAt := 0, mb := 1, lastAt := 0 }

/-- Feed 0, with this lane. -/
def feed (l : Option Lane) : Feed :=
  { n := 0, clips := 0, trim := Ramp.const 0, byp := Fade.const 0, corrByp := Fade.const 0, eqByp := Fade.const 0, limByp := Fade.const 0, align := Fade.const 0,
    corr := Fade.const 0, asked := 0, waits := 0, lane := l, tail := { shed := false, out := 0, restore := none, in_ := 64, have_ := 16384 }, eq := Fade.const [],
    eqOld := [], eqNew := [], lim := 0, limMin := 0, raw := [], line := [], xs := [] }

/-- Feed 0 has a swap to bank 1 armed for boundary 16 384, and `n` other feeds hold lanes. -/
def swapping (l : Option Lane) (n : Nat) : State :=
  let s := declared [.feed 0] base
  { s with
    feeds := feed l :: (List.range n).map fun i => { feed (some ⟨0, 0, true⟩) with n := i + 1 },
    fw := { s.fw with banks := [bank 3] },
    armed := [{ mb := 1, at_ := 16384, seq := 0, kind := .commit, writes := [{ node := .corr 0, tag := 0x101, vals := [1] }] }] }

theorem witness_FilterBanks :
    (∃ (s : State) (k : Bank), s.bankAt 0 1 = some k ∧ k.state = 2 ∧ s.serving = true)
    ∧ (∃ (s : State) (k : Bank), s.bankAt 0 1 = some k ∧ k.state = 1 ∧ s.clk.tally % 8192 = 0 ∧ k.lastAt + 30000 * 8192 ≤ s.clk.tally)
    ∧ (∀ l n, (swapping l n).armed.length = 1 ∧ (∀ a ∈ (swapping l n).armed, a.at_ ≤ (swapping l n).clk.tally + 16384
      ∧ findVal a.writes (.corr 0) 0x101 = some [1]) ∧ (swapping l n).feedAt 0 = some (feed l))
    ∧ (feed (some ⟨1, 0, false⟩)).lane.isSome = true
    ∧ (laneFree (swapping none 0) 0 = true)
    ∧ (∃ n, laneFree (swapping none n) 0 = false ∧ (swapping none n).till.waiting.contains (16384, 0) = false)
    ∧ ∃ (s : State) (fd : Feed) (l : Lane) (k : Bank), s.feedAt 0 = some fd ∧ fd.lane = some l ∧ l.filled = false ∧ s.bankAt 0 l.bank = some k ∧ k.state = 3 :=
  ⟨⟨{ base with fw := { Fw.reset with banks := [bank 2] } }, bank 2, by decide⟩,
    ⟨{ at_ 245760000 with fw := { Fw.reset with banks := [bank 1] } }, bank 1, by decide⟩,
    fun l n => ⟨rfl, by intro a ha; simp only [swapping, List.mem_singleton] at ha; subst ha; exact ⟨Nat.le_add_left _ _, rfl⟩, rfl⟩,
    by decide, by decide +kernel, ⟨64, by decide +kernel⟩, ⟨swapping (some ⟨1, 0, false⟩) 0, feed (some ⟨1, 0, false⟩), ⟨1, 0, false⟩, bank 3, rfl, rfl, rfl, by decide +kernel, rfl⟩⟩

/-- ALARM channel 0 has its copies on spokes 0 and 10 and its auditor on spoke 29; frame 0 runs. -/
def voted (t : Nat) (o : List CopyObs) : State :=
  { running t with
    adm := { Adm.reset with cfg := { Cfg.empty with nodes := [⟨.channel 0, 0⟩] }, place := [(.channel 0, 0, some 10)], auditors := [(.channel 0, 29)] },
    alarm := { Alarm.reset with open_ := o } }

def two : CopyObs := { node := .channel 0, primary := .present [1] 5, secondary := .present [2] 6 }

theorem witness_AlarmVote_agree :
    ∃ (s : State) (obs : List CopyObs), s.snd.running = some 0 ∧ s.alarm.marked = false ∧ 0 + 5120 ≤ s.clk.tally ∧ s.clk.tally < 0 + 8192 ∧ s.adm.place ≠ []
      ∧ (∀ o ∈ obs, ∃ x y g k, o.primary = .present x g ∧ o.secondary = .present y k)
      ∧ ∀ e ∈ s.adm.place, ∀ a b, copySpokes s e.1 = some (a, b) → ∃ p, copyPresent p = true ∧ copyState s e.1 0 a p = p ∧ copyState s e.1 1 b p = p
        ∧ (∀ o, obs.find? (fun o => o.node == e.1) = some o → o.primary = p ∧ o.secondary = p)
        ∧ (obs.find? (fun o => o.node == e.1) = none → p = .present [] 0) := by
  refine ⟨voted 5120 [], [], rfl, rfl, by decide, by decide, (by decide : (voted 5120 []).adm.place ≠ []), (by intro o h; cases h), ?_⟩
  intro e he a b h
  have e1 : e = (Node.channel 0, 0, some 10) := by simpa [voted] using he
  subst e1
  have h2 : copySpokes (voted 5120 []) (.channel 0) = some (0, 10) := by decide +kernel
  rw [h2] at h
  cases h
  exact ⟨.present [] 0, rfl, by decide +kernel, by decide +kernel, by simp, fun _ => rfl⟩

theorem witness_AlarmVote_differ :
    ∃ (s : State) (c e : CopyOut) (x y : List Sample) (g k : Nat), s.snd.running = some 0 ∧ s.adm.place = [(.channel 0, 0, some 10)] ∧ s.alarm.marked = false
      ∧ 0 + 5120 ≤ s.clk.tally ∧ s.clk.tally < 0 + 8192 ∧ c = .present x g ∧ e = .present y k ∧ c ≠ e ∧ vaultLost s (.channel 0) 0 = false
      ∧ vaultLost s (.channel 0) 1 = false ∧ isRetired s 0 = false ∧ isRetired s 10 = false ∧ (auditorOf s (.channel 0)).isSome = true :=
  ⟨voted 8191 [], _, _, [1], [2], 5, 6, rfl, rfl, rfl, by decide, by decide, rfl, rfl, by decide, by decide +kernel⟩

theorem witness_AlarmVote_resolve :
    ∃ s : State, s.snd.running = some 0 ∧ copySpokes s (.channel 0) = some (0, 10) ∧ s.clk.tally ≤ 0 + 8064
      ∧ s.alarm.open_.find? (fun o => o.node == .channel 0) = some two ∧ vaultLost s (.channel 0) 0 = false ∧ vaultLost s (.channel 0) 1 = false
      ∧ ∃ (z z' z'' : List Sample) (h h' h'' : Nat), (z = [1] ∧ h = 5) ∧ (¬(z' = [1] ∧ h' = 5) ∧ z' = [2] ∧ h' = 6)
        ∧ ¬(z'' = [1] ∧ h'' = 5) ∧ ¬(z'' = [2] ∧ h'' = 6) :=
  ⟨voted 8064 [two], rfl, by decide +kernel, by decide, by decide +kernel, by decide +kernel, by decide +kernel, [1], [2], [1], 5, 6, 6, by decide⟩

/-- Trigger 0 stands so, with MODE, GAP and REPEATS; the bell image is good unless `ok` is false, and message 0 has one sample. -/
def rung (x : BellTrig) (mode gap : Word) (ok : Bool) : State :=
  { base with
    bell := { Bell.reset with trigs := Bell.reset.trigs.set 0 x, imageOk := ok, store := Mem.putWord [] 0x44 1#32,
                              routes := Bell.reset.routes.set 5 { voices := [⟨0, 0, 0, 0#32, none⟩], down := 0 } },
    vals := [⟨.bellTrig 0, 0x102, [mode]⟩, ⟨.bellTrig 0, 0x104, [gap]⟩] }

def idle : BellTrig := BellTrig.reset
def playing (on : Bool) (again : Bool) (left : Nat) : BellTrig :=
  { idle with on := on, play := { idle.play with pos := some 3, left := left, again := again } }

theorem witness_BellTriggers_recognise :
    (∃ s : State, s.bell.trigs[0]? = some idle ∧ (false || s.bell.sw.getLsbD 0 || trigSw s 0) = idle.on)
    ∧ (∃ s : State, s.bell.trigs[0]? = some idle ∧ (true || s.bell.sw.getLsbD 0 || trigSw s 0) = true ∧ idle.on = false ∧ s.bell.imageOk = false ∧ trigActive s 0 = false)
    ∧ (∃ s : State, s.bell.trigs[0]? = some (playing false false 0) ∧ s.bell.imageOk = false ∧ trigActive s 0 = true)
    ∧ (∃ s : State, s.bell.trigs[0]? = some idle ∧ s.bell.imageOk = true ∧ idle.play.pos = none ∧ idle.play.gapEnd = none ∧ bellLength s.bell.store (trigMsg s 0) ≠ 0)
    ∧ (∃ s : State, s.bell.trigs[0]? = some (playing true false 0) ∧ (false || s.bell.sw.getLsbD 0 || trigSw s 0) = false ∧ s.bell.imageOk = true ∧ trigMode s 0 ≠ 0)
    ∧ ∃ s : State, s.bell.trigs[0]? = some (playing true false 0) ∧ (false || s.bell.sw.getLsbD 0 || trigSw s 0) = false ∧ s.bell.imageOk = true ∧ trigMode s 0 = 0
      ∧ (playing true false 0).play.pos ≠ none ∧ ∃ r ∈ s.bell.routes, ∃ v ∈ r.voices, v.trig = 0 ∧ v.fade = none :=
  ⟨⟨rung idle 0 0 true, by decide +kernel⟩, ⟨rung idle 0 0 false, by decide +kernel⟩, ⟨rung (playing false false 0) 0 0 false, by decide +kernel⟩,
    ⟨rung idle 0 0 true, by decide +kernel⟩, ⟨rung (playing true false 0) 1 0 true, by decide +kernel⟩, ⟨rung (playing true false 0) 0 0 true, by decide +kernel⟩⟩

theorem witness_BellTriggers_end :
    (∃ s : State, s.bell.trigs[0]? = some (playing true false 0) ∧ 3 * bellLength s.bell.store (playing true false 0).play.msg ≤ 3 ∧ trigMode s 0 = 0 ∧ trigGap s 0 ≠ 0)
    ∧ (∃ s : State, s.bell.trigs[0]? = some (playing false false 0) ∧ 3 * bellLength s.bell.store (playing false false 0).play.msg ≤ 3 ∧ trigMode s 0 = 1)
    ∧ (∃ s : State, s.bell.trigs[0]? = some (playing true false 2) ∧ 3 * bellLength s.bell.store (playing true false 2).play.msg ≤ 3 ∧ trigMode s 0 = 2
      ∧ (playing true false 2).play.again = false ∧ (playing true false 2).play.left ≠ 0 ∧ trigGap s 0 = 0)
    ∧ ∃ (s : State) (x : BellTrig) (e : Nat), s.bell.trigs[0]? = some x ∧ x.play.gapEnd = some e ∧ e ≤ s.clk.tally ∧ x.play.again = false :=
  ⟨⟨rung (playing true false 0) 0 500 true, by decide +kernel⟩, ⟨rung (playing false false 0) 1 0 true, by decide +kernel⟩,
    ⟨rung (playing true false 2) 2 0 true, by decide +kernel⟩,
    ⟨rung { idle with play := { idle.play with gapEnd := some 0 } } 0 0 true, { idle with play := { idle.play with gapEnd := some 0 } }, 0, by decide +kernel⟩⟩

end Sys2Proof.Tests
end

