-- ==== Sys2Proof/Tests/WitnessSpoke.lean ====
section
/-! SUPPORT. Concrete states and operands that meet the hypotheses of the statements about the spokes' bundles and stages. -/

namespace Sys2Proof.Tests

open Sys2Proof Sys2Proof.Machine

set_option Elab.async false

/-- A slot that breaks no rule of its own issues on spoke 39 after reset. -/
theorem issues0 (k : SlotSpec) (hk : k.legal = true) : Issues State.reset 39 k (openSlot k Core.reset) := by
  refine ⟨Core.reset, by decide, by decide, rfl, ?_, ?_⟩
  · unfold pastFence openSlot
    rfl
  · unfold slotIllegal openSlot
    simp [hk, Core.reset]

theorem witness_SpokeArithmetic :
    (∃ o, Issues State.reset 39 (macOf (dReads [31, 31]) [(.d 31, 1, 1)]) o) ∧ (∃ o, Issues State.reset 39 (macOf (dReads [31, 0]) [(.d 31, 2, 2)]) o)
    ∧ ∃ o, Issues State.reset 39 (macOf (dReads [31]) [(.d 31, 1, 1)]) o :=
  ⟨⟨_, issues0 _ (by decide)⟩, ⟨_, issues0 _ (by decide)⟩, ⟨_, issues0 _ (by decide)⟩⟩

theorem witness_SpokeLogic :
    (∃ o, Issues State.reset 39 (macOf (dReads [0, 31]) [(.d 31, 1, 1)]) o) ∧ ∃ o, Issues State.reset 39 (macOf (dReads [31]) [(.d 0, 1, 1)]) o :=
  ⟨⟨_, issues0 _ (by decide)⟩, ⟨_, issues0 _ (by decide)⟩⟩

theorem witness_SpokeMultiplyAccumulate :
    (∃ o, Issues State.reset 39 (macOf (dReads [31, 31] ++ accRead false 7) [(.acc 7, 1, 2)]) o)
    ∧ (∃ x y : Nat, x % 4 = 0 ∧ y % 4 = 0 ∧ x < 32 ∧ y < 32
      ∧ ∃ o, Issues State.reset 39 (macOf (dReads [x, x + 1, x + 2, x + 3, y, y + 1, y + 2, y + 3] ++ acc4Reads false 4) (acc4Writes 4)) o)
    ∧ (∃ x y : Nat, x % 4 = 0 ∧ x < 32 ∧ y < 32 ∧ ∃ o, Issues State.reset 39 (macOf (dReads [x, x + 1, x + 2, x + 3, y] ++ acc4Reads true 0) (acc4Writes 0)) o)
    ∧ ∃ x : Nat, x % 4 = 0 ∧ x < 32
      ∧ ∃ o, Issues State.reset 39 (macOf (acc4Reads false 4) (acc4Writes 4 ++ [(.d (x + 1), 1, 1), (.d (x + 2), 1, 1), (.d (x + 3), 1, 1)])) o :=
  ⟨⟨_, issues0 _ (by decide)⟩, ⟨28, 28, by decide, by decide, by decide, by decide, _, issues0 _ (by decide)⟩,
    ⟨28, 31, by decide, by decide, by decide, _, issues0 _ (by decide)⟩, ⟨28, by decide, by decide, _, issues0 _ (by decide)⟩⟩

theorem witness_SpokeComplexMultiply :
    (∃ re im : Int → Int → Int → Int → Int, (∀ p q u v, re p q u v = p * u - q * v) ∧ ∀ p q u v, im p q u v = p * v + q * u)
    ∧ (∃ a x y : Nat, a < 8 ∧ x < 32 ∧ y < 32 ∧ a % 2 = 0 ∧ x % 2 = 0 ∧ y % 2 = 0
      ∧ ∃ o, Issues State.reset 39 (macOf (dReads [x, x + 1, y, y + 1] ++ accRead false a ++ accRead false (a + 1)) [(.acc a, 1, 2), (.acc (a + 1), 1, 2)]) o)
    ∧ ∃ (a x y : Nat) (o : Core), a < 4 ∧ x < 16 ∧ y < 16 ∧ o.cmac = false
      ∧ Issues State.reset 39 (ctlOf (dReads [2 * x, 2 * x + 1, 2 * y, 2 * y + 1] ++ accRead true (2 * a) ++ accRead true (2 * a + 1))
        [(.acc (2 * a), 1, 2), (.acc (2 * a + 1), 1, 2)]) o :=
  ⟨⟨fun p q u v => p * u - q * v, fun p q u v => p * v + q * u, fun _ _ _ _ => rfl, fun _ _ _ _ => rfl⟩,
    ⟨6, 30, 30, by decide, by decide, by decide, by decide, by decide, by decide, _, issues0 _ (by decide)⟩,
    ⟨3, 15, 15, _, by decide, by decide, by decide, by decide, issues0 _ (by decide)⟩⟩

theorem witness_SpokeReduce :
    (∃ (sh : BitVec 5) (red : Int → Int), sh.toInt = -16 ∧ ∀ v : Int, red v = (v + 2 ^ (30 - sh.toInt).toNat) / 2 ^ (31 - sh.toInt).toNat)
    ∧ (∃ (sh : BitVec 5) (red : Int → Int), sh.toInt = 15 ∧ ∀ v : Int, red v = (v + 2 ^ (30 - sh.toInt).toNat) / 2 ^ (31 - sh.toInt).toNat)
    ∧ (∃ o, Issues State.reset 39 (macOf [(.acc 7, false)] [(.d 31, 2, 2)]) o)
    ∧ (∃ o, Issues State.reset 39 (macOf ((List.range 4).map fun j => (CReg.acc (4 + j), false)) ((List.range 4).map fun j => (CReg.d (28 + j), 2, 2))) o)
    ∧ (∃ o, Issues State.reset 39 (macOf [] [(.acc 7, 1, 2)]) o) ∧ ∃ o, Issues State.reset 39 (macOf [] (acc4Writes 4)) o :=
  ⟨⟨-16, _, by decide, fun _ => rfl⟩, ⟨15, _, by decide, fun _ => rfl⟩, ⟨_, issues0 _ (by decide)⟩, ⟨_, issues0 _ (by decide)⟩, ⟨_, issues0 _ (by decide)⟩,
    ⟨_, issues0 _ (by decide)⟩⟩

theorem witness_SpokeMoves :
    (∃ o, Issues State.reset 39 (lsOf [] []) o) ∧ (∃ o, Issues State.reset 39 (macOf [] []) o) ∧ (∃ o, Issues State.reset 39 (ctlOf [] []) o)
    ∧ (∀ w ∈ [CReg.d 31, .p 7, .n 7, .rb 7, .rl 7], ∃ o, Issues State.reset 39 ⟨2, true, true, [], [(w, 1, 1)]⟩ o)
    ∧ (∃ o, Issues State.reset 39 (ctlOf [(addrName 3 7, false)] [(.d 31, 1, 1)]) o) ∧ (∃ o, Issues State.reset 39 (ctlOf [(.d 31, false)] [(addrName 3 7, 1, 1)]) o)
    ∧ (∃ o, Issues State.reset 39 (ctlOf [] [(.d 31, 1, 1)]) o) ∧ ∃ o : Core, Issues State.reset 39 (ctlOf [] []) o ∧ o.setA = false ∧ o.setR = false :=
  ⟨⟨_, issues0 _ (by decide)⟩, ⟨_, issues0 _ (by decide)⟩, ⟨_, issues0 _ (by decide)⟩,
    fun w hw => ⟨_, issues0 _ (by simp only [List.mem_cons, List.not_mem_nil, or_false] at hw; rcases hw with rfl | rfl | rfl | rfl | rfl <;> decide)⟩,
    ⟨_, issues0 _ (by decide)⟩, ⟨_, issues0 _ (by decide)⟩, ⟨_, issues0 _ (by decide)⟩, ⟨_, issues0 _ (by decide), by decide, by decide⟩⟩

/-- The words of an access through p[7] may be read and written by firmware code, and the pointer is aligned. -/
def mayUse (o : Core) (p cnt : Nat) (write : Bool) : Bool :=
  ptrAligned o.snap p && (List.range cnt).all fun i => mayAccess o (wordAddr o.snap p i) 4 write

theorem witness_SpokeLoads :
    (∃ o, Issues State.reset 39 (lsOf (addrReads 7 2 7) (addrWrites 7 2 ++ [(.d 31, 3, 3)])) o ∧ mayUse o 7 1 false = true)
    ∧ (∃ o, Issues State.reset 39 (lsOf (addrReads 7 1 7) (addrWrites 7 1 ++ [(.d 30, 3, 3), (.d 31, 3, 3)])) o ∧ mayUse o 7 2 false = true)
    ∧ (∃ o, Issues State.reset 39 (lsOf (addrReads 7 0 7) (addrWrites 7 0 ++ [(.d 28, 3, 3), (.d 29, 3, 3), (.d 30, 3, 3), (.d 31, 3, 3)])) o
      ∧ mayUse o 7 4 false = true)
    ∧ (∃ o, Issues State.reset 39 (lsOf (addrReads 7 2 7) (addrWrites 7 2 ++ [(.acc 7, 3, 3)])) o ∧ mayUse o 7 3 false = true)
    ∧ ∃ o, Issues State.reset 39 (lsOf (addrReads 6 1 6 ++ addrReads 7 1 7) [(.p 6, 1, 1), (.p 7, 1, 1), (.d 30, 3, 3), (.d 31, 3, 3)]) o
      ∧ mayUse o 6 1 false = true ∧ mayUse o 7 1 false = true :=
  ⟨⟨_, issues0 _ (by decide), by decide⟩, ⟨_, issues0 _ (by decide), by decide⟩, ⟨_, issues0 _ (by decide), by decide⟩, ⟨_, issues0 _ (by decide), by decide⟩,
    ⟨_, issues0 _ (by decide), by decide⟩⟩

theorem witness_SpokeStores :
    (∃ o, Issues State.reset 39 (lsOf (addrReads 7 2 7 ++ [(.d 31, false)]) (addrWrites 7 2)) o ∧ mayUse o 7 1 true = true)
    ∧ (∃ o, Issues State.reset 39 (lsOf (addrReads 7 1 7 ++ [(.d 30, false), (.d 31, false)]) (addrWrites 7 1)) o ∧ mayUse o 7 2 true = true)
    ∧ (∃ o, Issues State.reset 39 (lsOf (addrReads 7 0 7 ++ [(.d 28, false), (.d 29, false), (.d 30, false), (.d 31, false)]) (addrWrites 7 0)) o
      ∧ mayUse o 7 4 true = true)
    ∧ ∃ o, Issues State.reset 39 (lsOf (addrReads 7 2 7 ++ [(.acc 7, false)]) (addrWrites 7 2)) o ∧ mayUse o 7 3 true = true :=
  ⟨⟨_, issues0 _ (by decide), by decide⟩, ⟨_, issues0 _ (by decide), by decide⟩, ⟨_, issues0 _ (by decide), by decide⟩, ⟨_, issues0 _ (by decide), by decide⟩⟩

/-- A rim of 16 bytes from address 64. -/
theorem witness_SpokeRims :
    ∃ (r : Regs) (p rb rl : Nat), rb = (r.addrReg 2 p).toNat / 4 * 4 ∧ rl = (r.addrReg 3 p).toNat / 4 * 4 ∧ 0 < rl ∧ rb + rl ≤ 2 ^ 32 :=
  ⟨{ Regs.zero with rb := List.replicate 8 67#32, rl := List.replicate 8 18#32 }, 7, 64, 16, by decide⟩

theorem witness_SpokeControl :
    (∃ o : Core, atLoopEnd o = false ∧ Issues State.reset 39 (ctlOf [] []) o)
    ∧ (∃ o : Core, atLoopEnd o = false ∧ Issues State.reset 39 (ctlOf (dReads [31]) []) o ∧ (o.snap.rd 31).toNat % 65536 = 0 ∧ o.snap.rd 31 = 0)
    ∧ ∃ (s : State) (o : Core), atLoopEnd o = false ∧ Issues s 0 (ctlOf (dReads [31]) []) o ∧ (o.snap.rd 31).toNat % 65536 ≠ 0 ∧ o.snap.rd 31 ≠ 0 := by
  refine ⟨⟨_, by decide, issues0 _ (by decide)⟩, ⟨_, by decide, issues0 _ (by decide), by decide, by decide⟩,
    ⟨onSpoke { Core.reset with regs := { Regs.zero with d := List.replicate 32 3#32 } } base, _, ?_, ⟨_, by rfl, by decide, rfl, by decide, by decide⟩, ?_⟩⟩
  all_goals decide

end Sys2Proof.Tests
end

