-- ==== Sys2Proof/Tests/WitnessStage.lean ====
section
/-! SUPPORT. Concrete states and operands that meet the hypotheses of the statements about DMA, stages and their faults. -/

namespace Sys2Proof.Tests

open Sys2Proof Sys2Proof.Machine

set_option Elab.async false

def path : List Name := [[65], [66]]

/-- The image of stage C: 100 cycles, 64 bytes of hub region and 128 of DRAM region. -/
def image : List Word := [0, 0, 100, 8, 0, 0, 0, 64, 128, 0, 0, 0]

def inst0 : Inst :=
  { path := path, copies := [⟨[], [], []⟩], faults := 0, code := 0, faulted := false, ovFrames := 0, peak := 0, faultFrames := [], now := [], ran := [],
    byp := Fade.const 0, past := [] }

/-- The instance A/B of stage C runs on spoke 0, whose core is `c`; frame 0 runs. -/
def staged (c : Core) : State :=
  onSpoke c { base with
    snd := { Sound.reset with running := some 0 }, insts := [inst0],
    vals := [⟨.stage [67], 0x101, [1]⟩, ⟨.stage [67], 0x1000, image⟩],
    adm := { Adm.reset with
      cfg := { Cfg.empty with tandems := [⟨[[65]], 1, 1, 1, none, [⟨[66], some [67]⟩], [], []⟩] },
      place := [(.inst path, 0, none)] } }

/-- A core in the body of the instance, with the descriptor of `dma` 28 in d[28] to d[31]: 4 bytes from `space` at offset 60 or 124. -/
def body (lo hi : Word) (q : List DmaDesc) : Core :=
  { Core.reset with
    inst := some path, mode := .body, fence := 100, areas := [⟨5, 0, 1024, true⟩], dmaq := q,
    regs := { Regs.zero with d := List.replicate 28 0#32 ++ [1020#32, lo, 4#32, hi] } }

def desc (write moved : Bool) : DmaDesc := { loc := 0, dram := false, offset := 0, len := 4, write := write, moved := moved }

theorem issues_body (lo hi : Word) (q : List DmaDesc) (k : SlotSpec) (hk : k.legal = true)
    (hf : pastFence (openSlot k (body lo hi q)) = false) : Issues (staged (body lo hi q)) 0 k (openSlot k (body lo hi q)) := by
  refine ⟨body lo hi q, rfl, rfl, rfl, hf, ?_⟩
  unfold slotIllegal openSlot
  simp [hk, body, Core.reset]

/-- What `dma` checks of its descriptor. -/
def dmaOk (s : State) (o : Core) (d : Nat) : Bool :=
  let q : DmaDesc :=
    { loc := (o.snap.rd d).toNat, dram := decide ((o.snap.rd (d + 1)).toNat / 2 ^ 28 = 1), offset := (o.snap.rd (d + 1)).toNat % 2 ^ 28,
      len := (o.snap.rd (d + 2)).toNat, write := (o.snap.rd (d + 3)).getLsbD 0, moved := false }
  decide (o.dmaq.length < 8) && decide ((o.snap.rd (d + 3)).toNat / 2 = 0) && decide ((o.snap.rd (d + 1)).toNat / 2 ^ 28 < 2) && decide (q.loc % 4 = 0)
    && decide (q.offset % 4 = 0) && decide (q.len % 4 = 0) && decide (4 ≤ q.len) && decide (q.len ≤ 65536) && decide (q.offset + q.len ≤ regionSize s o q.dram)
    && inAreas o.areas q.loc q.len (!q.write)

theorem witness_SpokeDma_issue :
    (∃ (s : State) (o : Core), 28 % 4 = 0 ∧ Issues s 0 (ctlOf (dReads [28, 29, 30, 31]) []) o ∧ dmaOk s o 28 = true ∧ o.dmaq.length = 7)
    ∧ (∃ (s : State) (o : Core), Issues s 0 (ctlOf (dReads [28, 29, 30, 31]) []) o ∧ dmaOk s o 28 = true ∧ (o.snap.rd 31).getLsbD 0 = true)
    ∧ (∃ (s : State) (o : Core), Issues s 0 (ctlOf [] []) o ∧ o.dmaq.length ≤ 7) ∧ ∃ (s : State) (o : Core), Issues s 0 (ctlOf [] []) o ∧ 0 < o.dmaq.length :=
  ⟨⟨staged (body 60#32 0#32 (List.replicate 7 (desc true false))), _, by decide, issues_body _ _ _ _ (by decide) (by decide +kernel), by decide +kernel, by decide +kernel⟩,
    ⟨staged (body 0x1000007C#32 1#32 []), _, issues_body _ _ _ _ (by decide) (by decide +kernel), by decide +kernel, by decide +kernel⟩,
    ⟨staged (body 0#32 0#32 (List.replicate 7 (desc true false))), _, issues_body _ _ _ _ (by decide) (by decide +kernel), by decide +kernel⟩,
    ⟨staged (body 0#32 0#32 [desc true false]), _, issues_body _ _ _ _ (by decide) (by decide +kernel), by decide +kernel⟩⟩

theorem witness_SpokeDma_complete :
    ∀ write : Bool, ∃ (s : State) (c : Core) (q : DmaDesc) (x : Inst) (r : InstCopy), s.coreAt 0 = some c ∧ c.dmaq[1]? = some q ∧ c.inst = some path ∧ q.moved = false
      ∧ s.instAt path = some x ∧ x.copies[c.copy]? = some r ∧ c.stall = none ∧ q.write = write :=
  fun write => ⟨staged (body 0#32 0#32 [desc true true, desc write false]), _, desc write false, inst0, ⟨[], [], []⟩, rfl, rfl, rfl, rfl, rfl, rfl, rfl, rfl⟩

theorem witness_SpokeStages :
    (∃ (s : State) (c : Core) (x : Inst), s.coreAt 0 = some c ∧ s.snd.running = some 0 ∧ s.instAt path = some x ∧ copyOn s (.inst path) 0 = some 0 ∧ c.inst = none
      ∧ x.faulted = false ∧ 0 ∉ x.ran ∧ 0 ∉ s.snd.complete ∧ 0 ∉ s.snd.aborted)
    ∧ (∃ (s : State) (c o : Core), s.coreAt 0 = some c ∧ c.inst = some path ∧ c.mode = .body ∧ o.inst = some path ∧ atLoopEnd o = false ∧ Issues s 0 (ctlOf [] []) o)
    ∧ ∃ (s : State) (c : Core), s.coreAt 0 = some c ∧ c.inst = some path ∧ c.mode = .drain ∧ c.dmaq = [] :=
  ⟨⟨staged Core.reset, Core.reset, inst0, by decide +kernel⟩,
    ⟨staged (body 0#32 0#32 []), _, _, rfl, rfl, rfl, by decide +kernel, by decide +kernel, issues_body _ _ _ _ (by decide) (by decide +kernel)⟩,
    ⟨staged { body 0#32 0#32 [] with mode := .drain }, _, rfl, rfl, rfl, rfl⟩⟩

theorem witness_SpokeFaults :
    (∃ (s : State) (c : Core) (x : Inst) (bundle : BitVec 64), s.coreAt 0 = some c ∧ c.inst = some path ∧ c.mode = .body ∧ c.stall = none ∧ c.rank = 0
      ∧ s.instAt path = some x ∧ x.now = [] ∧ bundleIllegal (atLoopEnd c) bundle.toNat = true)
    ∧ ∃ (s : State) (c : Core) (x : Inst), s.coreAt 0 = some c ∧ c.inst = some path ∧ c.mode = .body ∧ c.stall = none ∧ c.rank = 0 ∧ s.instAt path = some x ∧ x.now = []
      ∧ c.fence < c.next :=
  ⟨⟨staged (body 0#32 0#32 []), body 0#32 0#32 [], inst0, 0xFFFFFFFFFFFFFFFF#64, by decide +kernel⟩,
    ⟨staged { body 0#32 0#32 [] with next := 101 }, { body 0#32 0#32 [] with next := 101 }, inst0, by decide +kernel⟩⟩

end Sys2Proof.Tests
end

section
/-! SUPPORT. The course every command keeps to, and what it gives: no command stops the block (O3), and every step keeps its
invariant (O4). -/

namespace Sys2Proof.Machine

/-! ### Resets and the first SERVING -/

theorem course_coldReset (s : State) (h : Nat) (mon mclk : Bool) :
    ∃ k, nextSkel (execColdReset h mon mclk s) = some k ∧ KeepsCourse s (.coldReset h mon mclk) k := by
  refine ⟨_, execColdReset_skel h mon mclk s, ?_⟩
  split
  · exact course_same s _
  · exact course_zero s _ (.inr ⟨h, mon, mclk, rfl⟩)

theorem course_warmReset (s : State) (c : Instr) (cause : WarmCause) :
    ∃ k, nextSkel (execWarmReset cause s) = some k ∧ KeepsCourse s c k := by
  refine ⟨_, execWarmReset_skel cause s, ?_⟩
  split
  · exact course_same s c
  · exact course_renewed s c

theorem course_bootWatchdogExpire (s : State) (c : Instr) :
    ∃ k, nextSkel (execBootWatchdogExpire s) = some k ∧ KeepsCourse s c k := by
  refine ⟨_, execBootWatchdogExpire_skel s, ?_⟩
  split
  · exact course_same s c
  · exact course_renewed s c

/-- The first SERVING may start the grid of the boundaries again at the tally (R8). -/
theorem course_firstServing (s : State) (c : Instr) :
    ∃ k, nextSkel (execFirstServing s) = some k ∧ KeepsCourse s c k := by
  obtain h | h := execFirstServing_skel s
  · exact ⟨_, h, course_same s c⟩
  · obtain ⟨hp, hshape, -, -⟩ := course_same s c
    exact ⟨_, h, hp, hshape, fun _ => boundaries_grid _, .inl le_rfl⟩

theorem course_sampleBoundary (s : State) (c : Instr) (bad : List Nat) :
    ∃ k, nextSkel (execSampleBoundary bad s) = some k ∧ KeepsCourse s c k :=
  ⟨_, rfl, (course_sample s c s _ bad (course_same s c) (fun hc => sampleNext_grid s hc.sample) le_rfl).1⟩

/-! ### Every command -/

/-- Every command goes on with a state on its course: eight commands move the tally or the boundaries to come, and the law of each is
cited by its name; every other command keeps the skeleton (`execPing_skel`, `execSpokeClockStep_skel` and so on). -/
theorem exec_keepsCourse (c : Instr) (s : State) : ∃ k, nextSkel (exec c s) = some k ∧ KeepsCourse s c k := by
  cases c
  case sampleBoundary bad => exact course_sampleBoundary s _ bad
  case frameBoundary env => exact course_frameBoundary s _ env
  case mclkLoss n => exact course_loss s _ n
  case porstAssert => exact ⟨_, execPorstAssert_skel s, course_zero s _ (.inl rfl)⟩
  case coldReset h mon mclk => exact course_coldReset s h mon mclk
  case warmReset cause => exact course_warmReset s _ cause
  case bootWatchdogExpire => exact course_bootWatchdogExpire s _
  case firstServing => exact course_firstServing s _
  all_goals exact ⟨s.skel, by simp [exec], course_same s _⟩

theorem exec_next (c : Instr) (s : State) : ∃ t, exec c s = .next t ∧ KeepsCourse s c t.skel := by
  obtain ⟨k, hk, hc⟩ := exec_keepsCourse c s
  obtain ⟨t, ht, rfl⟩ := next_of_skel hk
  exact ⟨t, ht, hc⟩

/-! ### What the course gives -/

theorem KeepsCourse.pending_eq {s t : State} {c : Instr} (h : KeepsCourse s c t.skel) : t.pending = s.pending := h.1

theorem KeepsCourse.shape {s t : State} {c : Instr} (h : KeepsCourse s c t.skel) (hs : s.Shape) : t.Shape := by
  obtain ⟨-, hshape, -, -⟩ := h
  obtain ⟨hm, hn, hr, hc, hp⟩ := hshape hs
  exact ⟨hm, hn, hr, hc, hp⟩

theorem KeepsCourse.cadence {s t : State} {c : Instr} (h : KeepsCourse s c t.skel) (hs : s.Cadence) : t.Cadence := by
  obtain ⟨-, -, hgrid, -⟩ := h
  obtain ⟨hsample, hframe⟩ := hgrid hs
  exact ⟨hsample, hframe⟩

theorem KeepsCourse.tally {s t : State} {c : Instr} (h : KeepsCourse s c t.skel) :
    s.clk.tally ≤ t.clk.tally ∨ (t.clk.tally = 0 ∧ (c = .porstAssert ∨ ∃ h mon mclk, c = .coldReset h mon mclk)) := by
  obtain ⟨-, -, -, htally⟩ := h
  exact htally

/-! ### Steps -/

/-- The state without the command at the front of its queue. -/
def State.behind (s : State) : State := { s with pending := s.pending.tail }

theorem step_of_cons {s : State} {c : Instr} {rest : List Instr} (h : s.pending = c :: rest) : step s = exec c s.behind := by
  unfold step State.behind
  rw [h]
  rfl

theorem step_of_nil {s : State} (h : s.pending = []) : step s = .next (idle s) := by
  unfold step
  rw [h]

/-- Every step answers a next state whose queue is the queue behind its front, and whose other parts keep the shape and the grid. -/
theorem step_next (s : State) :
    ∃ t, step s = .next t ∧ t.pending = s.pending.tail ∧ (s.Shape → t.Shape) ∧ (s.Cadence → t.Cadence) := by
  cases hq : s.pending with
  | nil =>
    obtain ⟨-, hn, hf, hp, hshape⟩ := of_skel (idle_skel s)
    exact ⟨idle s, step_of_nil hq, hp.trans hq, hshape, fun hc => ⟨hn ▸ hc.sample, hf ▸ hc.frame⟩⟩
  | cons c rest =>
    obtain ⟨t, ht, hc⟩ := exec_next c s.behind
    refine ⟨t, (step_of_cons hq).trans ht, ?_, fun hs => hc.shape ?_, fun hg => hc.cadence ?_⟩
    · rw [hc.pending_eq, ← hq]
      rfl
    · exact ⟨hs.mboxes, hs.nmbs, hs.rings, hs.recs, hs.spokes⟩
    · exact ⟨hg.sample, hg.frame⟩

end Sys2Proof.Machine

open Sys2Proof Sys2Proof.Machine

/-- Settles O3: every command keeps its course (`exec_next`), and a step runs the front command on the queue behind it. -/
theorem everyCommandCompletes : Obligations.EveryCommandCompletes := by
  unfold Obligations.EveryCommandCompletes
  refine ⟨fun c s hs => ?_, fun s => ?_⟩
  · obtain ⟨t, ht, hc⟩ := exec_next c s
    exact ⟨t, ht, hc.pending_eq, hc.shape hs, hc.tally⟩
  · obtain ⟨t, ht, hp, -, -⟩ := step_next s
    exact ⟨t, ht, hp⟩

/-- Settles O4: the shape and the grid are on the course of every step, and what still waits was waiting before. -/
theorem stepKeepsInvariant : Obligations.StepKeepsInvariant := by
  unfold Obligations.StepKeepsInvariant
  intro s t hs ht
  obtain ⟨u, hu, hp, hshape, hcadence⟩ := step_next s
  obtain rfl : u = t := by simpa [hu] using ht
  exact ⟨hshape hs.shape, hcadence hs.cadence, fun c hc => hs.queued c (List.mem_of_mem_tail (hp ▸ hc))⟩

end

section
/-! SUPPORT. What PORST_N, a cold reset, a warm reset and the boot watchdog leave: what every reset clears, and that the boot flow behind
it keeps the parts of `kept` (O7). -/

namespace Sys2Proof.Machine

/-- What every reset loses (R36, R495): the firmware's memory, handles, escrow, armed commits, the admission, READY, the DRAM but its
density, and the indices of every mailbox. -/
def Cleared (density : Nat) (t : State) : Prop :=
  t.svc = Svc.reset ∧ t.fw = Fw.reset ∧ t.armed = [] ∧ t.adm = Adm.reset ∧ t.boot.ready = false ∧ t.feeds = [] ∧ t.chans = []
    ∧ t.dram = { Dram.reset with density := density } ∧ ∀ b ∈ t.mbox, b.inWr = 0 ∧ b.inRd = 0 ∧ b.outWr = 0 ∧ b.outRd = 0

theorem cleared_of_kept {x y : State} {density : Nat} (h : kept x = kept y) (hy : Cleared density y) : Cleared density x := by
  simp only [kept, Prod.mk.injEq] at h
  obtain ⟨hsvc, hfw, harmed, hadm, hready, -, -, -, hfeeds, hchans, hdram, hmbox, -, -, -⟩ := h
  unfold Cleared
  rw [hsvc, hfw, harmed, hadm, hready, hfeeds, hchans, hdram, hmbox]
  exact hy

theorem resetCore_cleared (s : State) : Cleared s.dram.density (resetCore s) := by
  refine ⟨rfl, rfl, rfl, rfl, rfl, rfl, rfl, rfl, fun b hb => ?_⟩
  obtain ⟨a, -, rfl⟩ := List.mem_map.mp hb
  exact ⟨rfl, rfl, rfl, rfl⟩

theorem porstState_cleared (s : State) : Cleared s.dram.density (porstState s) :=
  resetCore_cleared { s with clk := Clk.reset, fault := { s.fault with outA := true, outB := true } }

/-- The parts of `kept` that a reset keeps or samples: clock, flash, straps and the count of resets. -/
theorem fields_of_kept {x y : State} (h : kept x = kept y) :
    x.clk = y.clk ∧ x.flash = y.flash ∧ x.boot.porst = y.boot.porst ∧ x.boot.hostStrap = y.boot.hostStrap
      ∧ x.boot.monStrap = y.boot.monStrap ∧ x.ledg.resets = y.ledg.resets := by
  simp only [kept, Prod.mk.injEq] at h
  obtain ⟨-, -, -, -, -, hporst, hhost, hmon, -, -, -, -, hclk, hflash, hresets⟩ := h
  exact ⟨hclk, hflash, hporst, hhost, hmon, hresets⟩

/-- PORST_N is released: the straps are sampled, the clock is chosen, and the seal LFSR takes its seed. -/
def released (h : Nat) (mon mclk : Bool) (s : State) : State :=
  { s with
    clk := { s.clk with mclkPresent := mclk, onHoldover := !mclk, holdover := !mclk },
    boot := { Boot.reset with hostStrap := h % 4, monStrap := mon },
    maint := { s.maint with lfsr := BitVec.ofNat 15 (Config.sealSeed s.free % 32767 + 1) }, free := s.free + 1 }

theorem released_cleared {h : Nat} {mon mclk : Bool} {s : State} {density : Nat} (hs : Cleared density s) :
    Cleared density (released h mon mclk s) := by
  obtain ⟨hsvc, hfw, harmed, hadm, -, hfeeds, hchans, hdram, hmbox⟩ := hs
  exact ⟨hsvc, hfw, harmed, hadm, rfl, hfeeds, hchans, hdram, hmbox⟩

/-- A cold reset is PORST_N asserted, released, and the boot flow, which keeps `kept`. -/
theorem exec_coldReset_kept (h : Nat) (mon mclk : Bool) {s : State} (hs : s.boot.porst = false) :
    ∃ t, exec (.coldReset h mon mclk) s = .next t ∧ kept t = kept (released h mon mclk (porstState s)) := by
  have he : exec (.coldReset h mon mclk) s = execColdReset h mon mclk s := rfl
  rw [he, execColdReset, hs, if_neg Bool.false_ne_true]
  refine ⟨_, rfl, ?_⟩
  rw [kept_faults, kept_jump, kept_record, kept_bootBell, kept_bootConfig]
  rfl

theorem exec_warmReset_kept (c : WarmCause) {s : State} (hs : s.boot.porst = false) :
    ∃ t, exec (.warmReset c) s = .next t ∧ kept t = kept (resetCore s) := by
  have he : exec (.warmReset c) s = execWarmReset c s := rfl
  rw [he]
  unfold execWarmReset
  rw [hs, if_neg Bool.false_ne_true]
  exact ⟨_, rfl, kept_warmReset _ s⟩

theorem exec_warmReset_porst (c : WarmCause) {s : State} (hs : s.boot.porst = true) : exec (.warmReset c) s = .next s := by
  have he : exec (.warmReset c) s = execWarmReset c s := rfl
  rw [he]
  unfold execWarmReset
  rw [if_pos hs]

/-- The mark that the boot watchdog puts on the running image (R505). -/
def imageMarked (s : State) : State := { s with flash := { s.flash with failed := s.flash.failed.set s.boot.image true } }

theorem exec_bootWatchdogExpire_kept {s : State} {a : Nat} (hj : s.boot.jumpAt = some a) (hv : s.boot.served = false) :
    ∃ t, exec .bootWatchdogExpire s = .next t ∧ kept t = kept (resetCore (imageMarked s)) := by
  have he : exec .bootWatchdogExpire s = execBootWatchdogExpire s := rfl
  rw [he, execBootWatchdogExpire, hj, hv, if_neg (by simp)]
  exact ⟨_, rfl, kept_warmReset _ (imageMarked s)⟩

end Sys2Proof.Machine

open Sys2Proof Sys2Proof.Machine

/-- Settles O7: every reset clears what `resetCore` clears, and the boot flow that follows keeps it (`kept`). -/
theorem resets : Obligations.Resets := by
  unfold Obligations.Resets
  rintro s _ rfl
  refine ⟨⟨porstState s, rfl, porstState_cleared s, rfl, rfl, rfl, rfl, rfl⟩, fun h mon mclk hh hs => ?_, fun c hs => ?_,
    fun c => exec_warmReset_porst c, fun a hj hv => ?_⟩
  · obtain ⟨t, ht, hk⟩ := exec_coldReset_kept h mon mclk hs
    obtain ⟨hclk, hflash, hporst, hhost, hmon, hresets⟩ := fields_of_kept hk
    refine ⟨t, ht, cleared_of_kept hk (released_cleared (porstState_cleared s)), hporst, hhost.trans (Nat.mod_eq_of_lt hh), hmon, ?_⟩
    rw [hclk, hflash, hresets]
    exact ⟨rfl, rfl, rfl, rfl, rfl, rfl⟩
  · obtain ⟨t, ht, hk⟩ := exec_warmReset_kept c hs
    obtain ⟨hclk, hflash, -, hhost, hmon, hresets⟩ := fields_of_kept hk
    refine ⟨t, ht, cleared_of_kept hk (resetCore_cleared s), ?_⟩
    rw [hclk, hflash, hhost, hmon, hresets]
    exact ⟨rfl, rfl, rfl, rfl, rfl, rfl⟩
  · obtain ⟨t, ht, hk⟩ := exec_bootWatchdogExpire_kept hj hv
    obtain ⟨hclk, hflash, -, hhost, -, -⟩ := fields_of_kept hk
    refine ⟨t, ht, cleared_of_kept hk (resetCore_cleared (imageMarked s)), ?_⟩
    rw [hclk, hflash, hhost]
    exact ⟨rfl, rfl, rfl⟩

end

section
/-! SUPPORT. A register as a master reads and writes it, the accesses of other widths, the error response to an access that is not
aligned, and the write index of a host DMA queue (O9). -/

namespace Sys2Proof.Machine

/-! ### Widths and alignment (R473) -/

/-- A master that works makes a narrow read of the word that holds the bytes. -/
theorem masterRead_narrow {m : Master} {a size : Nat} {v : Word} {s t : State} (hon : hostOn s m = true) (hsize : size = 1 ∨ size = 2)
    (ha : a % size = 0) (hr : busRead m (a / 4 * 4) s = (some v, t)) :
    masterRead m a size s = { t with regs := { t.regs with readData := [some (narrowWord a size v)] } } := by
  have hok : sizeOk size = true := by rcases hsize with rfl | rfl <;> rfl
  have hmin : min size 4 = size := by omega
  unfold masterRead access
  rw [hon, hok, if_neg (by decide), hmin, if_neg (not_not.mpr ha), if_pos (by omega), hr]
  rfl

/-- A narrow write of the host window is ignored and noted. -/
theorem masterWrite_ignored {m : Master} {a size : Nat} (v : Nat) {s : State} (hon : hostOn s m = true) (hsize : size = 1 ∨ size = 2)
    (ha : a % size = 0) (hn : narrowIgnored m a = true) :
    masterWrite m a size v s = s.updErr fun e => { e with accErr := true } := by
  have hok : sizeOk size = true := by rcases hsize with rfl | rfl <;> rfl
  have hmin : min size 4 = size := by omega
  unfold masterWrite accessWrite
  rw [hon, hok, if_neg (by decide), hmin, if_neg (not_not.mpr ha), if_pos (by omega), if_pos hn]

theorem masterWrite_unaligned {m : Master} {a size : Nat} (v : Nat) {s : State} (hon : hostOn s m = true) (hok : sizeOk size = true)
    (ha : a % min size 4 ≠ 0) : masterWrite m a size v s = refuse m a kUnaligned true s := by
  unfold masterWrite accessWrite
  rw [hon, hok, if_neg (by decide), if_pos ha]

/-- The two forms of an access of a size that the matrix carries, at an address that is no multiple of it. -/
theorem unaligned_size {size a : Nat} (h : (size = 2 ∧ a % 2 ≠ 0) ∨ (0 < size ∧ size % 4 = 0 ∧ a % 4 ≠ 0)) :
    sizeOk size = true ∧ a % min size 4 ≠ 0 := by
  rcases h with ⟨rfl, ha⟩ | ⟨h0, h4, ha⟩
  · exact ⟨rfl, ha⟩
  · have hmin : min size 4 = 4 := by omega
    exact ⟨by simp [sizeOk, h0, h4], by rw [hmin]; exact ha⟩

/-! ### Addresses of registers -/

theorem regAddr_add (m : Master) (r k : Nat) : regAddr m r + k = regAddr m (r + k) := by
  unfold regAddr
  split <;> omega

/-- The registers lie in the host window of every master. -/
theorem narrowIgnored_regAddr (m : Master) {r : Nat} (hr : r < 0x100000) : narrowIgnored m (regAddr m r) = true := by
  unfold narrowIgnored regAddr
  cases isTeller m
  · simp only [Bool.false_eq_true, if_false, decide_eq_true_eq]
    omega
  · simp only [if_true, Bool.and_eq_true, decide_eq_true_eq]
    omega

theorem regAddr_mod_size (m : Master) (r : Nat) {size : Nat} (hsize : size = 1 ∨ size = 2) : regAddr m r % size = r % size := by
  unfold regAddr
  rcases hsize with rfl | rfl <;> split <;> omega

/-- The word that holds a byte of the register at an aligned offset. -/
theorem regAddr_word (m : Master) {r off : Nat} (hr : r % 4 = 0) (hoff : off < 4) : regAddr m (r + off) / 4 * 4 = regAddr m r := by
  unfold regAddr
  split <;> omega

/-- A narrow read of a register that every master reaches: the bytes of its word. -/
theorem masterRead_reg_narrow {m : Master} {r off size : Nat} {v : Word} {s t : State} (hr : r < 0x100000) (h4 : r % 4 = 0)
    (ht : isTeller m = true ∨ tellerOnly r = false) (hon : hostOn s m = true) (hsize : size = 1 ∨ size = 2) (hoff : off < 4)
    (ha : off % size = 0) (hv : regRead m r s = some (v, t)) :
    masterRead m (regAddr m r + off) size s =
      { t with regs := { t.regs with readData := [some (BitVec.ofNat 32 (v.toNat / 2 ^ (8 * off) % 2 ^ (8 * size)))] } } := by
  have hal : regAddr m (r + off) % size = 0 := by
    rw [regAddr_mod_size m _ hsize]
    rcases hsize with rfl | rfl <;> omega
  have hbyte : regAddr m (r + off) % 4 = off := by
    rw [regAddr_mod]
    omega
  rw [regAddr_add, masterRead_narrow hon hsize hal (regAddr_word m h4 hoff ▸ busRead_reg m r v s t hr ht hv), narrowWord, hbyte]
  rfl

/-! ### The error response (R468) -/

theorem raiseVecIf_pend (c : Bool) (v : Nat) (s : State) :
    raiseVecIf c v s = { s with regs := { s.regs with
      irqPend := (raiseVecIf c v s).regs.irqPend, msixPba := (raiseVecIf c v s).regs.msixPba } } := by
  unfold raiseVecIf
  split <;> rfl

/-- An error response raises vector 22 when BUS_ERR sets, and records an error only where none is recorded. -/
theorem busError_eq (m : Master) (a kind : Nat) (write window : Bool) (s : State) :
    busError m a kind write window s = { s with regs := { s.regs with
      err := { s.regs.err with busErr := true },
      irqPend := (raiseVecIf (!s.regs.err.busErr) 22 s).regs.irqPend, msixPba := (raiseVecIf (!s.regs.err.busErr) 22 s).regs.msixPba,
      busValid := true,
      busAddr := if s.regs.busValid then s.regs.busAddr else BitVec.ofNat 32 a,
      busInfo := if s.regs.busValid then s.regs.busInfo
        else BitVec.ofNat 32 (b2n window * 1024 + kind * 256 + b2n write * 16 + masterCode m) } } := by
  unfold busError
  rw [raiseVecIf_pend]
  cases hv : s.regs.busValid
  · simp [State.updErr, State.updRegs, hv, wd]
  · simp [State.updErr, State.updRegs, hv]

/-- An address below BAR2's is refused as it stands. -/
theorem refuse_low (m : Master) {a : Nat} (kind : Nat) (write : Bool) (s : State) (ha : a < 2 ^ 24) :
    refuse m a kind write s = busError m a kind write false s := by
  have hw : (m == .pcie && decide (2 ^ 24 ≤ a)) = false := by
    rw [decide_eq_false (by omega), Bool.and_false]
  unfold refuse
  rw [hw]
  rfl

/-! ### Host DMA queues (R38, R480) -/

theorem updHd_eq {s : State} {q : Nat} {h : HdQueue} (hq : s.regs.hd[q]? = some h) (f : HdQueue → HdQueue) :
    s.updHd q f = { s with regs := { s.regs with hd := s.regs.hd.set q (f h) } } := by
  rw [← modify_set _ _ f _ hq]
  rfl

/-- The index rule for a queue whose K is in range: an index that posts no more than the ring holds and takes nothing back is taken,
every other is ignored. -/
theorem writeHdWr_eq {s : State} {q v : Nat} {h : HdQueue} (hq : s.regs.hd[q]? = some h) (hlo : 4 ≤ h.k) (hhi : h.k ≤ 12)
    (hv : v < 2 ^ (h.k + 1)) :
    writeHdWr q (BitVec.ofNat 32 v) s =
      if posted (2 ^ h.k) v h.rd ≤ 2 ^ h.k ∧ posted (2 ^ h.k) h.wr h.rd ≤ posted (2 ^ h.k) v h.rd then
        { s with regs := { s.regs with hd := s.regs.hd.set q { h with wr := v } } }
      else s := by
  have hat : s.hdAt q = h := by simp [State.hdAt, hq]
  have hk : h.kEff = h.k := if_pos ⟨hlo, hhi⟩
  have h13 : v < 2 ^ 13 := lt_of_lt_of_le hv (Nat.pow_le_pow_right (by decide) (by omega))
  have hf : fld (BitVec.ofNat 32 v) 0 13 = v := by
    rw [fld_low, BitVec.toNat_ofNat]
    omega
  have hsize : v < 2 * 2 ^ h.k := by
    rw [← Nat.pow_succ']
    exact hv
  simp only [writeHdWr, hat, hk, hf, hsize, true_and, updHd_eq hq]

theorem posted_pow (k wr rd : Nat) : posted (2 ^ k) wr rd = (wr + 2 ^ (k + 1) - rd) % 2 ^ (k + 1) := by
  rw [posted, Nat.pow_succ']

end Sys2Proof.Machine

open Sys2Proof Sys2Proof.Machine

/-- Settles O9: the accesses go through `masterRead` and `masterWrite` to the registers 0x20, 0x50 and 0x54 or to an error response, and
the write index goes through the index rule (`writeHdWr_eq`). -/
theorem registerAccess : Obligations.RegisterAccess := by
  unfold Obligations.RegisterAccess
  intro s m base hon hbase
  have hb := regAddr_eq hbase
  refine ⟨fun v => ?_, ?_, ?_, fun size off hsize hoff hal => ?_, fun size off v hsize hoff hal => ?_, fun size a v h => ?_,
    fun q h v hq hlo hhi hwr hrd hv => ?_⟩
  · rw [hb]
    exact congrArg _ (masterWrite_reg m 0x54 v s _ (by decide) rfl (.inr rfl) hon rfl)
  · exact congrArg _ (masterRead_reg m 0x20 _ s _ (by decide) rfl (.inr rfl) hon rfl)
  · rw [hb]
    exact congrArg _ (masterRead_reg m 0x50 _ s _ (by decide) rfl (.inr rfl) hon rfl)
  · rw [hb]
    exact congrArg _ (masterRead_reg_narrow (by decide) rfl (.inr rfl) hon hsize hoff hal rfl)
  · rw [hb]
    refine congrArg _ (masterWrite_ignored v hon hsize ?_ (narrowIgnored_regAddr m hoff))
    rw [regAddr_mod_size m off hsize, hal]
  · obtain ⟨hok, hal⟩ := unaligned_size h
    refine ⟨refuse m a kUnaligned true s, congrArg _ (masterWrite_unaligned v hon hok hal), ?_, fun hs => ?_, fun hs => ?_, fun hs ha => ?_⟩
    · rw [refuse, busError_eq]
    · rw [refuse, busError_eq, hs]
      rfl
    · rw [refuse, busError_eq, hs]
      exact ⟨rfl, rfl⟩
    · rw [refuse_low m kUnaligned true s ha, busError_eq, hs]
      exact ⟨rfl, rfl⟩
  · have he : exec (.hubHdWrWrite q (BitVec.ofNat 32 v)) s = .next (writeHdWr q (BitVec.ofNat 32 v) s) := rfl
    rw [he, writeHdWr_eq hq hlo hhi hv, posted_pow, posted_pow]
    exact ⟨fun hfit hmore => congrArg _ (if_pos ⟨hfit, hmore⟩), fun hover => congrArg _ (if_neg fun hn => by omega)⟩

end

section
/-! SUPPORT. Holdover, the MCLK ratio and the clock of the spokes: what each command of R17, R23 to R26 and R520 does where its condition
holds (O29). -/

namespace Sys2Proof.Machine

/-! ### MCLK (R26, R520) -/

theorem exec_mclkReturn_lost {s : State} (h : s.clk.mclkPresent = false) :
    exec .mclkReturn s = .next { s with clk := { s.clk with mclkPresent := true, mclkSince := s.clk.tally } } := by
  have he : exec .mclkReturn s = execMclkReturn s := rfl
  rw [he, execMclkReturn, h, if_neg Bool.false_ne_true]

theorem exec_mclkReturn_present {s : State} (h : s.clk.mclkPresent = true) : exec .mclkReturn s = .next s := by
  have he : exec .mclkReturn s = execMclkReturn s := rfl
  rw [he, execMclkReturn, if_pos h]

theorem exec_mclkRatioMeasure {s : State} (n : Nat) (hp : s.clk.mclkPresent = true) (hr : s.clk.ratioSince + 3000 * 8192 ≤ s.clk.tally)
    (hm : s.clk.mclkSince + 3000 * 8192 ≤ s.clk.tally) :
    exec (.mclkRatioMeasure n) s = .next { s with clk := { s.clk with ratio := n, ratioSince := s.clk.tally } } := by
  have he : exec (.mclkRatioMeasure n) s = execMclkRatioMeasure n s := rfl
  have hw : max s.clk.ratioSince s.clk.mclkSince + frames 3000 ≤ s.clk.tally := by
    rw [frames_eq]
    omega
  rw [he, execMclkRatioMeasure, hp, decide_eq_true hw, if_pos (by rfl)]

/-! ### Holdover (R23, R25, R26, R520) -/

theorem enterHoldover_lost {s : State} (ho : s.clk.onHoldover = true) (hh : s.clk.holdover = false) (hl : s.clk.lostAt ≤ s.clk.tally) :
    enterHoldover s = settleFaults (stopQuietPorts
      (raiseOwn 0xA006 .boundary s.clk.tally none 0 { s with clk := { s.clk with holdover := true } })) := by
  unfold enterHoldover
  rw [ho, hh, decide_eq_true hl, if_pos (by rfl)]

theorem exec_holdoverEnter {s : State} (hf : s.clk.tally % 8192 = 0) : exec .holdoverEnter s = .next (enterHoldover (closeFrame s)) := by
  have he : exec .holdoverEnter s = execHoldoverEnter s := rfl
  rw [he, execHoldoverEnter, if_pos (atFrame_iff hf)]

/-- MCLK has been present for 3000 frames and its ratio lies within 200 ppm of 24.576 / 25 (R26, R520). -/
theorem mayReturn_of {s : State} (hv : s.serving = true) (ho : s.clk.onHoldover = true) (hp : s.clk.mclkPresent = true)
    (hm : s.clk.mclkSince + 3000 * 8192 ≤ s.clk.tally) (hlo : 1000000000 - 200000 ≤ s.clk.ratio)
    (hhi : s.clk.ratio ≤ 1000000000 + 200000) : mayReturn s = true := by
  have hw : s.clk.mclkSince + frames 3000 ≤ s.clk.tally := by
    rw [frames_eq]
    exact hm
  have hr : (s.clk.ratio - 1000000000).natAbs ≤ 200000 := by omega
  rw [mayReturn, hv, ho, hp, decide_eq_true hw, decide_eq_true hr]
  rfl

theorem exec_holdoverExit {s : State} (hf : s.clk.tally % 8192 = 0) (hr : mayReturn s = true) :
    exec .holdoverExit s = .next (settleFaults (raiseOwn 0xA007 .boundary (closeFrame s).clk.tally none 0
      { closeFrame s with clk := { (closeFrame s).clk with onHoldover := false, holdover := false } })) := by
  have he : exec .holdoverExit s = execHoldoverExit s := rfl
  rw [he, execHoldoverExit, atFrame_iff hf, hr, if_pos (by rfl)]

/-! ### The clock of the spokes (R17) -/

/-- One set point of 25 MHz towards the one asked for, and never past it. -/
def clockTowards (mhz target : Nat) : Nat := if mhz < target then min (mhz + 25) target else max (mhz - 25) target

theorem exec_spokeClockStep {s : State} (hf : s.clk.tally % 8192 = 0) (ht : s.clk.mhz ≠ s.clk.mhzTarget)
    (ha : s.clk.mhzAt ≠ some s.clk.tally) :
    exec .spokeClockStep s = .next { closeFrame s with clk := { (closeFrame s).clk with
      mhz := clockTowards (closeFrame s).clk.mhz (closeFrame s).clk.mhzTarget, mhzAt := some (closeFrame s).clk.tally } } := by
  have he : exec .spokeClockStep s = execSpokeClockStep s := rfl
  rw [he, execSpokeClockStep, atFrame_iff hf, if_pos (by simp [ht, ha])]
  rfl

end Sys2Proof.Machine

open Sys2Proof Sys2Proof.Machine

/-- Settles O29: each clause is one command under its condition; the frame that ends is closed before the clock changes. -/
theorem clockRules : Obligations.ClockRules := by
  unfold Obligations.ClockRules
  rintro s x rfl
  refine ⟨exec_mclkReturn_lost, exec_mclkReturn_present, exec_mclkRatioMeasure, fun hf hx ho hh hl => ?_,
    fun hf hx hv ho hp hm hlo hhi => ?_, fun hf hx ht ha => ?_⟩
  · rw [exec_holdoverEnter hf, enterHoldover_lost (by rw [hx, ho]) (by rw [hx, hh]) (by rw [hx]; exact hl), hx]
  · rw [exec_holdoverExit hf (mayReturn_of hv ho hp hm hlo hhi), hx]
  · rw [exec_spokeClockStep hf ht ha, hx]
    rfl

end

section
/-! SUPPORT. A spoke that completes the running frame, and one that has not completed it at its release (O30). -/

namespace Sys2Proof.Machine

/-! ### Completion (R11, R15) -/

theorem exec_spokeFrameComplete {s : State} {sp t0 : Nat} {x : SpokeSt} (hr : s.snd.running = some t0) (hx : s.spokes[sp]? = some x)
    (hc : s.snd.complete.contains sp = false) (ha : s.snd.aborted.contains sp = false) (hrole : x.role = 0) (hd : x.core.dmaq = [])
    (hi : x.core.inst = none) :
    exec (.spokeFrameComplete sp) s = .next { s with snd := { s.snd with complete := s.snd.complete ++ [sp] } } := by
  have he : exec (.spokeFrameComplete sp) s = execSpokeFrameComplete sp s := rfl
  have hat : s.spokeAt sp = some x := hx
  have hcore : s.coreAt sp = some x.core := congrArg (Option.map SpokeSt.core) hat
  have hactive : spokeRole s sp = 0 := by
    rw [spokeRole, hat]
    exact hrole
  rw [he, execSpokeFrameComplete, hr, hactive, hcore, hc, ha, Option.any_some, hd, hi, if_pos (by rfl)]

/-! ### Overrun (R16, R508, R509) -/

theorem updSpoke_eq {s : State} {sp : Nat} {x : SpokeSt} (hx : s.spokes[sp]? = some x) (f : SpokeSt → SpokeSt) :
    s.updSpoke sp f = { s with spokes := s.spokes.set sp (f x) } := by
  rw [← modify_set _ _ f _ hx]
  rfl

/-- A charge adds one audit failure to the spoke and changes no other spoke. -/
theorem charge_spokes {s : State} {sp : Nat} {x : SpokeSt} (hx : s.spokes[sp]? = some x) :
    (charge sp s).spokes = s.spokes.set sp { x with auditFails := x.auditFails + 1 } :=
  modify_set _ _ _ _ hx

theorem charge_snd (sp : Nat) (s : State) : (charge sp s).snd = s.snd := rfl

/-- The charge of an overrun: none where the frame has charged the spoke already (R508). -/
def overrunCharge (sp : Nat) (s : State) : State := if chargedIn s sp then s else charge sp s

theorem overrunCharge_snd (sp : Nat) (s : State) : (overrunCharge sp s).snd = s.snd := by
  unfold overrunCharge
  split
  · rfl
  · exact charge_snd sp s

theorem overrunCharge_spokes {s : State} {sp : Nat} {x : SpokeSt} (hx : s.spokes[sp]? = some x) :
    ∃ n, (overrunCharge sp s).spokes = s.spokes.set sp { x with auditFails := n } := by
  unfold overrunCharge
  split
  · refine ⟨x.auditFails, ?_⟩
    obtain ⟨hlt, rfl⟩ := List.getElem?_eq_some_iff.mp hx
    exact (List.set_getElem_self hlt).symm
  · exact ⟨_, charge_spokes hx⟩

/-- What an abort leaves of a spoke: the overrun counted, and the core back in the firmware. -/
def overrunSpoke (x : SpokeSt) : SpokeSt :=
  { x with overruns := min (x.overruns + 1) 0xFFFFFFFF, core := { x.core with inst := none, areas := [], mode := .firmware, stall := none } }

theorem exec_spokeOverrun {s : State} {sp t0 : Nat} {x : SpokeSt} (hr : s.snd.running = some t0) (hx : s.spokes[sp]? = some x)
    (hc : s.snd.complete.contains sp = false) (ha : s.snd.aborted.contains sp = false) (ht : s.clk.tally = t0 + 8192)
    (hrole : x.role = 0 ∨ x.role = 2) :
    exec (.spokeOverrun sp) s = .next { (overrunCharge sp s).updSpoke sp overrunSpoke with
      snd := { (overrunCharge sp s).snd with aborted := sp :: (overrunCharge sp s).snd.aborted } } := by
  have he : exec (.spokeOverrun sp) s = execSpokeOverrun sp s := rfl
  have hat : s.spokeAt sp = some x := hx
  have hgate : (s.clk.tally != t0 + frameTicks || !(x.role == 0 || x.role == 2) || s.snd.complete.contains sp
      || s.snd.aborted.contains sp) = false := by
    rw [hc, ha, ht]
    rcases hrole with h | h <;> simp [frameTicks, h]
  rw [he]
  unfold execSpokeOverrun
  rw [hr, hat]
  dsimp only
  rw [hgate, if_neg Bool.false_ne_true]
  rfl

end Sys2Proof.Machine

open Sys2Proof Sys2Proof.Machine

/-- Settles O30: completion is one command; an overrun charges the spoke at most once (`overrunCharge`) and then aborts it. -/
theorem spokeFrames : Obligations.SpokeFrames := by
  unfold Obligations.SpokeFrames
  intro s sp t0 x hr hx hc ha
  refine ⟨exec_spokeFrameComplete hr hx hc ha, fun ht hrole => ?_⟩
  obtain ⟨n, hn⟩ := overrunCharge_spokes (sp := sp) hx
  have hlt : sp < s.spokes.length := (List.getElem?_eq_some_iff.mp hx).1
  have hat : (overrunCharge sp s).spokes[sp]? = some { x with auditFails := n } := by
    rw [hn, List.getElem?_set_self hlt]
  refine ⟨n, ?_⟩
  rw [exec_spokeOverrun hr hx hc ha ht hrole, updSpoke_eq hat, hn, List.set_set, overrunCharge_snd]
  rfl

end

section
/-! SUPPORT. Items, text and node paths read back from what spells them (O5). -/

namespace Sys2Proof.Machine

/-! ### Items and text (R44, R45) -/

/-- An item of R44 fits the fields of its header word. -/
theorem Item.fields_of_wf {i : Item} (h : i.wf = true) : i.tag < 65536 ∧ i.vals.length < 65536 := by
  simp only [Item.wf, Bool.and_eq_true, decide_eq_true_eq] at h
  omega

theorem parseItems_itemWords {is : List Item} (off : Nat) (h : ∀ i ∈ is, i.wf = true) :
    parseItems (itemWords is).length off (itemWords is) = .ok is :=
  parse_itemWords is (fun i hi => Item.fields_of_wf (h i hi)) _ off (itemWords_len is)

/-- Text ends at its first 0x00, and what packing adds behind it is zero. -/
theorem textOf_packText {txt : Name} (h : ∀ c ∈ txt, 1 ≤ c ∧ c < 256) : textOf (packText txt) = some txt := by
  obtain ⟨k, hk⟩ := textBytes_pack txt h
  have hchars : ∀ c ∈ txt, (c != 0) = true := fun c hc => by
    have := h c hc
    simp only [bne_iff_ne]
    omega
  have htake : (txt ++ List.replicate k 0).takeWhile (· != 0) = txt := by
    rw [List.takeWhile_append_of_pos hchars]
    cases k <;> simp [List.replicate_succ]
  simp [textOf, hk, htake]

/-! ### Paths (R65, R66) -/

/-- A grouping segment with an index below it names the node that the first entry of that name gives the index. -/
theorem group2_of_find {a b : Name} {n : Nat} {e : String × Nat × Nat × Nat × (Nat → Node)}
    {l : List (String × Nat × Nat × Nat × (Nat → Node))} (hf : l.find? (fun e => a == nm e.1) = some e)
    (hi : idxSeg e.2.1 e.2.2.1 e.2.2.2.1 b = some n) : group2 a b l = some (e.2.2.2.2 n) := by
  induction l with
  | nil => cases hf
  | cons x l ih =>
    unfold group2 at ih ⊢
    rw [List.findSome?_cons]
    cases hx : a == nm x.1 with
    | true =>
      simp only [List.find?_cons, hx, Option.some.injEq] at hf
      subst hf
      rw [if_pos rfl, hi]
      rfl
    | false =>
      simp only [List.find?_cons, hx] at hf
      exact ih hf

theorem nodeAtPath_spoke (c : Cfg) {w k : Nat} (hw : w < 4) (hk : k < 10) :
    nodeAtPath c (pathOf (.spoke w k)) = some (.spoke w k) := by
  have h : nodeAtPath c (pathOf (.spoke w k)) =
      (idxSeg 1 0 4 (digits 1 w)).bind fun w => (idxSeg 2 0 10 (digits 2 k)).map (.spoke w) := rfl
  rw [h, idxSeg_one w (by omega) 4 hw, idxSeg_two k (by omega) 0 10 (by omega) hk]
  rfl

theorem nodeAtPath_feed (c : Cfg) {f : Nat} (hf : f < 1024) (m : List Name) :
    nodeAtPath c (nm "feed" :: digits 4 f :: m) = feedMember f m := by
  have h : nodeAtPath c (nm "feed" :: digits 4 f :: m) = if digits 4 f == nm "till" then if m.isEmpty then some .till else none
      else (idxSeg 4 0 1024 (digits 4 f)).bind fun f => feedMember f m := rfl
  rw [h, digits_ne_till f hf, if_neg Bool.false_ne_true, idxSeg_four f hf 1024 hf]
  rfl

theorem nodeAtPath_net (c : Cfg) {n : Nat} (hn : n < 4) (m : List Name) :
    nodeAtPath c (nm "net" :: digits 1 n :: m) = netMember n m := by
  have h : nodeAtPath c (nm "net" :: digits 1 n :: m) = (idxSeg 1 0 4 (digits 1 n)).bind fun n => netMember n m := rfl
  rw [h, idxSeg_one n (by omega) 4 hn]
  rfl

theorem nodeAtPath_class (c : Cfg) {k : Nat} (hk : k < 4) : nodeAtPath c (pathOf (.cls k)) = some (.cls k) := by
  interval_cases k <;> rfl

/-- Below `/tandem` the configuration decides between a running stage and a tandem. -/
theorem nodeAtPath_tandem (c : Cfg) {p : List Name} (hp : p ≠ []) :
    nodeAtPath c (nm "tandem" :: p) = if (stageIn c p).isSome then some (.inst p) else some (.tandem p) := by
  have h : nodeAtPath c (nm "tandem" :: p) = if p.isEmpty then none
      else if (stageIn c p).isSome then some (.inst p) else some (.tandem p) := rfl
  rw [h, if_neg (by simpa using hp)]

/-- A path read from its root names the node it was made from. -/
theorem nodeAtPath_pathOf (c : Cfg) (n : Node) (hn : n.wf = true) (ht : ∀ p, n = .tandem p → p ≠ [] ∧ stageIn c p = none)
    (hs : ∀ p, n = .inst p → p ≠ [] ∧ stageIn c p ≠ none) : nodeAtPath c (pathOf n) = some n := by
  cases n <;> simp only [Node.wf, Bool.and_eq_true, decide_eq_true_eq] at hn
  case hub | layout | till | scene | config | bell | gear | ledgerEvent | ledgerMargin | stage => rfl
  case wheel w => exact congrArg (Option.map Node.wheel) (idxSeg_one w (by omega) 4 hn)
  case spoke w k =>
    obtain ⟨hw, hk⟩ := hn
    exact nodeAtPath_spoke c hw hk
  case car k =>
    obtain ⟨hlo, hhi⟩ := hn
    exact congrArg (Option.map Node.car) (idxSeg_two k (by omega) 1 33 hlo (by omega))
  case zone k => exact group2_of_find (e := ("zone", 3, 0, 256, .zone)) rfl (idxSeg_three k (by omega) 256 hn)
  case object k => exact group2_of_find (e := ("object", 4, 0, 768, .object)) rfl (idxSeg_four k (by omega) 768 hn)
  case channel k => exact group2_of_find (e := ("channel", 3, 0, 512, .channel)) rfl (idxSeg_three k (by omega) 512 hn)
  case bus k => exact group2_of_find (e := ("bus", 2, 0, 96, .bus)) rfl (idxSeg_two k (by omega) 0 96 (by omega) hn)
  case pilot k => exact group2_of_find (e := ("pilot", 1, 0, 4, .pilot)) rfl (idxSeg_one k (by omega) 4 hn)
  case feed f | align f | corr f | eq f | limit f => exact nodeAtPath_feed c hn _
  case bank f b =>
    obtain ⟨hf, hb⟩ := hn
    interval_cases b <;> exact nodeAtPath_feed c hf _
  case sceneChip k => exact group2_of_find (e := ("chip", 2, 0, 64, .sceneChip)) rfl (idxSeg_two k (by omega) 0 64 (by omega) hn)
  case sceneLib k => exact group2_of_find (e := ("lib", 4, 0, 1024, .sceneLib)) rfl (idxSeg_four k hn 1024 hn)
  case cls k => exact nodeAtPath_class c hn
  case slot k => exact congrArg (Option.map Node.slot) (idxSeg_one k (by omega) 4 hn)
  case bellMsg k => exact group2_of_find (e := ("msg", 2, 0, 64, .bellMsg)) rfl (idxSeg_two k (by omega) 0 64 (by omega) hn)
  case bellTrig k => exact group2_of_find (e := ("trig", 1, 0, 4, .bellTrig)) rfl (idxSeg_one k (by omega) 4 hn)
  case bellRoute k => exact group2_of_find (e := ("route", 2, 0, 64, .bellRoute)) rfl (idxSeg_two k (by omega) 0 64 (by omega) hn)
  case sai k => exact group2_of_find (e := ("sai", 2, 0, 16, .sai)) rfl (idxSeg_two k (by omega) 0 16 (by omega) hn)
  case aesi k => exact group2_of_find (e := ("aesi", 1, 0, 4, .aesi)) rfl (idxSeg_one k (by omega) 4 hn)
  case aeso k => exact group2_of_find (e := ("aeso", 1, 0, 4, .aeso)) rfl (idxSeg_one k (by omega) 4 hn)
  case pdm k => exact group2_of_find (e := ("pdm", 2, 0, 16, .pdm)) rfl (idxSeg_two k (by omega) 0 16 (by omega) hn)
  case gearSai k => exact group2_of_find (e := ("sai", 2, 0, 16, .gearSai)) rfl (idxSeg_two k (by omega) 0 16 (by omega) hn)
  case gearAesi k => exact group2_of_find (e := ("aesi", 1, 0, 4, .gearAesi)) rfl (idxSeg_one k (by omega) 4 hn)
  case gearPdm k => exact group2_of_find (e := ("pdm", 2, 0, 16, .gearPdm)) rfl (idxSeg_two k (by omega) 0 16 (by omega) hn)
  case net k | gate k | ptp k => exact nodeAtPath_net c hn _
  case tx k x =>
    obtain ⟨hk, hx⟩ := hn
    exact (nodeAtPath_net c hk _).trans (congrArg (Option.map (Node.tx k)) (idxSeg_three x (by omega) 128 hx))
  case rx k x =>
    obtain ⟨hk, hx⟩ := hn
    exact (nodeAtPath_net c hk _).trans (congrArg (Option.map (Node.rx k)) (idxSeg_three x (by omega) 128 hx))
  case tandem p =>
    obtain ⟨hp, hstage⟩ := ht p rfl
    exact (nodeAtPath_tandem c hp).trans (if_neg (by simp [hstage]))
  case inst p =>
    obtain ⟨hp, hstage⟩ := hs p rfl
    exact (nodeAtPath_tandem c hp).trans (if_pos (Option.isSome_iff_ne_none.mpr hstage))
  case ring e => exact group2_of_find (e := ("ring", 1, 0, 8, .ring)) rfl (idxSeg_one e (by omega) 8 hn)

end Sys2Proof.Machine

open Sys2Proof Sys2Proof.Machine

/-- Settles O5: items by `parse_itemWords`, text by the bytes it packs to, and paths root by root (`nodeAtPath_pathOf`). -/
theorem messageEncoding : Obligations.MessageEncoding := by
  unfold Obligations.MessageEncoding
  exact ⟨fun _ off h => parseItems_itemWords off h, fun _ h => textOf_packText h, nodeAtPath_pathOf⟩

end

section
/-! SUPPORT. What a write of a doorbell or of a ring's read index does where it is accepted, and where it is not (O15). -/

namespace Sys2Proof.Machine

/-- A mailbox that is there is changed in its place. -/
theorem updMbox_eq {s : State} {m : Nat} {b : Mbox} (hb : s.mbox[m]? = some b) (f : Mbox → Mbox) :
    s.updMbox m f = { s with mbox := s.mbox.set m (f b) } := by
  rw [← modify_set _ _ f _ hb]
  rfl

/-! ### Mailbox doorbells (R33, R38) -/

/-- The inbound doorbell `n` posts no more than the ring holds and takes back nothing that was posted. -/
def inWrOk (b : Mbox) (n : Nat) : Prop := posted 1024 n b.inRd ≤ 1024 ∧ posted 1024 b.inWr b.inRd ≤ posted 1024 n b.inRd

/-- The outbound doorbell `n` frees no word that was not written. -/
def outRdOk (b : Mbox) (n : Nat) : Prop := posted 1024 n b.outRd ≤ posted 1024 b.outWr b.outRd

theorem exec_hubMbInWrWrite_eq {s : State} {m : Nat} {v : Word} {b : Mbox} (hm : m < 8) (hb : s.mbox[m]? = some b) :
    (inWrOk b (v.toNat % 2048) →
      ∃ t, exec (.hubMbInWrWrite m v) s = .next { s with mbox := s.mbox.set m { b with inWr := v.toNat % 2048, headAt := t } })
    ∧ (¬inWrOk b (v.toNat % 2048) →
      exec (.hubMbInWrWrite m v) s = .next { s with mbox := s.mbox.set m { b with wrErr := true } }) := by
  have he : exec (.hubMbInWrWrite m v) s = .next (if m < 8 then writeInWr m v s else s) := rfl
  rw [he, if_pos hm, writeInWr, mboxAt_eq hb, fld_low, updMbox_eq hb, updMbox_eq hb, ← Bool.decide_and]
  exact ⟨fun ⟨hfit, hmore⟩ => ⟨_, congrArg _ (if_pos (decide_eq_true ⟨hfit, hmore⟩))⟩,
    fun h => congrArg _ (if_neg (by simpa [inWrOk] using h))⟩

theorem exec_hubMbOutRdWrite_eq {s : State} {m : Nat} {v : Word} {b : Mbox} (hm : m < 8) (hb : s.mbox[m]? = some b) :
    (outRdOk b (v.toNat % 2048) →
      exec (.hubMbOutRdWrite m v) s = .next { s with mbox := s.mbox.set m { b with outRd := v.toNat % 2048 } })
    ∧ (¬outRdOk b (v.toNat % 2048) →
      exec (.hubMbOutRdWrite m v) s = .next { s with mbox := s.mbox.set m { b with rdErr := true } }) := by
  have he : exec (.hubMbOutRdWrite m v) s = .next (if m < 8 then writeOutRd m v s else s) := rfl
  rw [he, if_pos hm, writeOutRd, mboxAt_eq hb, fld_low, updMbox_eq hb, updMbox_eq hb]
  exact ⟨fun h => congrArg _ (if_pos h), fun h => congrArg _ (if_neg h)⟩

/-! ### Event rings (R112) -/

/-- The read index `n` is an index of the ring and passes no record that was not written. -/
def evRdOk (r : EvRing) (n : Nat) : Prop :=
  n < 2 * r.size ∧ (n + 2 * r.size - r.rd) % (2 * r.size) ≤ (r.wr + 2 * r.size - r.rd) % (2 * r.size)

theorem exec_hubEvRdWrite_eq {s : State} {e : Nat} {v : Word} {r : EvRing} (hr : s.rings[e]? = some r) :
    (evRdOk r (v.toNat % 32768) →
      exec (.hubEvRdWrite e v) s = .next { s with rings := s.rings.set e { r with rd := v.toNat % 32768 } })
    ∧ (¬evRdOk r (v.toNat % 32768) →
      exec (.hubEvRdWrite e v) s = .next { s with rings := s.rings.set e { r with rdErr := true } }) := by
  have he : exec (.hubEvRdWrite e v) s = .next (writeEvRd e v s) := rfl
  rw [he, writeEvRd, hr, fld_low]
  dsimp only
  rw [← Bool.decide_and]
  exact ⟨fun ⟨hlt, hle⟩ => by rw [if_pos (decide_eq_true ⟨hlt, hle⟩)]; rfl, fun h => by rw [if_neg (by simpa [evRdOk] using h)]⟩

end Sys2Proof.Machine

open Sys2Proof Sys2Proof.Machine

/-- Settles O15: each index is accepted under its rule (`inWrOk`, `outRdOk`, `evRdOk`) and marked otherwise. -/
theorem mailboxDoorbells : Obligations.MailboxDoorbells := by
  unfold Obligations.MailboxDoorbells
  refine fun s v => ⟨?_, ?_⟩
  · rintro m b hm hb _ rfl
    obtain ⟨hwr, hwrErr⟩ := exec_hubMbInWrWrite_eq (v := v) hm hb
    obtain ⟨hrd, hrdErr⟩ := exec_hubMbOutRdWrite_eq (v := v) hm hb
    exact ⟨hwr, hwrErr, hrd, hrdErr⟩
  · rintro e r _ _ hr rfl rfl
    exact exec_hubEvRdWrite_eq hr

end

section
/-! SUPPORT. A request that is not posted whole in time, the hub's own answers, and a response written or held (O17). -/

namespace Sys2Proof.Machine

/-! ### REQUEST_TIMEOUT (R47) -/

theorem exec_requestTimeout_due {s : State} {m : Nat} (hm : m < 11) (hn : isNmb m = false) (hp : 4 ≤ inPosted s m)
    (hr : frontReady s m = false) (hw : waiting s m = false) (ht : (s.mboxAt m).headAt + frames 3000 ≤ s.clk.tally) :
    exec (.requestTimeout m) s = .next (rejectLength m (inPosted s m) (inPosted s m) (inFront s m 4) s) := by
  have he : exec (.requestTimeout m) s = execRequestTimeout m s := rfl
  have hlate : (11 ≤ m || isNmb m || inPosted s m = 0 || frontReady s m || waiting s m
      || s.clk.tally < (s.mboxAt m).headAt + frames 3000) = false := by
    simp only [hn, hr, hw, Bool.or_false, Bool.or_eq_false_iff, decide_eq_false_iff_not]
    omega
  rw [he, execRequestTimeout]
  dsimp only
  rw [hlate, if_neg Bool.false_ne_true, if_neg (by omega : ¬inPosted s m < 4)]

/-- A request ended with LENGTH, its DETAIL the number of words posted. -/
theorem rejectLength_posted (m : Nat) (h : List Word) (s z : State) :
    rejectLength m (inPosted s m) (inPosted s m) h z = waits m (headerOnly h 1 (inPosted s m))
      ((consume m (inPosted s m) z).updMbox m fun b => { b with lenErrs := min (b.lenErrs + 1) 0xFFFF }) := by
  have hlow : low16 (inPosted s m) = inPosted s m := Nat.mod_eq_of_lt (inPosted_lt m)
  rw [rejectLength, hlow]
  rfl

/-! ### HUB_BUSY_ANSWER (R62) -/

theorem exec_hubBusyAnswer_complete {s : State} {m : Nat} (hm : m < 11) (hn : isNmb m = false) (hs : s.serving = false)
    (hw : waiting s m = false) (hlo : 4 ≤ frontLen s m) (hhi : frontLen s m ≤ 1023) (hp : frontLen s m ≤ inPosted s m) :
    exec (.hubBusyAnswer m) s = exec (.responseWrite m)
      (waits m (headerOnly (inFront s m 4) 0x13 0) (consume m (frontLen s m) s)) := by
  have he : exec (.hubBusyAnswer m) s = execHubBusyAnswer m s := rfl
  have hbusy : (s.serving || 11 ≤ m || waiting s m) = false := by
    simp only [hs, hw, Bool.or_false, Bool.false_or, decide_eq_false_iff_not]
    omega
  have hlen : (badLen (frontLen s m) || inPosted s m < frontLen s m) = false := by
    simp only [badLen, Bool.or_eq_false_iff, decide_eq_false_iff_not]
    omega
  rw [he, execHubBusyAnswer]
  dsimp only
  rw [hbusy, if_neg Bool.false_ne_true, hn, if_neg Bool.false_ne_true, hlen, if_neg Bool.false_ne_true]
  rfl

/-! ### RESPONSE_WRITE (R40, R41) -/

/-- Only the response to an admission is fixed as it is written. -/
theorem fixAdmission_other {s : State} {m : Nat} {p : Resp} (hp : findKey m s.svc.out = some p) (ha : p.after ≠ .adm) :
    fixAdmission m s = s := by
  simp only [fixAdmission, hp, if_neg ha]

theorem exec_responseWrite_held {s : State} {m : Nat} {p : Resp} (hp : findKey m s.svc.out = some p) (ha : p.after ≠ .adm)
    (hfull : 1024 < posted 1024 (s.mboxAt m).outWr (s.mboxAt m).outRd + p.words.length) :
    exec (.responseWrite m) s = .next (s.updMbox m fun b => { b with held := true }) := by
  have he : exec (.responseWrite m) s = .next (writeResp m s) := rfl
  simp only [he, writeResp, fixAdmission_other hp ha, hp, if_pos hfull]

/-- The mailbox once the words of a response stand behind its write index. -/
def withResponse (next : Nat) (ws : List Word) (b : Mbox) : Mbox :=
  { b with outRing := ringPut 1024 b.outRing b.outWr ws, outWr := next, held := false }

theorem exec_responseWrite_fits {s : State} {m : Nat} {p : Resp} (hm : m < 8) (hp : findKey m s.svc.out = some p) (ha : p.after = .none)
    (hfit : posted 1024 (s.mboxAt m).outWr (s.mboxAt m).outRd + p.words.length ≤ 1024) :
    exec (.responseWrite m) s = .next (traceLine m 1 p.words (raiseVecIf (s.mboxAt m).irqEn m
      { s with
        mbox := s.mbox.modify m (withResponse (((s.mboxAt m).outWr + p.words.length) % 2048) p.words),
        svc := { s.svc with out := unpark m s.svc.out } })) := by
  have he : exec (.responseWrite m) s = .next (writeResp m s) := rfl
  have hnmb : isNmb m = false := by
    simp only [isNmb, Bool.or_eq_false_iff, beq_eq_false_iff_ne]
    omega
  have hmmb : m ≠ 10 := by omega
  rw [he, writeResp, fixAdmission_other hp (by simp [ha]), hp]
  dsimp only
  rw [if_neg (by omega), hnmb, if_neg Bool.false_ne_true, decide_eq_false hmmb, Bool.false_and, if_neg Bool.false_ne_true, ha,
    decide_eq_true hm, Bool.true_and]
  simp only [if_pos hm]
  rfl

end Sys2Proof.Machine

open Sys2Proof Sys2Proof.Machine

/-- Settles O17: the timeout, the hub's answer, and the response that fits its ring or is held. -/
theorem responsesWritten : Obligations.ResponsesWritten := by
  unfold Obligations.ResponsesWritten
  refine fun s m hm => ⟨?_, ?_, ?_⟩
  · rintro _ hn rfl hp hr hw ht
    rw [exec_requestTimeout_due hm hn hp hr hw (by rw [frames_eq]; exact ht), rejectLength_posted]
  · rintro _ hn hs hw rfl hlo hhi hp
    exact exec_hubBusyAnswer_complete hm hn hs hw hlo hhi hp
  · rintro p _ _ rfl hp ha rfl
    exact ⟨exec_responseWrite_held hp ha, fun hfit h8 hnone => exec_responseWrite_fits h8 hp hnone hfit⟩

end

section
/-! SUPPORT. What becomes of a datagram for an enabled network mailbox (O18). -/

namespace Sys2Proof.Machine

/-- The sender of a datagram, and whether another sender's request is the same one (R57, R58). -/
def senderOf (d : Datagram) : NetKey := ⟨d.srcAddr, d.srcPort, d.words.getD 1 0, d.mac⟩
def sameRequest (d : Datagram) (k : NetKey) : Bool := k.addr == d.srcAddr && k.port == d.srcPort && k.seq == d.words.getD 1 0#32

/-- The words of a datagram that a network mailbox takes. -/
def takenWords (d : Datagram) : List Word := (List.range (min 368 (d.length / 4))).map fun k => d.words.getD k 0

/-- The mailbox with the words of a datagram on its inbound ring, its front posted at `t`. -/
def withDatagram (d : Datagram) (t : Nat) (m : Mbox) : Mbox :=
  { m with inRing := ringPut 1024 m.inRing m.inWr (takenWords d), inWr := (m.inWr + (takenWords d).length) % 2048, headAt := t }

/-- A datagram joins the inbound ring of network mailbox `i`. -/
def joinInbound (d : Datagram) (i : Nat) (s : State) : State :=
  { s with
    mbox := s.mbox.modify (8 + i) fun m =>
      withDatagram d (if posted 1024 (s.mboxAt (8 + i)).inWr (s.mboxAt (8 + i)).inRd == 0 then s.clk.tally else m.headAt) m,
    nmbs := s.nmbs.modify i fun b => { b with queued := b.queued ++ [(senderOf d, d.length)] } }

theorem exec_nmbDatagram_for {s : State} {d : Datagram} {i : Nat} (hup : macUp s d.mac = true) (hi : nmbFor s d = some i) :
    exec (.nmbDatagram d) s = .next (nmbReceive d i s) := by
  have he : exec (.nmbDatagram d) s = execNmbDatagram d s := rfl
  rw [he, execNmbDatagram, hup, hi]
  rfl

section
variable {s : State} {d : Datagram} {i : Nat} {b : Nmb} (hb : s.nmbs[i]? = some b)
include hb

theorem nmbReceive_malformed (h : d.fragmented = true ∨ d.length < 16) : nmbReceive d i s = macCount d.mac 27 1 s := by
  have hbad : (d.fragmented || decide (d.length < 16)) = true := by simpa using h
  unfold nmbReceive
  rw [hb]
  exact if_pos hbad

variable (hf : d.fragmented = false) (hl : 16 ≤ d.length)
include hf hl

/-- A datagram that is whole and long enough: its request is in progress, is answered, or is new and joins the ring or finds no room. -/
theorem nmbReceive_whole : nmbReceive d i s =
    if b.taken.any (sameRequest d) then macCount d.mac 27 1 s
    else (b.stored.find? fun e => sameRequest d e.1).elim
      (if 1024 < posted 1024 (s.mboxAt (8 + i)).inWr (s.mboxAt (8 + i)).inRd + (takenWords d).length then macCount d.mac 27 1 s
      else joinInbound d i s)
      fun e => sendDatagram (8 + i) (senderOf d) e.2 s := by
  have hgood : (d.fragmented || decide (d.length < 16)) = false := by
    simp only [hf, Bool.false_or, decide_eq_false_iff_not]
    omega
  unfold nmbReceive
  rw [hb]
  dsimp only
  rw [hgood, if_neg Bool.false_ne_true]
  refine if_congr Iff.rfl rfl ?_
  cases hfind : b.stored.find? fun e => sameRequest d e.1 with
  | some e =>
    unfold sameRequest at hfind
    rw [hfind]
    rfl
  | none =>
    unfold sameRequest at hfind
    rw [hfind]
    exact if_congr Iff.rfl rfl rfl

theorem nmbReceive_inProgress (ht : b.taken.any (sameRequest d) = true) : nmbReceive d i s = macCount d.mac 27 1 s := by
  rw [nmbReceive_whole hb hf hl, if_pos ht]

variable (ht : b.taken.any (sameRequest d) = false)
include ht

theorem nmbReceive_answered {e : NetKey × List Word} (he : (b.stored.find? fun e => sameRequest d e.1) = some e) :
    nmbReceive d i s = sendDatagram (8 + i) (senderOf d) e.2 s := by
  rw [nmbReceive_whole hb hf hl, ht, if_neg Bool.false_ne_true, he, Option.elim_some]

theorem nmbReceive_new {r : Mbox} (hr : s.mbox[8 + i]? = some r) (hnew : (b.stored.find? fun e => sameRequest d e.1) = none)
    (hroom : posted 1024 r.inWr r.inRd + (takenWords d).length ≤ 1024) :
    ∃ t, nmbReceive d i s = { s with
      mbox := s.mbox.set (8 + i) (withDatagram d t r),
      nmbs := s.nmbs.set i { b with queued := b.queued ++ [(senderOf d, d.length)] } } := by
  rw [nmbReceive_whole hb hf hl, ht, if_neg Bool.false_ne_true, hnew, Option.elim_none, mboxAt_eq hr, if_neg (by omega), joinInbound,
    modify_set _ _ _ _ hr, modify_set _ _ _ _ hb]
  exact ⟨_, rfl⟩

end

end Sys2Proof.Machine

open Sys2Proof Sys2Proof.Machine

/-- Settles O18: a datagram that is malformed, repeats a request in progress, repeats an answered one, or is new. -/
theorem networkMailbox : Obligations.NetworkMailbox := by
  unfold Obligations.NetworkMailbox
  rintro s d i b _ _ hup hi hb rfl rfl
  rw [exec_nmbDatagram_for hup hi]
  refine ⟨fun h => congrArg _ (nmbReceive_malformed hb h), fun hf hl => ⟨fun ⟨k, hk, hsame⟩ => ?_, fun hother => ?_⟩⟩
  · exact congrArg _ (nmbReceive_inProgress hb hf hl (by rw [hk]; exact hsame))
  · have ht : b.taken.any (sameRequest d) = false := by
      cases hk : b.taken with
      | none => rfl
      | some k => exact hother k hk
    refine ⟨fun e he => congrArg _ (nmbReceive_answered hb hf hl ht he), ?_⟩
    rintro hnew _ r rfl hr hroom
    have hfresh : (b.stored.find? fun e => sameRequest d e.1) = none :=
      List.find?_eq_none.mpr fun e he => Bool.not_eq_true _ ▸ hnew e he
    obtain ⟨t, h⟩ := nmbReceive_new hb hf hl ht hr hfresh hroom
    exact ⟨t, congrArg _ h⟩

end

section
/-! SUPPORT. What PING, LOOKUP, RELEASE, QUERY and READ do in their own chapter (O19). -/

namespace Sys2Proof.Machine

/-- A request without key and seal and without a boundary, that its opcode answers with OK. -/
theorem serve_open_ok (o : Op) {r : Request} {s u : State} {items : List Item} {h : Option Word} {a : After} (he : Executes s r)
    (hc : r.commitAt = 0) (ho : keyGated o = false) (hr : runOp o true r s = (u, ⟨0, 0, h, items, a⟩)) (hf : Fits r items) :
    serve o true r s = answeredOk s u r (codeOfOp o) (h.getD r.handle) items a :=
  serve_ok he (fun hg => absurd (ho.symm.trans hg) Bool.false_ne_true) (.inl hc) hr hf

/-! ### PING (R50) -/

theorem opPing_pad {r : Request} (h : ∀ i ∈ r.items, i.tag = 0) (s : State) :
    opPing r s = (s, .ok [{ tag := 1, vals := [wd s.clk.tally, wd (s.clk.tally / 2 ^ 32)] }]) := by
  rw [opPing, anyItem_pad h]
  rfl

theorem fits_pair (r : Request) (a b : Word) : Fits r [{ tag := 1, vals := [a, b] }] := by
  intro _
  unfold carried
  split <;> simp [replyWords, itemWords, Item.words]

/-! ### LOOKUP (R68, R69) -/

/-- A state that differs in handles and generations only. -/
def HandlesOnly (s u : State) : Prop := u = { s with fw := { s.fw with handles := u.fw.handles, gens := u.fw.gens } }

/-- The handle of a node that is looked up for the first time, and a handle with one more pin. -/
def firstHandle (mb : Nat) (ref : Ref) (s : State) : HandleRec :=
  { ref := ref, num := freshNumber s, gen := freshGen s (freshNumber s), live := true, pins := [mb] }
def pinned (mb : Nat) (h : HandleRec) : HandleRec := { h with pins := if h.pins.contains mb then h.pins else mb :: h.pins }

theorem mem_pinned (mb : Nat) (h : HandleRec) : mb ∈ (pinned mb h).pins := by
  unfold pinned
  dsimp only
  split
  next hc => exact List.contains_iff_mem.mp hc
  next => exact List.mem_cons_self

theorem pinRef_first {mb : Nat} {ref : Ref} {s : State} (hx : handleRec s ref = none) :
    pinRef mb ref s = ({ s with fw := { s.fw with
      handles := firstHandle mb ref s :: s.fw.handles, gens := dropKey (freshNumber s) s.fw.gens } }, (firstHandle mb ref s).word) := by
  rw [pinRef, hx]
  rfl

theorem pinRef_again {mb : Nat} {ref : Ref} {s : State} {h : HandleRec} (hx : handleRec s ref = some h) :
    pinRef mb ref s = ({ s with fw := { s.fw with
      handles := s.fw.handles.map fun x => if x.num == h.num then pinned mb h else x } }, (pinned mb h).word) := by
  rw [pinRef, hx]
  rfl

/-- Looking up pins the node for the mailbox: its live handle as it is, or a new one beside the others. -/
theorem pinRef_pins (mb : Nat) (ref : Ref) (s : State) :
    ∃ h u, pinRef mb ref s = (u, h.word) ∧ HandlesOnly s u ∧ h ∈ u.fw.handles ∧ h.live = true ∧ mb ∈ h.pins
      ∧ (∀ x, handleRec s ref = some x → h.word = x.word)
      ∧ (handleRec s ref = none → h.ref = ref ∧ ∀ x ∈ s.fw.handles, x ∈ u.fw.handles) := by
  cases hx : handleRec s ref with
  | none =>
    refine ⟨firstHandle mb ref s, _, pinRef_first hx, rfl, List.mem_cons_self, rfl, List.mem_singleton.mpr rfl, ?_,
      fun _ => ⟨rfl, fun _ h => List.mem_cons_of_mem _ h⟩⟩
    rintro _ ⟨⟩
  | some x =>
    have hmem : x ∈ s.fw.handles := List.mem_of_find?_eq_some hx
    have hlive : x.live = true := by
      have h := List.find?_some hx
      simp only [Bool.and_eq_true] at h
      exact h.1
    refine ⟨pinned mb x, _, pinRef_again hx, rfl, List.mem_map.mpr ⟨x, hmem, if_pos (beq_self_eq_true _)⟩, hlive, mem_pinned mb x, ?_,
      fun h => nomatch h⟩
    rintro _ ⟨⟩
    rfl

theorem itemsBad_text (ws : List Word) : itemsBad [{ tag := 1, vals := ws }] [(1, fun _ => true)] (realItems [{ tag := 1, vals := ws }]) = none := rfl

theorem opLookup_found {r : Request} {s : State} {ws : List Word} {txt : Name} {ref : Ref} (hh : r.handle = 0)
    (hi : r.items = [{ tag := 1, vals := ws }]) (ht : textOf ws = some txt) (hp : findPath s [] txt = .ok ref) :
    opLookup r s = ((pinRef r.mb ref s).1, ⟨0, 0, some (pinRef r.mb ref s).2, [], .none⟩) := by
  have hreal : realItems [{ tag := 1, vals := ws }] = [(0, { tag := 1, vals := ws })] := rfl
  rw [opLookup, hi, itemsBad_text, hreal]
  simp only [List.head?_cons, ht, hh]
  rw [if_pos (by rfl)]
  simp only [hp]
  rfl

/-! ### RELEASE (R70, R71) -/

/-- The handles once a mailbox's pin is taken from those of one number and generation. -/
def releasedHandles (mb : Nat) (h : HandleRec) (l : List HandleRec) : List HandleRec :=
  l.map fun x => if x.num == h.num && x.gen == h.gen then { x with pins := x.pins.filter (· != mb) } else x

theorem unpin_pinned {mb : Nat} {w : Word} {s : State} {h : HandleRec}
    (hh : (s.fw.handles.find? fun x => x.word == w && x.pins.contains mb) = some h) :
    unpin mb w s = some (freeNumbers { s with fw := { s.fw with handles := releasedHandles mb h s.fw.handles } }) := by
  rw [unpin, hh]
  rfl

/-- Freeing numbers forgets the handles that are neither live nor pinned. -/
theorem mem_freeNumbers {s : State} {x : HandleRec} :
    x ∈ (freeNumbers s).fw.handles ↔ x ∈ s.fw.handles ∧ (x.live = true ∨ x.pins ≠ []) := by
  simp [freeNumbers]

/-- Releasing takes the mailbox's pin from the handles of that number and generation, and frees no other that is live or pinned. -/
theorem unpin_releases {mb : Nat} {w : Word} {s : State} {h : HandleRec}
    (hh : (s.fw.handles.find? fun x => x.word == w && x.pins.contains mb) = some h) :
    ∃ u, unpin mb w s = some u ∧ HandlesOnly s u ∧ (∀ x ∈ u.fw.handles, x.num = h.num → x.gen = h.gen → mb ∉ x.pins)
      ∧ ∀ x ∈ s.fw.handles, (x.num ≠ h.num ∨ x.gen ≠ h.gen) → (x.live = true ∨ x.pins ≠ []) → x ∈ u.fw.handles := by
  refine ⟨_, unpin_pinned hh, rfl, fun x hx hnum hgen => ?_, fun x hx hother hheld => ?_⟩
  · obtain ⟨y, -, rfl⟩ := List.mem_map.mp (mem_freeNumbers.mp hx).1
    by_cases hy : (y.num == h.num && y.gen == h.gen) = true
    · simp [hy]
    · rw [if_neg hy] at hnum hgen
      exact absurd (by simp [hnum, hgen]) hy
  · refine mem_freeNumbers.mpr ⟨List.mem_map.mpr ⟨x, hx, if_neg ?_⟩, hheld⟩
    simp only [Bool.and_eq_true, beq_iff_eq, not_and]
    exact fun hnum hgen => hother.elim (absurd hnum) (absurd hgen)

theorem opRelease_pad {r : Request} {s u : State} (hi : ∀ i ∈ r.items, i.tag = 0) (hu : unpin r.mb r.handle s = some u) :
    opRelease r s = (u, .ok []) := by
  rw [opRelease, anyItem_pad hi, hu]

/-! ### QUERY and READ (R74, R76) -/

theorem opQuery_pad {r : Request} {s : State} {ref : Ref} (hr : refOfHandle s r.handle = some ref) (hi : ∀ i ∈ r.items, i.tag = 0) :
    opQuery r s = (s, .ok (queryItems s ref)) := by
  rw [opQuery, hr, anyItem_pad hi]

/-- READ without items gives the committed value of a parameter node. -/
theorem opRead_tag {r : Request} {s : State} {ref : Ref} {t : Nat} (hr : refOfHandle s r.handle = some ref) (ht : ref.tag = some t)
    (hi : r.items = []) : opRead r s = (s, .ok [{ tag := 2, vals := valueAt s ref.node t }]) := by
  rw [opRead, hr, hi]
  simp only [ht]
  rfl

/-- READ without items gives every parameter of a node, as long as a response holds them. -/
theorem opRead_node {r : Request} {s : State} {ref : Ref} {l : List Item} (hr : refOfHandle s r.handle = some ref) (ht : ref.tag = none)
    (hi : r.items = []) (hl : l = (nodeTags s ref.node).map fun t => { tag := t, vals := valueAt s ref.node t })
    (hsum : sumNat (l.map fun i => 1 + i.vals.length) ≤ 1019) : opRead r s = (s, .ok l) := by
  have hcut : (if isNmb r.mb then l else cutItems 1019 l) = l := by rw [cutItems_all 1019 l hsum, ite_self]
  have hbad : readBad s ref (realItems []) = none := rfl
  rw [opRead, hr, hi]
  simp only [ht, hbad, List.any_nil, List.filter_nil, List.isEmpty_nil, Bool.true_or, List.filter_true, Bool.false_eq_true, if_false]
  rw [← hl, hcut]

end Sys2Proof.Machine

open Sys2Proof Sys2Proof.Machine

/-- Settles O19: each opcode answers OK (`serve_open_ok`) with what its own chapter gives. -/
theorem requestTree : Obligations.RequestTree := by
  unfold Obligations.RequestTree
  refine fun s r he hc => ⟨fun hi => ?_, fun ws txt ref hh hi ht hp => ?_, fun h hi hh => ?_, fun ref hr => ⟨fun hi hf => ?_, ?_, ?_⟩⟩
  · exact congrArg _ (serve_open_ok .ping he hc rfl (opPing_pad hi s) (fits_pair r _ _))
  · obtain ⟨h, u, hpin, hu, hmem, hlive, hpins, hold, hnew⟩ := pinRef_pins r.mb ref s
    have hrun := opLookup_found hh hi ht hp
    rw [hpin] at hrun
    exact ⟨h, u, congrArg _ (serve_open_ok .lookup he hc rfl hrun (fits_nil r)), hu, hmem, hlive, hpins, hold, hnew⟩
  · obtain ⟨u, hunpin, hu, hgone, hkept⟩ := unpin_releases hh
    exact ⟨u, congrArg _ (serve_open_ok .release he hc rfl (opRelease_pad hi hunpin) (fits_nil r)), hu, hgone, hkept⟩
  · exact congrArg _ (serve_open_ok .query he hc rfl (opQuery_pad hr hi) hf)
  · exact fun t ht hi hf => congrArg _ (serve_open_ok .read he hc rfl (opRead_tag hr ht hi) hf)
  · exact fun l ht hi hl hsum hf => congrArg _ (serve_open_ok .read he hc rfl (opRead_node hr ht hi hl hsum) hf)

end

section
/-! SUPPORT. Requests that are turned away before their own chapter runs (O24). -/

namespace Sys2Proof.Machine

/-- A command serves the request `r` as the opcode `o`, whose code stands beside it. -/
def ServesAs (r : Request) (e : Instr × Nat) (o : Op) : Prop := (∀ s, exec e.1 s = .next (serve o true r s)) ∧ codeOfOp o = e.2

/-! ### Which opcodes the commands serve (R49) -/

/-- The commands that need key and seal (R48). -/
theorem servesAs_keyed (r : Request) :
    ∀ e ∈ [(Instr.fwBegin r, 0x0100), (.fwData r, 0x0101), (.fwEnd r, 0x0102), (.ledgerClear r, 0x0110), (.nmbConfig r true, 0x0120)],
      ∃ o, ServesAs r e o ∧ keyGated o = true := by
  intro e he
  simp only [List.mem_cons, List.not_mem_nil, or_false] at he
  rcases he with rfl | rfl | rfl | rfl | rfl
  exacts [⟨.fwBegin, ⟨fun _ => rfl, rfl⟩, rfl⟩, ⟨.fwData, ⟨fun _ => rfl, rfl⟩, rfl⟩, ⟨.fwEnd, ⟨fun _ => rfl, rfl⟩, rfl⟩,
    ⟨.ledgerClear, ⟨fun _ => rfl, rfl⟩, rfl⟩, ⟨.nmbConfig, ⟨fun _ => rfl, rfl⟩, rfl⟩]

/-- The commands that take no boundary (R51). -/
theorem servesAs_untimed (r : Request) :
    ∀ e ∈ [(Instr.ping r, 0x0001), (.lookup r, 0x0002), (.release r, 0x0003), (.query r, 0x0010), (.read r, 0x0011), (.stage r, 0x0020),
        (.discard r, 0x0022), (.admitConfig r, 0x0030), (.sceneStore r, 0x0040), (.filterLoad r, 0x0050), (.eventRingSet r, 0x0060),
        (.ledgerRead r, 0x0070)],
      ∃ o, ServesAs r e o ∧ keyGated o = false ∧ takesBoundary o = false := by
  intro e he
  simp only [List.mem_cons, List.not_mem_nil, or_false] at he
  rcases he with rfl | rfl | rfl | rfl | rfl | rfl | rfl | rfl | rfl | rfl | rfl | rfl
  exacts [⟨.ping, ⟨fun _ => rfl, rfl⟩, rfl, rfl⟩, ⟨.lookup, ⟨fun _ => rfl, rfl⟩, rfl, rfl⟩, ⟨.release, ⟨fun _ => rfl, rfl⟩, rfl, rfl⟩,
    ⟨.query, ⟨fun _ => rfl, rfl⟩, rfl, rfl⟩, ⟨.read, ⟨fun _ => rfl, rfl⟩, rfl, rfl⟩, ⟨.stage, ⟨fun _ => rfl, rfl⟩, rfl, rfl⟩,
    ⟨.discard, ⟨fun _ => rfl, rfl⟩, rfl, rfl⟩, ⟨.admitConfig, ⟨fun _ => rfl, rfl⟩, rfl, rfl⟩, ⟨.sceneStore, ⟨fun _ => rfl, rfl⟩, rfl, rfl⟩,
    ⟨.filterLoad, ⟨fun _ => rfl, rfl⟩, rfl, rfl⟩, ⟨.eventRingSet, ⟨fun _ => rfl, rfl⟩, rfl, rfl⟩, ⟨.ledgerRead, ⟨fun _ => rfl, rfl⟩, rfl, rfl⟩]

/-- The commands that take a boundary (R51). -/
theorem servesAs_timed (r : Request) :
    ∀ e ∈ [(Instr.commit r, 0x0021), (.sceneRecall r, 0x0041)], ∃ o, ServesAs r e o ∧ keyGated o = false := by
  intro e he
  simp only [List.mem_cons, List.not_mem_nil, or_false] at he
  rcases he with rfl | rfl
  exacts [⟨.commit, ⟨fun _ => rfl, rfl⟩, rfl⟩, ⟨.sceneRecall, ⟨fun _ => rfl, rfl⟩, rfl⟩]

/-- Four commands of every kind serve as some opcode. -/
theorem servesAs_some (r : Request) : ∀ c ∈ [Instr.ping r, .stage r, .commit r, .fwBegin r], ∃ n o, ServesAs r (c, n) o := by
  intro c hc
  simp only [List.mem_cons, List.not_mem_nil, or_false] at hc
  rcases hc with rfl | rfl | rfl | rfl
  exacts [⟨_, .ping, fun _ => rfl, rfl⟩, ⟨_, .stage, fun _ => rfl, rfl⟩, ⟨_, .commit, fun _ => rfl, rfl⟩, ⟨_, .fwBegin, fun _ => rfl, rfl⟩]

/-! ### The gates (R48, R51, R62, R544) -/

section
variable {s : State} {r : Request} {e : Instr × Nat} {o : Op}

theorem exec_notServing (hm : r.mb < 11) (hfree : ∀ e ∈ s.svc.out, e.1 ≠ r.mb) (hs : s.serving = false) (ho : ServesAs r e o) :
    exec e.1 s = .next { s with svc := { s.svc with
      out := s.svc.out ++ [(r.mb, { opcode := e.2, quiet := r.quiet, seq := r.seq, handle := r.handle, detail := 0, status := 0x13,
                                    items := [], after := .none })] } } := by
  obtain ⟨hexec, hcode⟩ := ho
  rw [hexec, busy_eq hm hfree hs, hcode]

theorem exec_unauthorised (he : Executes s r) (ho : ServesAs r e o) (hk : keyGated o = true) :
    (isNmb r.mb = true → exec e.1 s = .next (answeredFail s r e.2 5 r.mb))
    ∧ (isNmb r.mb = false → s.maint.key = false → exec e.1 s = .next (answeredFail (raiseRefused r.mb 1 s) r e.2 6 0))
    ∧ (isNmb r.mb = false → s.maint.key = true → s.maint.loop = false →
      exec e.1 s = .next (answeredFail (raiseRefused r.mb 2 s) r e.2 7 0)) := by
  obtain ⟨hexec, hcode⟩ := ho
  obtain ⟨hnet, hkey, hseal⟩ := gate_auth (f := true) he hk
  rw [hexec, ← hcode]
  exact ⟨fun h => congrArg _ (hnet h), fun h h1 => congrArg _ (hkey h h1), fun h h1 h2 => congrArg _ (hseal h h1 h2)⟩

theorem exec_badTime (he : Executes s r) (ho : ServesAs r e o) (hk : keyGated o = false) (hc : r.commitAt ≠ 0)
    (ht : takesBoundary o = false ∨ r.commitAt.toNat % 8192 ≠ 0) : exec e.1 s = .next (answeredFail s r e.2 8 0) := by
  obtain ⟨hexec, hcode⟩ := ho
  have htime : (takesBoundary o && boundaryWord r.commitAt) = false := by
    rcases ht with hnone | hoff
    · rw [hnone, Bool.false_and]
    · rw [boundaryWord, beq_false_of_ne hoff, Bool.and_false]
  rw [hexec, gate_time he hk hc htime, hcode]

end

end Sys2Proof.Machine

open Sys2Proof Sys2Proof.Machine

/-- Settles O24: each command serves its opcode (`ServesAs`), and the gate before the opcode's own chapter answers. -/
theorem requestGates : Obligations.RequestGates := by
  unfold Obligations.RequestGates
  intro s r hm hfree
  refine ⟨fun hs c hc => ?_, fun hs e he => ?_, fun hs hcommit => ⟨fun e he => ?_, fun hb e he => ?_⟩⟩
  · obtain ⟨n, o, ho⟩ := servesAs_some r c hc
    exact ⟨n, exec_notServing hm hfree hs ho⟩
  · obtain ⟨o, ho, hk⟩ := servesAs_keyed r e he
    exact exec_unauthorised ⟨hm, hfree, hs⟩ ho hk
  · obtain ⟨o, ho, hk, ht⟩ := servesAs_untimed r e he
    exact exec_badTime ⟨hm, hfree, hs⟩ ho hk hcommit (.inl ht)
  · obtain ⟨o, ho, hk⟩ := servesAs_timed r e he
    exact exec_badTime ⟨hm, hfree, hs⟩ ho hk hcommit (.inr hb)

end

section
/-! SUPPORT. What the block holds right after reset (O2). -/

namespace Sys2Proof.Machine

theorem reset_inv : State.reset.Inv where
  shape := ⟨rfl, rfl, rfl, rfl, rfl⟩
  cadence := ⟨rfl, rfl⟩
  queued := fun _ h => nomatch h

/-- The memories of a state that stand beside each other: tables, rings, the DRAM's vaults and the SRAM of the spokes. -/
def memoriesOf (s : State) : List Mem :=
  s.regs.msixTable :: s.regs.hubSram :: s.dram.normal :: s.bell.store :: (s.regs.tsram ++ s.dram.vaults
    ++ s.mbox.map Mbox.inRing ++ s.mbox.map Mbox.outRing ++ s.rings.map EvRing.words ++ s.spokes.map (fun p => p.core.sram))

/-- Every memory but the MSI-X table is empty at reset. -/
theorem memoriesOf_reset : memoriesOf State.reset = msixReset :: List.replicate 77 [] := rfl

theorem memoriesOf_reset_wf : ∀ m ∈ memoriesOf State.reset, m.wf = true := by
  rw [memoriesOf_reset]
  intro m hm
  rcases List.mem_cons.mp hm with rfl | hm
  · decide
  · rw [List.eq_of_mem_replicate hm]
    rfl

/-- An entry of a table that is filled index by index. -/
theorem getElem?_map_range {α : Type} {f : Nat → α} {n k : Nat} {x : α} (h : ((List.range n).map f)[k]? = some x) : x = f k := by
  simp only [List.getElem?_map, Option.map_eq_some_iff] at h
  obtain ⟨j, hj, rfl⟩ := h
  obtain ⟨_, rfl⟩ := List.getElem?_eq_some_iff.mp hj
  rw [List.getElem_range]

end Sys2Proof.Machine

open Sys2Proof Sys2Proof.Machine

/-- Settles O2: every part of the state stands at the value its own reset gives it. -/
theorem resetState : Obligations.ResetState := by
  unfold Obligations.ResetState
  rintro s rfl
  refine ⟨reset_inv, memoriesOf_reset_wf, fun b hb => ?_, fun e r hr => ?_, rfl, rfl, rfl, rfl, rfl, rfl, rfl, rfl, rfl, rfl,
    fun k p hp => ?_, fun p hp => ?_⟩
  · rw [List.eq_of_mem_replicate hb]
    exact ⟨rfl, rfl, rfl, rfl, rfl⟩
  · rw [getElem?_map_range hr]
    exact ⟨rfl, rfl, rfl, rfl, rfl, rfl, rfl, rfl, rfl⟩
  · rw [getElem?_map_range hp]
    rfl
  · obtain ⟨n, -, rfl⟩ := List.mem_map.mp hp
    exact ⟨rfl, rfl, rfl, rfl, rfl, rfl, rfl, rfl⟩

end

section
/-! SUPPORT. The fields of a record's words, and what a ring that takes a record does: it writes it, after the record of the lost ones
where there are any, or loses it (O6). -/

namespace Sys2Proof.Machine

/-! ### The words of a record (R103, R104) -/

theorem record_header {len group code : Nat} (hl : len < 4096) (hg : group < 16) (hc : code < 65536) :
    fld (wd (len * 2 ^ 20 + group * 65536 + code)) 20 12 = len
    ∧ fld (wd (len * 2 ^ 20 + group * 65536 + code)) 16 4 = group
    ∧ fld (wd (len * 2 ^ 20 + group * 65536 + code)) 0 16 = code := by
  simp only [fld, wd, BitVec.toNat_ofNat]
  omega

theorem record_about {kind source cls : Nat} (detail : Nat) (hk : kind < 16) (hs : source < 16) (hc : cls < 4) :
    fld (wd (kind * 2 ^ 28 + source * 2 ^ 24 + cls * 2 ^ 22 + low16 detail)) 28 4 = kind
    ∧ fld (wd (kind * 2 ^ 28 + source * 2 ^ 24 + cls * 2 ^ 22 + low16 detail)) 24 4 = source
    ∧ fld (wd (kind * 2 ^ 28 + source * 2 ^ 24 + cls * 2 ^ 22 + low16 detail)) 22 2 = cls
    ∧ fld (wd (kind * 2 ^ 28 + source * 2 ^ 24 + cls * 2 ^ 22 + low16 detail)) 16 6 = 0
    ∧ fld (wd (kind * 2 ^ 28 + source * 2 ^ 24 + cls * 2 ^ 22 + low16 detail)) 0 16 = detail % 65536 := by
  simp only [fld, wd, low16, BitVec.toNat_ofNat]
  omega

theorem StampKind.code_lt (k : StampKind) : k.code < 16 := by cases k <;> decide

/-- KIND is the place of the kind among the four. -/
theorem StampKind.code_place {k : StampKind} {j : Nat} (h : [StampKind.boundary, .detect, .block, .teller][j]? = some k) : k.code = j := by
  match j, h with
  | 0, rfl | 1, rfl | 2, rfl | 3, rfl => rfl

theorem Event.length_words (s : State) (e : Event) (q : Nat) : (e.words s q).length = 6 + (itemWords e.items).length := by
  rw [Nat.add_comm]
  rfl

/-! ### Words on a ring (R108) -/

/-- The ring `t` holds the words `ws` behind the write index of `r`, and every other word as `r` does. -/
def Appended (r : EvRing) (ws : List Word) (t : EvRing) : Prop :=
  t.wr = (r.wr + ws.length) % (2 * r.size)
  ∧ (∀ i, i < ws.length → t.words.word (4 * ((r.wr + i) % r.size)) = ws.getD i 0)
  ∧ ∀ p, p < r.size → (∀ i, i < ws.length → p ≠ (r.wr + i) % r.size) → t.words.word (4 * p) = r.words.word (4 * p)

theorem write_appended {r : EvRing} {ws : List Word} (h : ws.length ≤ r.size) : Appended r ws (r.write ws) :=
  ⟨rfl, fun i hi => Mem.word_ringPut_at r.size ws r.words r.wr i h hi, fun p _ hp => Mem.word_ringPut_other r.size ws r.words r.wr p hp⟩

/-- A record that is lost changes no word of its ring. -/
theorem Appended.lose {r t : EvRing} {ws : List Word} (h : Appended r ws t) (q : Nat) : Appended r ws (t.lose q) := h

theorem space_le_size (r : EvRing) : r.space ≤ r.size := Nat.sub_le _ _

/-- Whatever becomes of a record, the ring keeps its settings and its read index. -/
theorem raise_keeps (e : Event) (s : State) (r : EvRing) :
    (r.raise s e).1.mask = r.mask ∧ (r.raise s e).1.log2S = r.log2S ∧ (r.raise s e).1.enable = r.enable
    ∧ (r.raise s e).1.irqEn = r.irqEn ∧ (r.raise s e).1.rd = r.rd ∧ (r.raise s e).1.rdErr = r.rdErr := by
  by_cases htaken : r.enable = true ∧ bitOf r.mask (e.code / 4096) = true
  · obtain ⟨hen, hmask⟩ := htaken
    rw [raise_on e s r hen hmask]
    split <;> split_ifs <;> exact ⟨rfl, rfl, rfl, rfl, rfl, rfl⟩
  · rw [raise_off e s r (by simpa [imp_iff_not_or] using htaken)]
    exact ⟨rfl, rfl, rfl, rfl, rfl, rfl⟩

/-! ### A ring that takes a record (R105, R108, R109) -/

/-- A ring that has counted a record and written words that report its lost ones, so that none is lost without report. -/
def caughtUp (r : EvRing) (ws : List Word) : EvRing := { (countedRing r).write ws with run := none }

theorem caughtUp_appended {r : EvRing} {ws : List Word} (h : ws.length ≤ r.size) : Appended r ws (caughtUp r ws) :=
  write_appended (r := countedRing r) h

/-- The write index behind an EVENTS_LOST record. -/
def behindReport (r : EvRing) : EvRing := { r with wr := (r.wr + 6) % (2 * r.size) }

theorem caughtUp_space (r : EvRing) (s : State) (n f : Nat) : (caughtUp r ((lostEvent s n).words s f)).space = (behindReport r).space := rfl

section
variable {s : State} {e : Event} {r : EvRing} (hen : r.enable = true) (hmask : r.mask.testBit (e.code / 4096) = true)
include hen hmask

/-- A ring without lost records writes the record where it fits. -/
theorem raise_writes (hrun : r.run = none) (hfit : (e.words s r.eseq).length ≤ r.space) :
    r.raise s e = ((countedRing r).write (e.words s r.eseq), true) := by
  rw [raise_on e s r hen ((bitOf_eq _ _).trans hmask), show (countedRing r).run = none from hrun]
  exact if_pos hfit

theorem raise_loses (hrun : r.run = none) (hfull : r.space < (e.words s r.eseq).length) :
    r.raise s e = ({ countedRing r with lost := sat16 (r.lost + 1), run := some (r.eseq, 1) }, false) := by
  rw [raise_on e s r hen ((bitOf_eq _ _).trans hmask), show (countedRing r).run = none from hrun]
  dsimp only
  rw [if_neg (show ¬_ ≤ (countedRing r).space from Nat.not_le.mpr hfull), EvRing.lose, show (countedRing r).run = none from hrun]
  rfl

variable {f n : Nat} (hrun : r.run = some (f, n))
include hrun

/-- Lost records go on being lost while the record that reports them does not fit. -/
theorem raise_loses_more (hfull : r.space < 6) :
    r.raise s e = ({ countedRing r with lost := sat16 (r.lost + 1), run := some (f, n + 1) }, false) := by
  rw [raise_on e s r hen ((bitOf_eq _ _).trans hmask), show (countedRing r).run = some (f, n) from hrun]
  dsimp only
  rw [if_pos (show (countedRing r).space < 6 from hfull), EvRing.lose, show (countedRing r).run = some (f, n) from hrun]
  rfl

/-- The record that reports the lost ones is written where it fits, and the record raised is written or lost behind it. -/
theorem raise_reports (hroom : 6 ≤ r.space) :
    r.raise s e = if (e.words s r.eseq).length ≤ (behindReport r).space then
        (caughtUp r ((lostEvent s n).words s f ++ e.words s r.eseq), true)
      else ((caughtUp r ((lostEvent s n).words s f)).lose r.eseq, true) := by
  rw [← caughtUp_space r s n f, raise_on e s r hen ((bitOf_eq _ _).trans hmask), show (countedRing r).run = some (f, n) from hrun]
  dsimp only
  rw [if_neg (show ¬(countedRing r).space < 6 from Nat.not_lt.mpr hroom), write_write]
  rfl

theorem raise_reports_writes (hroom : 6 ≤ r.space) (hfit : (e.words s r.eseq).length ≤ (behindReport r).space) :
    r.raise s e = (caughtUp r ((lostEvent s n).words s f ++ e.words s r.eseq), true) :=
  (raise_reports hen hmask hrun hroom).trans (if_pos hfit)

theorem raise_reports_loses (hroom : 6 ≤ r.space) (hfull : (behindReport r).space < (e.words s r.eseq).length) :
    r.raise s e = ((caughtUp r ((lostEvent s n).words s f)).lose r.eseq, true) :=
  (raise_reports hen hmask hrun hroom).trans (if_neg (Nat.not_le.mpr hfull))

/-- WR advances with the report. -/
theorem raise_reports_advances (hroom : 6 ≤ r.space) : (r.raise s e).2 = true := by
  rw [raise_reports hen hmask hrun hroom]
  split <;> rfl

end

/-- A ring that takes a record counts it. -/
theorem raise_counts {s : State} {e : Event} {r : EvRing} (hen : r.enable = true) (hmask : r.mask.testBit (e.code / 4096) = true) :
    (r.raise s e).1.eseq = (r.eseq + 1) % 2 ^ 32 := by
  rw [raise_on e s r hen ((bitOf_eq _ _).trans hmask)]
  split <;> split_ifs <;> rfl

end Sys2Proof.Machine

open Sys2Proof Sys2Proof.Machine

/-- Settles O6: the words of a record give its fields back (`record_header`, `record_about`), and a ring that takes it writes it, loses it, or
reports its lost ones first (`raise_writes`, `raise_loses`, `raise_loses_more`, `raise_reports`). -/
theorem eventRings : Obligations.EventRings := by
  unfold Obligations.EventRings
  refine ⟨?_, ?_, fun e r hr => ?_⟩
  · rintro s e q _ rfl hcode hsource hcls hlen
    rw [Event.length_words] at hlen ⊢
    obtain ⟨h0, h1, h2⟩ := record_header hlen (by omega : e.code / 4096 < 16) hcode
    obtain ⟨h3, h4, h5, h6, h7⟩ := record_about e.detail e.kind.code_lt hsource hcls
    exact ⟨h0, h1, h2, rfl, rfl, rfl, rfl, fun j hj => h3.trans (StampKind.code_place hj), h4, h5, h6, h7, rfl⟩
  · rintro s e k r _ hk hr rfl
    obtain ⟨hring, hvec⟩ := raiseEvent_ring e s k r hk hr
    obtain ⟨hmask, hsize, henable, hirq, hrd, hrdErr⟩ := raise_keeps e s r
    refine ⟨_, hring, hmask, hsize, henable, hirq, hrd, hrdErr, fun hoff => ?_, ?_⟩
    · rw [raise_off e s r (by rwa [bitOf_eq])]
    · rintro hen hmask _ rfl
      refine ⟨raise_counts hen hmask, fun hrun hfit => ?_, fun hrun hfull => ?_, fun f n hrun hfull => ?_, ?_⟩
      · have hraise := raise_writes hen hmask hrun hfit
        rw [hraise] at hvec ⊢
        exact ⟨write_appended (r := countedRing r) (hfit.trans (space_le_size r)), hrun, rfl, hvec rfl⟩
      · rw [raise_loses hen hmask hrun hfull]
        rfl
      · rw [raise_loses_more hen hmask hrun hfull]
        rfl
      · rintro f n _ _ hrun hroom rfl rfl
        refine ⟨rfl, hvec (raise_reports_advances hen hmask hrun hroom), fun hfit hsize => ?_, fun hfull => ?_⟩
        · rw [raise_reports_writes hen hmask hrun hroom hfit]
          have hwords : ((lostEvent s n).words s f ++ e.words s r.eseq).length ≤ r.size := by
            rw [List.length_append, lost_len, Nat.add_comm]
            exact hsize
          exact ⟨caughtUp_appended hwords, rfl, rfl⟩
        · rw [raise_reports_loses hen hmask hrun hroom hfull]
          have hwords : ((lostEvent s n).words s f).length ≤ r.size := (lost_len s n f).trans_le (hroom.trans (space_le_size r))
          exact ⟨(caughtUp_appended hwords).lose r.eseq, rfl, rfl⟩
  · rw [getElem?_map_range hr]
    exact ⟨rfl, rfl, rfl, rfl⟩

end

section
/-! SUPPORT. What STAGE, COMMIT and DISCARD do in their own chapter (O20). -/

namespace Sys2Proof.Machine

/-! ### STAGE and DISCARD (R86 to R90) -/

/-- The state whose mailbox has these writes staged, each in the place of an earlier write of its parameter (R88). -/
def withStaged (mb : Nat) (ws : List Write) (s : State) : State :=
  { s with fw := { s.fw with staged := ws.foldl (stageOne mb) s.fw.staged } }

/-- STAGE when every check of R87 passes: handle, class, type, range and the escrow's space. -/
theorem opStage_ok {r : Request} {s : State} {ref : Ref} {l : List (Nat × Write × PSpec)} (hh : refOfHandle s r.handle = some ref)
    (hc : permits (classOf s ref.node) r.mb = true) (ht : stageType s ref (realItems r.items) = .ok l) (hr : rangeFault l = none)
    (hd : depFault (stageView s r.mb (l.map fun e => e.2.1)) l = none)
    (hf : escrowFits (withStaged r.mb (l.map fun e => e.2.1) s) = true) :
    opStage r s = (withStaged r.mb (l.map fun e => e.2.1) s, .ok []) := by
  rw [opStage, hh]
  dsimp only
  rw [hc, Bool.not_true, if_neg Bool.false_ne_true, ht]
  dsimp only
  rw [hr]
  dsimp only
  rw [hd]
  exact if_pos hf

theorem opDiscard_pad {r : Request} (h : ∀ i ∈ r.items, i.tag = 0) (s : State) : opDiscard r s = (clearStaged r.mb s, .ok []) := by
  rw [opDiscard, anyItem_pad h]

/-! ### COMMIT (R91, R94) -/

/-- A COMMIT without items, at a boundary, that its own chapter answers with OK. -/
theorem serve_commit_ok {r : Request} {s u : State} {items : List Item} (he : Executes s r)
    (hc : r.commitAt = 0 ∨ boundaryWord r.commitAt = true) (hr : opCommit r s = (u, .ok items)) (hf : Fits r items) :
    serve .commit true r s = answeredOk s u r 0x0021 r.handle items .none :=
  serve_ok (o := .commit) he (fun hg => absurd hg (by decide)) hc hr hf

theorem opCommit_nothing {r : Request} {s : State} (hi : ∀ i ∈ r.items, i.tag = 0) (hs : stagedOf s r.mb = []) :
    opCommit r s = (s, .ok [armItem (commitBoundary s r) 0]) := by
  rw [opCommit, anyItem_pad hi]
  dsimp only
  rw [hs]
  rfl

/-- Checks 1 and 2 of R91 on the writes a mailbox has staged: each still names a parameter that the mailbox may write, the gate lists
are good, and the purses and buses hold them. -/
structure Committable (s : State) (mb : Nat) (ws : List Write) : Prop where
  there : ∀ w ∈ ws, stillThere s w = true ∧ permits (classOf s w.node) mb = true
  gates : ∀ n ∈ gateWrites ws, gateBad (withWrites (withArmed s) ws) n = false
  fits  : writesFit s ws = none

theorem opCommit_arms {r : Request} {s : State} (hi : ∀ i ∈ r.items, i.tag = 0) (hs : stagedOf s r.mb ≠ [])
    (hw : Committable s r.mb (stagedOf s r.mb)) {x : State × Reply}
    (ha : arm r .commit (stagedOf s r.mb) (clearStaged r.mb s) = .ok x) : opCommit r s = x := by
  have hthere : (stagedOf s r.mb).all (stillThere s) = true := List.all_eq_true.mpr fun w h => (hw.there w h).1
  have hclass : ((stagedOf s r.mb).all fun w => permits (classOf s w.node) r.mb) = true :=
    List.all_eq_true.mpr fun w h => (hw.there w h).2
  have hgates : ¬(gateWrites (stagedOf s r.mb)).any (gateBad (withWrites (withArmed s) (stagedOf s r.mb))) = true := by
    simpa using hw.gates
  rw [opCommit, anyItem_pad hi]
  dsimp only
  rw [if_neg (by simpa using hs), hthere, hclass, Bool.not_true, if_neg Bool.false_ne_true, if_neg Bool.false_ne_true, if_neg hgates,
    hw.fits]
  dsimp only
  rw [ha]

end Sys2Proof.Machine

open Sys2Proof Sys2Proof.Machine

/-- Settles O20: STAGE and DISCARD answer OK (`serve_open_ok`), and COMMIT arms the writes that pass its checks (`arm_ok`). -/
theorem requestEscrow : Obligations.RequestEscrow := by
  unfold Obligations.RequestEscrow
  refine fun s r he => ⟨?_, fun hc hi => ⟨fun hs hf => ?_, ?_⟩, fun hc hi => ?_⟩
  · rintro ref l _ hc hh hp ht hr hd rfl hfit
    exact congrArg _ (serve_open_ok .stage he hc rfl (opStage_ok hh hp ht hr hd hfit) (fits_nil r))
  · exact congrArg _ (serve_commit_ok he hc (opCommit_nothing hi hs) hf)
  · rintro _ b rfl hs hthere hgates hfits hb hahead hfree hfew hf
    have harm := arm_ok (r := r) (kind := .commit) (ws := stagedOf s r.mb) (s := clearStaged r.mb s) hb hahead hfree hfew
    exact congrArg _ (serve_commit_ok he hc (opCommit_arms hi hs ⟨hthere, hgates, hfits⟩ harm) hf)
  · exact congrArg _ (serve_open_ok .discard he hc rfl (opDiscard_pad hi s) (fits_nil r))

end

section
/-! SUPPORT. Filter banks and the lanes of the till: how a bank becomes READY or is abandoned, and what a request for a lane gets (O32). -/

namespace Sys2Proof.Machine

/-! ### Banks (R176, R177) -/

theorem exec_filterReady_preparing {s : State} {f b : Nat} {k : Bank} (hk : s.bankAt f b = some k) (hst : k.state = 2) (hs : s.serving = true) :
    exec (.filterReady f b) s = .next (raiseNode 0x2001 .teller s.clk.tally (some (.bank f b)) k.mb (low16 k.total)
      [{ tag := 0x53, vals := [crc32Words (k.taps.map wi)] }]
      (s.setBank { k with state := 3, crc := crc32Words (k.taps.map wi), readyAt := s.clk.tally })) := by
  have he : exec (.filterReady f b) s = execFilterReady f b s := rfl
  rw [he, execFilterReady, hk]
  exact if_pos (by simp [hst, hs])

theorem exec_loadAbandoned_due {s : State} {f b : Nat} {k : Bank} (hk : s.bankAt f b = some k) (hst : k.state = 1)
    (hf : s.clk.tally % 8192 = 0) (hage : k.lastAt + 30000 * 8192 ≤ s.clk.tally) :
    exec (.loadAbandoned f b) s =
      .next (raiseNode 0x2006 .boundary s.clk.tally (some (.bank f b)) k.mb 0 [] (s.dropBank f b)) := by
  have he : exec (.loadAbandoned f b) s = execLoadAbandoned f b s := rfl
  rw [he, execLoadAbandoned, hk]
  exact if_pos (by simp [hst, atFrame_iff hf, frames_eq, hage])

theorem bankReady_of_bankAt {s : State} {f b : Nat} {k : Bank} (hk : s.bankAt f b = some k) (hst : k.state = 3) :
    bankReady s f b = true := by
  simp [bankReady, hk, hst]

/-! ### Lanes (R184, R185) -/

theorem State.updFeed_eq (s : State) (f : Nat) (g : Feed → Feed) :
    s.updFeed f g = { s with feeds := s.feeds.map fun x => if x.n = f then g x else x } := by
  simp only [State.updFeed, beq_iff_eq]

/-- Two changes of feed `f` that agree on it change the state alike. -/
theorem State.updFeed_congr {s : State} {f : Nat} {g h : Feed → Feed} (he : ∀ x ∈ s.feeds, x.n = f → g x = h x) :
    s.updFeed f g = s.updFeed f h := by
  rw [State.updFeed_eq, State.updFeed_eq, List.map_congr_left fun x hx => ?_]
  split
  next hn => exact he x hx hn
  next => rfl

/-- One armed commit that asks feed `f` for a bank, at or past its reservation, is the one due swap. -/
theorem dueSwaps_of_armed {s : State} {f : Nat} {a : Armed} {w : Word} (ha : s.armed = [a]) (hdue : a.at_ ≤ s.clk.tally + 16384)
    (hw : findVal a.writes (.corr f) 0x101 = some [w]) : dueSwaps s f = [(a.at_, w.toNat)] := by
  simp [dueSwaps, ha, Nat.not_lt.mpr hdue, hw]

theorem exec_laneReserve_of_due {s : State} {f t b : Nat} (hd : dueSwaps s f = [(t, b)]) :
    exec (.laneReserve f) s = .next (askLane (t, f) s) := by
  have he : exec (.laneReserve f) s = execLaneReserve f s := rfl
  rw [he, execLaneReserve, hd]
  rfl

/-- An empty lane of a bank, to be filled from now. -/
def emptyLane (bank since : Nat) : Lane := { bank := bank, since := since, filled := false }

theorem holdLane_of_none {fd : Feed} (bank tally : Nat) (h : fd.lane = none) :
    holdLane bank tally fd = { fd with lane := some (emptyLane bank tally) } := by
  rw [holdLane, h]
  rfl

section
variable {s : State} {t f : Nat} {fd : Feed} (hfd : s.feedAt f = some fd)
include hfd

theorem askLane_held (hl : fd.lane.isSome = true) : askLane (t, f) s = s := by
  rw [askLane, hfd]
  exact if_pos hl

theorem askLane_takes (hl : fd.lane = none) (hfree : laneFree s f = true) :
    askLane (t, f) s = { s.updFeed f (holdLane (laneBank s fd) s.clk.tally) with
      till := { s.till with waiting := s.till.waiting.filter fun x => x.2 != f } } := by
  simp [askLane, hfd, hl, hfree]

theorem askLane_waits (hl : fd.lane = none) (hfree : laneFree s f = false) (hnew : s.till.waiting.contains (t, f) = false) :
    askLane (t, f) s = { s.updFeed f (fun x => { x with waits := satAdd32 x.waits 1 }) with
      till := { s.till with waiting := insertWait (t, f) s.till.waiting } } := by
  rw [askLane, hfd]
  simp only [hl, hfree, hnew, Option.isSome_none, Bool.false_eq_true, if_false]

end

theorem exec_laneFillDone_ready {s : State} {f : Nat} {fd : Feed} {l : Lane} (hfd : s.feedAt f = some fd) (hl : fd.lane = some l)
    (hempty : l.filled = false) (hready : bankReady s f l.bank = true) :
    exec (.laneFillDone f) s = .next (s.updFeed f fun x => { x with lane := some { l with filled := true } }) := by
  have he : exec (.laneFillDone f) s = execLaneFillDone f s := rfl
  rw [he, execLaneFillDone, hfd]
  dsimp only
  rw [hl]
  exact if_pos (by simp [hempty, hready])

end Sys2Proof.Machine

open Sys2Proof Sys2Proof.Machine

/-- Settles O32: a bank's clauses are one command each under its condition; LANE_RESERVE asks for a lane once (`dueSwaps_of_armed`), and the
feed holds one already, takes a free one, or waits. -/
theorem filterBanks : Obligations.FilterBanks := by
  unfold Obligations.FilterBanks
  refine fun s f b => ⟨fun k hk hst hs => exec_filterReady_preparing hk hst hs,
    fun k hk hst hf hage => exec_loadAbandoned_due hk hst hf hage, fun a w fd ha hdue hw hfd hall => ?_,
    fun fd l k hfd hl hempty hk hst => ?_⟩
  · rw [exec_laneReserve_of_due (dueSwaps_of_armed ha hdue hw)]
    refine ⟨fun hl => ?held, fun hl hfree => ⟨emptyLane (laneBank s fd) s.clk.tally, ?takes, rfl, rfl⟩, fun hl hfree hnew => ?waits⟩
    case held => rw [askLane_held hfd hl]
    case takes =>
      have hhold : ∀ x ∈ s.feeds, x.n = f →
          holdLane (laneBank s fd) s.clk.tally x = { x with lane := some (emptyLane (laneBank s fd) s.clk.tally) } :=
        fun x hx hn => holdLane_of_none _ _ (by rw [hall x hx hn, hl])
      rw [askLane_takes hfd hl hfree, State.updFeed_congr hhold, State.updFeed_eq]
    case waits => rw [askLane_waits hfd hl hfree hnew, State.updFeed_eq]; rfl
  · rw [exec_laneFillDone_ready hfd hl hempty (bankReady_of_bankAt hk hst), State.updFeed_eq]

end

section
/-! SUPPORT. What SCENE_STORE and SCENE_RECALL do in their own chapter (O21). -/

namespace Sys2Proof.Machine

/-! ### The scene of a SCENE_STORE (R222 to R224) -/

/-- The nodes that a CAPTURE takes: those of the kinds asked for, among the listed ones where nodes are listed. -/
def captureNodes (s : State) (w0 : Word) (list : List Word) : List Node :=
  (s.adm.cfg.nodes.map NodeRec.node).filter fun k =>
    captureKind w0 k && (list.isEmpty || ((listedNodes s list).filterMap id).contains k)

/-- The VALID scene that the first listed handle names. -/
def copySource (s : State) (list : List Word) : Option Scene :=
  (((listedNodes s list).filterMap id).head?.bind fun k => (poolOf k).bind fun _ => sceneRec s k).filter fun x => x.state == 1

theorem copySource_singleton {s : State} {h : Word} {k : Node} {x : Scene} (hk : nodeOfHandle s h = some k) (hp : (poolOf k).isSome = true)
    (hx : sceneRec s k = some x) (hst : x.state = 1) : copySource s [h] = some x := by
  obtain ⟨p, hp⟩ := Option.isSome_iff_exists.mp hp
  simp [copySource, listedNodes, hk, hp, hx, hst]

/-- The scene that a SCENE_STORE of these items gives node `n`, in each of its modes. -/
def sceneToStore (s : State) (mb : Nat) (n : Node) (w0 xf : Word) (list : List Word) : Scene :=
  { node := n, state := 1, xfade := if fld w0 0 2 = 2 then ((copySource s list).map Scene.xfade).getD 0 else xf.toNat,
    storedAt := s.clk.tally, alarm := w0.getLsbD 8,
    writes := match fld w0 0 2 with
      | 0 => captured s (captureNodes s w0 list)
      | 1 => stagedOf s mb
      | _ => ((copySource s list).map Scene.writes).getD [] }

/-- The mode's own checks: a mode of R224, only scene parameters in the escrow, and one VALID scene to copy. -/
structure ModeTaken (s : State) (mb : Nat) (w0 : Word) (list : List Word) : Prop where
  mode   : fld w0 0 2 ≠ 3
  staged : fld w0 0 2 = 1 → ∀ w ∈ stagedOf s mb, sceneTag s w.node w.tag = true
  copied : fld w0 0 2 = 2 → list.length = 1 ∧ (copySource s list).isSome = true

/-- Where the writes of a stored scene come from, and the scene they are copied from: captured nodes, the escrow, or a VALID scene. -/
def SceneSource (s : State) (mb : Nat) (w0 : Word) (list : List Word) (src : Option Scene) (ws : List Write) : Prop :=
  fld w0 0 2 = 0 ∧ src = none ∧ ws = captured s (captureNodes s w0 list)
    ∨ fld w0 0 2 = 1 ∧ src = none ∧ ws = stagedOf s mb ∧ (∀ w ∈ ws, sceneTag s w.node w.tag = true)
    ∨ fld w0 0 2 = 2 ∧ ∃ h k x, list = [h] ∧ nodeOfHandle s h = some k ∧ (poolOf k).isSome = true ∧ sceneRec s k = some x ∧ x.state = 1
      ∧ src = some x ∧ ws = x.writes

section
variable {s : State} {mb : Nat} {w0 : Word} {list : List Word} {src : Option Scene} {ws : List Write}

theorem SceneSource.modeTaken (h : SceneSource s mb w0 list src ws) : ModeTaken s mb w0 list := by
  obtain ⟨hm, -, -⟩ | ⟨hm, -, rfl, htags⟩ | ⟨hm, a, k, x, rfl, hk, hp, hx, hst, -, -⟩ := h
  · exact ⟨by omega, by omega, by omega⟩
  · exact ⟨by omega, fun _ => htags, by omega⟩
  · exact ⟨by omega, by omega, fun _ => ⟨rfl, by rw [copySource_singleton hk hp hx hst]; rfl⟩⟩

theorem SceneSource.sceneToStore_eq (h : SceneSource s mb w0 list src ws) (n : Node) (xf : Word) :
    sceneToStore s mb n w0 xf list =
      { node := n, state := 1, xfade := (src.map Scene.xfade).getD xf.toNat, storedAt := s.clk.tally, alarm := w0.getLsbD 8, writes := ws } := by
  obtain ⟨hm, rfl, rfl⟩ | ⟨hm, rfl, rfl, -⟩ | ⟨hm, a, k, x, rfl, hk, hp, hx, hst, rfl, rfl⟩ := h
  · simp [sceneToStore, hm]
  · simp [sceneToStore, hm]
  · simp [sceneToStore, hm, copySource_singleton hk hp hx hst]

end

/-! ### SCENE_STORE (R224, R225) -/

/-- The items of a SCENE_STORE. -/
def storeItems (w0 xf : Word) (list : List Word) : List Item := [{ tag := 0x40, vals := [w0, xf] }, { tag := 0x41, vals := list }]

theorem itemsBad_storeItems_head (w0 xf : Word) (list : List Word) :
    itemsBad (storeItems w0 xf list) [(0x40, (· == 2))] ((realItems (storeItems w0 xf list)).take 1) = none := rfl

theorem itemsBad_storeItems_tail (w0 xf : Word) {list : List Word} (h : list.length ≤ 1014) :
    itemsBad (storeItems w0 xf list) [(0x41, fun k => decide (k ≤ 1014))] ((realItems (storeItems w0 xf list)).drop 1) = none := by
  have hreal : (realItems (storeItems w0 xf list)).drop 1 = [(1, { tag := 0x41, vals := list })] := rfl
  simp [hreal, itemsBad, h]

/-- What R224 asks of a SCENE_STORE in every mode: well-formed items, handles of nodes that exist, and a class the mailbox may write. -/
structure StoreAsked (s : State) (r : Request) (w0 xf : Word) (list : List Word) : Prop where
  items  : r.items = storeItems w0 xf list
  few    : list.length ≤ 1014
  listed : ∀ h ∈ list, (nodeOfHandle s h).isSome = true
  bits   : onlyBits 0x1F3 w0 = true
  fade   : xf.toNat ≤ 2000
  cls    : permits (some (if w0.getLsbD 8 then 0 else 1)) r.mb = true

/-- SCENE_STORE when every check of R224 and R225 passes. -/
theorem opSceneStore_ok {r : Request} {s : State} {n : Node} {chip : Bool} {size : Nat} {w0 xf : Word} {list : List Word} {sc : Scene}
    (hh : nodeOfHandle s r.handle = some n) (hp : poolOf n = some (chip, size)) (hr : StoreAsked s r w0 xf list) (hm : ModeTaken s r.mb w0 list)
    (hsc : sceneToStore s r.mb n w0 xf list = sc) (hagree : ∀ w ∈ sc.writes, agrees s (w0.getLsbD 8) w.node = true)
    (hwords : sc.words ≤ 131072) (hpool : poolUsed s chip n + sc.words ≤ size) :
    opSceneStore r s = storeScene r.mb sc (if fld w0 0 2 = 1 then clearStaged r.mb s else s) := by
  have hpair : ((nodeOfHandle s r.handle).bind fun n => (poolOf n).map fun p => (n, p)) = some (n, chip, size) := by simp [hh, hp]
  have hnodes : ¬(listedNodes s list).any Option.isNone = true := by
    simpa [listedNodes, Option.isSome_iff_ne_none] using hr.listed
  have hclass : ¬(!permits (some (if w0.getLsbD 8 then 0 else 1)) r.mb) = true := by rw [hr.cls]; exact Bool.false_ne_true
  have hform : ¬(!onlyBits 0x1F3 w0 || fld w0 0 2 == 3 || decide (2000 < xf.toNat)) = true := by
    simp [hr.bits, hm.mode, hr.fade]
  have hstaged : ¬(fld w0 0 2 == 1 && !(stagedOf s r.mb).all fun w => sceneTag s w.node w.tag) = true := by
    simpa using hm.staged
  have hcopied : ¬(fld w0 0 2 == 2 && (list.length != 1 || (copySource s list).isNone)) = true := by
    simpa [Option.isSome_iff_ne_none] using hm.copied
  have hagrees : ¬(!sc.writes.all fun w => agrees s (w0.getLsbD 8) w.node) = true := by
    simpa using hagree
  subst hsc
  rw [opSceneStore, hpair, hr.items]
  refine (if_neg hnodes).trans ((if_neg hclass).trans ?_)
  rw [itemsBad_storeItems_head, itemsBad_storeItems_tail w0 xf hr.few]
  exact (if_neg hform).trans ((if_neg hstaged).trans ((if_neg hcopied).trans ((if_neg hagrees).trans
    ((if_neg (Nat.not_lt.mpr hwords)).trans (if_neg (Nat.not_lt.mpr hpool))))))

/-- A scene takes the place of what its node held; the escrow is emptied with it where the scene took it. -/
theorem storeScene_emptying (mb : Nat) (sc : Scene) (c : Prop) [Decidable c] (s : State) :
    storeScene mb sc (if c then clearStaged mb s else s) =
      (raiseNode 0x3004 .teller s.clk.tally (some sc.node) mb (low16 sc.words) [{ tag := 0x44, vals := [crc32Words (sc.writes.flatMap Write.vals)] }]
        { s with fw := { s.fw with
            staged := if c then s.fw.staged.filter fun w => w.1 != mb else s.fw.staged,
            scenes := sc :: s.fw.scenes.filter fun x => x.node != sc.node } },
      .ok [{ tag := 0x44, vals := w1 sc.words }]) := by
  split <;> rfl

/-! ### SCENE_RECALL (R228) -/

/-- The items of a SCENE_RECALL that take `fade` milliseconds: none for the scene's own, or TAG 0x43. -/
def RecallFade (r : Request) (sc : Scene) (fade : Nat) : Prop :=
  r.items = [] ∧ fade = sc.xfade ∨ r.items = [{ tag := 0x43, vals := [wd fade] }] ∧ fade ≤ 2000

/-- What R228 asks of the scene that a SCENE_RECALL names: it is VALID and of a class the mailbox may write, the escrow holds its writes,
each still names a parameter, and the purses and buses hold them. -/
structure Recallable (s : State) (r : Request) (sc : Scene) : Prop where
  valid  : sc.state = 1
  cls    : permits (some (if sc.alarm then 0 else 1)) r.mb = true
  escrow : escrowFits { s with armed := s.armed ++ [{ mb := r.mb, at_ := 0, seq := r.seq, kind := .commit, writes := sc.writes }] } = true
  there  : ∀ w ∈ sc.writes, stillThere s w = true
  fits   : writesFit s sc.writes = none

theorem opSceneRecall_arms {r : Request} {s : State} {n : Node} {sc : Scene} {fade : Nat} {x : State × Reply}
    (hh : nodeOfHandle s r.handle = some n) (hp : (poolOf n).isSome = true) (hrec : sceneRec s n = some sc) (hsc : Recallable s r sc)
    (hfade : RecallFade r sc fade) (harm : arm r (.recall n (framesOfMs fade)) sc.writes s = .ok x) : opSceneRecall r s = x := by
  obtain ⟨hst, hcls, hescrow, hthere, hfits⟩ := hsc
  have hnode : ((nodeOfHandle s r.handle).filter fun n => (poolOf n).isSome) = some n := by simp [hh, hp]
  have hclass : ¬(sc.state != 0 && !permits (some (if sc.alarm then 0 else 1)) r.mb) = true := by simp [hcls]
  have hall : sc.writes.all (stillThere s) = true := List.all_eq_true.mpr hthere
  rw [opSceneRecall, hnode]
  dsimp only
  rw [hrec, Option.getD_some, if_neg hclass, if_neg (by omega : ¬sc.state = 0), if_neg (by omega : ¬sc.state = 2), hescrow, hall, hfits,
    Bool.not_true, if_neg Bool.false_ne_true, if_neg Bool.false_ne_true]
  obtain ⟨hi, rfl⟩ | ⟨hi, hle⟩ := hfade
  · have hreal : realItems r.items = [] := by rw [hi]; rfl
    simp [hreal, harm]
  · have hreal : realItems r.items = [(0, { tag := 0x43, vals := [wd fade] })] := by rw [hi]; rfl
    have hms : (wd fade).toNat = fade := by simp [wd]; omega
    simp [hreal, hms, hle, harm]

end Sys2Proof.Machine

open Sys2Proof Sys2Proof.Machine

/-- Settles O21: each way to store gives the scene of `sceneToStore` (`SceneSource.sceneToStore_eq`), which SCENE_STORE stores; SCENE_RECALL
arms the writes that pass its checks (`arm_ok`). -/
theorem requestScenes : Obligations.RequestScenes := by
  unfold Obligations.RequestScenes
  refine fun s r he => ⟨?_, ?_⟩
  · intro n chip size w0 xf list ws src hc hh hp hi hlen hlist hbits hxf hcls hsrc hagree hwords hpool hf
    have hsource : SceneSource s r.mb w0 list src ws := hsrc
    have hstore := opSceneStore_ok hh hp ⟨hi, hlen, hlist, hbits, hxf, hcls⟩ hsource.modeTaken (hsource.sceneToStore_eq n xf) hagree
      hwords hpool
    have hrun := hstore.trans (storeScene_emptying _ _ _ _)
    exact congrArg _ (serve_open_ok .sceneStore he hc rfl hrun hf)
  · intro n sc fade b hc hh hp hrec hst hcls hfade hescrow hthere hfits hb hahead hfree hfew hf
    have hrun := opSceneRecall_arms hh hp hrec ⟨hst, hcls, hescrow, hthere, hfits⟩ hfade (arm_ok hb hahead hfree hfew)
    exact congrArg _ (serve_ok (o := .sceneRecall) he (fun hg => absurd hg (by decide)) hc hrun hf)

end

section
/-! SUPPORT. The two copies of an ALARM node at the mark (R252), and the row of the resolution that a usable audit gives (R253, R254): O33. -/

namespace Sys2Proof.Machine

/-! ### The mark (R252) -/

theorem copyState_seen {s : State} {n : Node} {c sp : Nat} (seen : CopyOut) (hn : ∀ i, n ≠ .inst i) (hv : vaultLost s n c = false)
    (hr : isRetired s sp = false) : copyState s n c sp seen = seen := by
  cases n
  case inst p => exact absurd rfl (hn p)
  all_goals simp [copyState, hv, hr]

/-- Both copies of an observation have given an output. -/
def BothPresent (o : CopyObs) : Prop := ∃ x y g k, o.primary = .present x g ∧ o.secondary = .present y k

theorem markNode_unplaced {t : Nat} {obs : List CopyObs} {n : Node} {s : State} (h : copySpokes s n = none) : markNode t obs n s = s := by
  rw [markNode, h]

theorem markNode_agree {t a b : Nat} {obs : List CopyObs} {n : Node} {s : State} {p : CopyOut} (h : copySpokes s n = some (a, b))
    (hp : copyPresent p = true) (hprim : copyState s n 0 a p = p) (hsec : copyState s n 1 b p = p)
    (hseen : ∀ o, obs.find? (fun o => o.node == n) = some o → o.primary = p ∧ o.secondary = p)
    (hunseen : obs.find? (fun o => o.node == n) = none → p = .present [] 0) : markNode t obs n s = s := by
  obtain ⟨h0, h1⟩ : ((obs.find? fun o => o.node == n).map CopyObs.primary).getD (.present [] 0) = p
      ∧ ((obs.find? fun o => o.node == n).map CopyObs.secondary).getD (.present [] 0) = p := by
    cases ho : obs.find? fun o => o.node == n with
    | none => exact ⟨(hunseen ho).symm, (hunseen ho).symm⟩
    | some o => exact hseen o ho
  simp [markNode, h, h0, h1, hprim, hsec, hp]

theorem markNode_differ {t a b : Nat} {obs : List CopyObs} {o : CopyObs} {s : State} (h : copySpokes s o.node = some (a, b))
    (ho : obs.find? (fun x => x.node == o.node) = some o) (hc : BothPresent o) (hne : o.primary ≠ o.secondary)
    (hprim : copyState s o.node 0 a o.primary = o.primary) (hsec : copyState s o.node 1 b o.secondary = o.secondary)
    (haud : (auditorOf s o.node).isSome = true) :
    markNode t obs o.node s = { s with alarm := { s.alarm with open_ := s.alarm.open_ ++ [o] } } := by
  obtain ⟨x, y, g, k, hx, hy⟩ := hc
  obtain ⟨hf0, hf1⟩ : copyFaulted o.primary = false ∧ copyFaulted o.secondary = false := by simp [hx, hy, copyFaulted]
  simp [markNode, h, ho, hprim, hsec, hne, hf0, hf1, haud]

theorem foldl_keeps {α β : Type} {f : β → α → β} {b : β} {l : List α} (h : ∀ a ∈ l, f b a = b) : l.foldl f b = b :=
  List.foldlRecOn l f (motive := (· = b)) rfl fun x hx a ha => by rw [hx, h a ha]

/-- Within the frame from the mark on, the first ALARM_MARK that finds every observed copy present marks each placed node in turn. -/
theorem exec_alarmMark_present {s : State} {t : Nat} {obs : List CopyObs} (hr : s.snd.running = some t) (hm : s.alarm.marked = false)
    (hlo : t + markTicks ≤ s.clk.tally) (hhi : s.clk.tally < t + frameTicks) (hobs : ∀ o ∈ obs, BothPresent o) {u : State}
    (hu : (s.adm.place.map (·.1)).foldl (fun s n => markNode t obs n s) s = u) :
    exec (.alarmMark obs) s = .next { u with alarm := { u.alarm with marked := true } } := by
  have he : exec (.alarmMark obs) s = execAlarmMark obs s := rfl
  have hnote : obs.foldl (fun s o => noteFaults t o s) s = s := foldl_keeps fun o ho => noteFaults_present (hobs o ho)
  have hgate : (s.alarm.marked || decide (s.clk.tally < t + markTicks) || decide (t + frameTicks ≤ s.clk.tally)) = false := by
    simp [hm, hlo, hhi]
  rw [he, execAlarmMark, hr]
  dsimp only
  rw [hgate, if_neg Bool.false_ne_true, hnote, hu]

/-! ### The resolution (R253, R254) -/

section
variable {x y z : List Sample} {g k h : Nat}

theorem resolveRow_primary : resolveRow (.present x g) (.present y k) (some (.usable x g))
    = { out := some x, other := false, charged := [1], unresolved := none, bad := false } := by
  simp [resolveRow, copyPresent, copyAgrees, copyOut]

theorem resolveRow_secondary (hx : ¬(y = x ∧ k = g)) : resolveRow (.present x g) (.present y k) (some (.usable y k))
    = { out := some y, other := true, charged := [0], unresolved := none, bad := false } := by
  have hne : ¬(x = y ∧ g = k) := fun e => hx ⟨e.1.symm, e.2.symm⟩
  simp [resolveRow, copyPresent, copyAgrees, copyOut, hne]

theorem resolveRow_neither (hx : ¬(z = x ∧ h = g)) (hy : ¬(z = y ∧ h = k)) :
    resolveRow (.present x g) (.present y k) (some (.usable z h))
      = { out := some x, other := false, charged := [], unresolved := some 0, bad := true } := by
  have hp : ¬(x = z ∧ g = h) := fun e => hx ⟨e.1.symm, e.2.symm⟩
  have hq : ¬(y = z ∧ k = h) := fun e => hy ⟨e.1.symm, e.2.symm⟩
  simp [resolveRow, copyPresent, copyAgrees, copyOut, hp, hq]

end

/-- The output of node `n` is `out`, and the copy on spoke `sp` takes its state from the other. -/
def takeOutput (n : Node) (out : List Sample) (sp : Nat) (s : State) : State :=
  { s with alarm := { s.alarm with outs := (n, out) :: dropKey n s.alarm.outs, resync := s.alarm.resync ++ [(n, sp)] } }

/-- The frame is bad, and the fault is noted at the present tally. -/
def markBad (s : State) : State :=
  { s with alarm := { s.alarm with bad := true }, fault := { s.fault with code4At := some s.clk.tally } }

section
variable {s : State} {o : CopyObs} {audit : Option AuditRes} {a b t d c : Nat} {out : List Sample} {other : Bool}
variable (hs : copySpokes s o.node = some (a, b)) (ho : BothPresent o)
include hs ho

/-- Where an audit confirms an output against copy `c`, the spoke of `c` is charged and reported, and `c` takes its state from the other. -/
theorem resolveNode_confirmed (hv : vaultLost s o.node c = false) (hrow : resolveRow o.primary o.secondary audit
      = { out := some out, other := other, charged := [c], unresolved := none, bad := false }) :
    resolveNode t o audit s = raiseOwn 0x4002 .boundary t (some o.node) ((if c = 0 then a else b) * 256 + b2n other)
      (takeOutput o.node out (if c = 0 then a else b) (charge (if c = 0 then a else b) s)) := by
  obtain ⟨x, y, g, k, hx, hy⟩ := ho
  obtain ⟨v, w, hcopy⟩ : ∃ v w, (if c = 0 then o.primary else o.secondary) = .present v w := by
    split
    · exact ⟨x, g, hx⟩
    · exact ⟨y, k, hy⟩
  have hlosers : losers o.primary o.secondary { out := some out, other := other, charged := [c], unresolved := none, bad := false } = [c] := by
    simp [losers, hx, hy, copyPresent]
  simp [resolveNode, hs, hrow, hlosers, hcopy, chargeCopy, copyFaulted, copyPresent, hv, takeOutput]

/-- Where an audit equals neither copy, the primary is the output, and the secondary takes its state from it. -/
theorem resolveNode_unresolved (hrow : resolveRow o.primary o.secondary audit
      = { out := some out, other := other, charged := [], unresolved := some d, bad := true }) :
    resolveNode t o audit s = raiseOwn 0x4003 .boundary t (some o.node) d (markBad (takeOutput o.node out b s)) := by
  obtain ⟨x, y, g, k, hx, hy⟩ := ho
  have hlosers : losers o.primary o.secondary { out := some out, other := other, charged := [], unresolved := some d, bad := true } = [1] := by
    simp [losers, hx, hy, copyPresent]
  simp [resolveNode, hs, hrow, hlosers, takeOutput, markBad, State.updFault]

end

/-- From `s` to `u` only what a resolution may change has changed: the copies and outputs of ALARM nodes, the charges of spokes, and the
events raised. -/
def ResolvesOnly (s u : State) : Prop := u = { s with
  alarm := { s.alarm with open_ := u.alarm.open_, outs := u.alarm.outs, bad := u.alarm.bad, resync := u.alarm.resync },
  spokes := u.spokes, fault := { s.fault with charges := u.fault.charges, doomed := u.fault.doomed, code4At := u.fault.code4At },
  rings := u.rings, regs := u.regs, ledg := { s.ledg with queue := u.ledg.queue, suppressed := u.ledg.suppressed } }

theorem raiseOwn_alarm (c k t n d s) : (raiseOwn c k t n d s).alarm = s.alarm := raiseOwn_keep (·.alarm) (fun _ _ _ _ _ => rfl) c k t n d s

theorem raiseOwn_fault (c k t n d s) : (raiseOwn c k t n d s).fault = s.fault := raiseOwn_keep (·.fault) (fun _ _ _ _ _ => rfl) c k t n d s

theorem ResolvesOnly.raised {s u : State} (h : ResolvesOnly s u) (c k t n d) : ResolvesOnly s (raiseOwn c k t n d u) := by
  have hr := raiseOwn_frame c k t n d u
  generalize raiseOwn c k t n d u = v at hr ⊢
  unfold ResolvesOnly at h ⊢
  rw [hr, h]

/-- Node `n` no longer waits for its auditor. -/
def dropOpen (n : Node) (s : State) : State := { s with alarm := { s.alarm with open_ := s.alarm.open_.filter fun x => x.node != n } }

theorem resolvesOnly_confirmed {s : State} {n : Node} {out : List Sample} {sp : Nat} :
    ResolvesOnly s (takeOutput n out sp (charge sp (dropOpen n s))) := rfl

theorem resolvesOnly_unresolved {s : State} {n : Node} {out : List Sample} {sp : Nat} :
    ResolvesOnly s (markBad (takeOutput n out sp (dropOpen n s))) := rfl

/-- AUDIT_RESOLUTION in time resolves the node that waits for it. -/
theorem exec_auditResolution_inTime {s : State} {n : Node} {res : AuditRes} {o : CopyObs} {t : Nat} (hr : s.snd.running = some t)
    (ho : s.alarm.open_.find? (fun o => o.node == n) = some o) (ht : s.clk.tally ≤ t + resolveTicks) :
    exec (.auditResolution n res) s = .next (resolveNode t o (some res) (dropOpen n s)) := by
  have he : exec (.auditResolution n res) s = execAuditResolution n res s := rfl
  rw [he, execAuditResolution, hr, ho]
  exact if_neg (Nat.not_lt.mpr ht)

end Sys2Proof.Machine

open Sys2Proof Sys2Proof.Machine

/-- Settles O33: the mark leaves each node whose copies agree (`markNode_agree`) and queues one whose copies differ (`markNode_differ`); the
audit confirms the primary, the secondary, or neither (`resolveRow_primary`, `resolveRow_secondary`, `resolveRow_neither`). -/
theorem alarmVote : Obligations.AlarmVote := by
  unfold Obligations.AlarmVote
  refine fun s t0 hr => ⟨?agree, ?differ, ?resolve⟩
  case agree =>
    intro obs hm hlo hhi hobs hagree
    refine exec_alarmMark_present hr hm hlo hhi hobs (foldl_keeps fun n hn => ?_)
    obtain ⟨e, he, rfl⟩ := List.mem_map.mp hn
    cases hc : copySpokes s e.1 with
    | none => exact markNode_unplaced hc
    | some ab =>
      obtain ⟨p, hp, hprim, hsec, hseen, hunseen⟩ := hagree e he ab.1 ab.2 hc
      exact markNode_agree hc hp hprim hsec hseen hunseen
  case differ =>
    rintro n a b x y g k c e hplace hn hm hlo hhi rfl rfl hne hv0 hv1 hra hrb haud
    have hc : copySpokes s n = some (a, b) := by simp [find_place hplace]
    have hboth : BothPresent ⟨n, .present x g, .present y k⟩ := ⟨x, y, g, k, rfl, rfl⟩
    have hmark := markNode_differ (t := t0) (obs := [⟨n, .present x g, .present y k⟩])
      (o := ⟨n, .present x g, .present y k⟩) hc (by simp) hboth hne
      (copyState_seen _ hn hv0 hra) (copyState_seen _ hn hv1 hrb) haud
    refine exec_alarmMark_present hr hm hlo hhi (List.forall_mem_singleton.mpr hboth)
      (u := { s with alarm := { s.alarm with open_ := s.alarm.open_ ++ [⟨n, .present x g, .present y k⟩] } }) ?_
    rw [hplace]
    exact hmark
  case resolve =>
    rintro n a b x y g k o z h hc ht ho rfl hv0 hv1
    have hrun := exec_auditResolution_inTime (res := .usable z h) hr ho ht
    have hboth : BothPresent ⟨n, .present x g, .present y k⟩ := ⟨x, y, g, k, rfl, rfl⟩
    have hc' : copySpokes (dropOpen n s) n = some (a, b) := hc
    by_cases hp : z = x ∧ h = g
    · obtain ⟨rfl, rfl⟩ := hp
      rw [resolveNode_confirmed hc' hboth (c := 1) (s := dropOpen n s) hv1 resolveRow_primary] at hrun
      refine ⟨_, hrun, resolvesOnly_confirmed.raised _ _ _ _ _, ?_⟩
      rw [raiseOwn_alarm, raiseOwn_fault]
      exact ⟨rfl, fun _ => ⟨rfl, rfl, rfl, rfl⟩, fun hp => absurd ⟨rfl, rfl⟩ hp, fun hp => absurd ⟨rfl, rfl⟩ hp⟩
    by_cases hq : z = y ∧ h = k
    · obtain ⟨rfl, rfl⟩ := hq
      rw [resolveNode_confirmed hc' hboth (c := 0) (s := dropOpen n s) hv0 (resolveRow_secondary hp)] at hrun
      refine ⟨_, hrun, resolvesOnly_confirmed.raised _ _ _ _ _, ?_⟩
      rw [raiseOwn_alarm, raiseOwn_fault]
      exact ⟨rfl, fun h => absurd h hp, fun _ _ => ⟨rfl, rfl, rfl, rfl⟩, fun _ hq => absurd ⟨rfl, rfl⟩ hq⟩
    · rw [resolveNode_unresolved hc' hboth (resolveRow_neither hp hq)] at hrun
      refine ⟨_, hrun, resolvesOnly_unresolved.raised _ _ _ _ _, ?_⟩
      rw [raiseOwn_alarm, raiseOwn_fault]
      exact ⟨rfl, fun h => absurd h hp, fun _ h => absurd h hq, fun _ _ => ⟨rfl, rfl, rfl, rfl, rfl⟩⟩

end

section
/-! SUPPORT. One trigger of the Bell path: recognition, the start and the end of its message, and its repetitions (O34). -/

namespace Sys2Proof.Machine

/-! ### Trigger `n` of a state -/

/-- Trigger `n` stands as `y`. -/
def State.setTrig (s : State) (n : Nat) (y : BellTrig) : State := { s with bell := { s.bell with trigs := s.bell.trigs.set n y } }

theorem State.setTrig_at {s : State} {n : Nat} {x : BellTrig} (hx : s.bell.trigs[n]? = some x) (y : BellTrig) :
    (s.setTrig n y).bell.trigs[n]? = some y :=
  List.getElem?_set_self (List.getElem?_eq_some_iff.mp hx).1

theorem State.setTrig_setTrig (s : State) (n : Nat) (y z : BellTrig) : (s.setTrig n y).setTrig n z = s.setTrig n z := by
  simp only [State.setTrig, List.set_set]

theorem updTrig_setTrig {s : State} {n : Nat} {x : BellTrig} (hx : s.bell.trigs[n]? = some x) (y : BellTrig) (f : BellTrig → BellTrig) :
    (s.setTrig n y).updTrig n f = s.setTrig n (f y) := by
  rw [updTrig_eq (State.setTrig_at hx y)]
  exact State.setTrig_setTrig s n y (f y)

/-! ### The start of a message (R265) -/

theorem bellBegin_imageBad {s : State} {n : Nat} (hok : s.bell.imageOk = false) : bellBegin n s = s := by
  simp [bellBegin, hok]

/-- The message from its start, with the count of its mode. -/
def startedTrig (s : State) (n : Nat) (t : BellTrig) : BellTrig := { t with
  starts := min (t.starts + 1) 0xFFFFFFFF,
  play := { t.play with
    msg := trigMsg s n, pos := some 0, left := if trigMode s n = 2 then trigRepeats s n - 1 else 0, gapEnd := none, again := false } }

theorem bellBegin_starts {s : State} {n : Nat} (hok : s.bell.imageOk = true) (hlen : bellLength s.bell.store (trigMsg s n) ≠ 0) :
    bellBegin n s = s.updTrig n (startedTrig s n) := by
  have hlen' : bellLen48 s (trigMsg s n) ≠ 0 := by
    rw [bellLen48]
    omega
  exact if_neg (by simp [hok, hlen'])

/-- The parameters of a trigger are read from the committed values and the bell image alone. -/
theorem pN_bellTrig_congr {s u : State} (hv : u.vals = s.vals) (hb : u.bell.store = s.bell.store) (n tag : Nat) :
    pN u (.bellTrig n) tag = pN s (.bellTrig n) tag := by
  simp only [pN, pW, param, dfltOf, hv, hb]

theorem startedTrig_congr {s u : State} (hv : u.vals = s.vals) (hb : u.bell.store = s.bell.store) (n : Nat) :
    startedTrig u n = startedTrig s n := by
  have hmsg : trigMsg u n = trigMsg s n := pN_bellTrig_congr hv hb n 0x101
  have hmode : trigMode u n = trigMode s n := pN_bellTrig_congr hv hb n 0x102
  have hrepeats : trigRepeats u n = trigRepeats s n := pN_bellTrig_congr hv hb n 0x103
  funext t
  rw [startedTrig, startedTrig, hmsg, hmode, hrepeats]

/-- An event before the start leaves the start as it is. -/
theorem bellBegin_bellEvent {s : State} {n : Nat} (c : Nat) (hok : s.bell.imageOk = true) (hlen : bellLength s.bell.store (trigMsg s n) ≠ 0) :
    bellBegin n (bellEvent c n s) = (bellEvent c n s).updTrig n (startedTrig s n) := by
  have hbell := bellEvent_bell c n s
  have hstore : (bellEvent c n s).bell.store = s.bell.store := congrArg Bell.store hbell
  have hmsg : trigMsg (bellEvent c n s) n = trigMsg s n := pN_bellTrig_congr (bellEvent_vals c n s) hstore n 0x101
  rw [bellBegin_starts (by rw [hbell, hok]) (by rw [hstore, hmsg]; exact hlen), startedTrig_congr (bellEvent_vals c n s) hstore]

section
variable {s : State} {n : Nat} {x : BellTrig} (hx : s.bell.trigs[n]? = some x)
include hx

theorem trigAsserted_eq : trigAsserted s n = (x.pin || s.bell.sw.getLsbD n || trigSw s n) := by
  rw [trigAsserted, trigAt_eq hx]

theorem trigActive_eq : trigActive s n = (x.play.pos.isSome || x.play.gapEnd.isSome) := by
  rw [trigActive, trigAt_eq hx]

/-! ### Assertion and release (R264, R265) -/

theorem bellLook_steady (ha : trigAsserted s n = x.on) : bellLook n s = s := by
  rw [bellLook, trigAt_eq hx]
  exact if_pos ha

/-- An assertion is recognised; it starts the message unless the trigger plays or waits already. -/
theorem bellLook_asserted (ha : trigAsserted s n = true) (hoff : x.on = false) :
    bellLook n s = if trigActive s n
      then (bellEvent 0x4005 n (s.setTrig n { x with on := true })).updTrig n fun t => { t with play := { t.play with again := true } }
      else bellBegin n (bellEvent 0x4005 n (s.setTrig n { x with on := true })) := by
  have hactive : trigActive (bellEvent 0x4005 n (s.setTrig n { x with on := true })) n = trigActive s n := by
    have hat : (bellEvent 0x4005 n (s.setTrig n { x with on := true })).bell.trigs[n]? = some { x with on := true } := by
      rw [bellEvent_bell]
      exact State.setTrig_at hx _
    rw [trigActive_eq hat, trigActive_eq hx]
  have hset : (s.updTrig n fun t => { t with on := true }) = s.setTrig n { x with on := true } := updTrig_eq hx
  rw [← hactive, ← hset, bellLook, ha, trigAt_eq hx]
  simp [hoff]

theorem bellLook_released (ha : trigAsserted s n = false) (hon : x.on = true) (hok : s.bell.imageOk = true) (hmode : trigMode s n ≠ 0) :
    bellLook n s = s.setTrig n { x with on := false } := by
  have hset : (s.updTrig n fun t => { t with on := false }) = s.setTrig n { x with on := false } := updTrig_eq hx
  have hmode' : trigMode (s.setTrig n { x with on := false }) n ≠ 0 := hmode
  have hok' : (s.setTrig n { x with on := false }).bell.imageOk = true := hok
  rw [bellLook, ha, trigAt_eq hx]
  simp [hon, hset, hok', hmode']

/-- The fade-out of a voice of trigger `n` (R265). -/
def fadeVoice (n : Nat) (v : BellVoice) : BellVoice := if v.trig = n ∧ v.fade = none then { v with fade := some 16 } else v

/-- A release in mode 0 fades the message out where it sounds on a route. -/
theorem bellLook_releasedFading (ha : trigAsserted s n = false) (hon : x.on = true) (hok : s.bell.imageOk = true) (hmode : trigMode s n = 0)
    (hplay : x.play.pos ≠ none) (hvoice : ∃ r ∈ s.bell.routes, ∃ v ∈ r.voices, v.trig = n ∧ v.fade = none) :
    bellLook n s = { s with bell := { s.bell with
      trigs := s.bell.trigs.set n { x with on := false, play := { x.play with pos := none, gapEnd := none, again := false, fade := 16 } },
      routes := s.bell.routes.map fun r => { r with voices := r.voices.map (fadeVoice n) } } } := by
  have hset : (s.updTrig n fun t => { t with on := false }) = s.setTrig n { x with on := false } := updTrig_eq hx
  have hmode' : trigMode (s.setTrig n { x with on := false }) n = 0 := hmode
  have hok' : (s.setTrig n { x with on := false }).bell.imageOk = true := hok
  have hactive : trigActive (s.setTrig n { x with on := false }) n = true := by
    rw [trigActive_eq (State.setTrig_at hx _)]
    simp [Option.isSome_iff_ne_none.mpr hplay]
  have hsound : (s.setTrig n { x with on := false }).bell.routes.any (fun r => r.voices.any fun v => v.trig == n && v.fade.isNone) = true := by
    simpa [State.setTrig] using hvoice
  have hfade : fadeVoice n = fun v => if v.trig = n && v.fade.isNone then { v with fade := some 16 } else v := by
    funext v
    simp [fadeVoice]
  rw [bellLook, ha, trigAt_eq hx, hset, hfade]
  simp only [hon, hok', hmode', hactive, hsound, updTrig_setTrig hx]
  rfl

end

theorem exec_bellTrigRecognise_level {s : State} {n : Nat} {x : BellTrig} (hn : n < 4) (hx : s.bell.trigs[n]? = some x) (lv : Bool) :
    exec (.bellTrigRecognise n lv) s = .next (bellLook n (s.setTrig n { x with pin := lv })) := by
  have he : exec (.bellTrigRecognise n lv) s = execBellTrigRecognise n lv s := rfl
  rw [he, execBellTrigRecognise, if_pos hn, updTrig_eq hx]
  rfl

/-! ### The end of a repetition and of a gap (R265) -/

section
variable {s : State} {n : Nat} {x : BellTrig} (hx : s.bell.trigs[n]? = some x)
include hx

theorem exec_bellRepetitionEnd_due {k : Nat} (hpos : x.play.pos = some k) (hend : 3 * bellLength s.bell.store x.play.msg ≤ k) :
    exec (.bellRepetitionEnd n) s = .next (bellRepEnd n s.clk.nextSample s) := by
  have he : exec (.bellRepetitionEnd n) s = execBellRepetitionEnd n s := rfl
  have hdue : bellRepDue s n = true := by
    simp [bellRepDue, trigAt_eq hx, hpos, bellLen48, hend]
  rw [he, execBellRepetitionEnd, if_pos hdue]

theorem bellRepEnd_held {e : Nat} (hmode : trigMode s n = 0) (hon : x.on = true) (hgap : trigGap s n ≠ 0) :
    bellRepEnd n e s = s.setTrig n { x with play := { x.play with pos := none, gapEnd := some (e + trigGap s n), left := 0 } } := by
  simp [bellRepEnd, hmode, trigAt_eq hx, hon, hgap, updTrig_eq hx, State.setTrig]

theorem bellRepEnd_once {e : Nat} (hmode : trigMode s n = 1) (hagain : x.play.again = false) :
    bellRepEnd n e s = bellEvent 0x4006 n (s.setTrig n { x with play := { x.play with pos := none, gapEnd := none, left := 0, again := false } }) := by
  simp [bellRepEnd, hmode, trigAt_eq hx, hagain, bellStop, updTrig_eq hx, State.setTrig]

theorem bellRepEnd_counted {e : Nat} (hmode : trigMode s n = 2) (hagain : x.play.again = false) (hleft : x.play.left ≠ 0) (hgap : trigGap s n = 0) :
    bellRepEnd n e s = s.setTrig n { x with play := { x.play with pos := some 0, left := x.play.left - 1 } } := by
  simp [bellRepEnd, hmode, trigAt_eq hx, hagain, hleft, hgap, updTrig_eq hx, State.setTrig]

theorem exec_bellGapEnd_due {e : Nat} (hgap : x.play.gapEnd = some e) (he : e ≤ s.clk.tally) (hagain : x.play.again = false) :
    exec (.bellGapEnd n) s = .next (s.setTrig n { x with play := { x.play with pos := some 0, gapEnd := none } }) := by
  have hexec : exec (.bellGapEnd n) s = .next (bellGapOver n s) := rfl
  rw [hexec]
  simp [bellGapOver, trigAt_eq hx, hgap, he, hagain, updTrig_eq hx, State.setTrig]

end

end Sys2Proof.Machine

open Sys2Proof Sys2Proof.Machine

/-- Settles O34: a level is looked at once (`bellLook_steady`, `bellLook_asserted`, `bellLook_released`), and the end of a repetition goes by
the mode of the trigger (`bellRepEnd_held`, `bellRepEnd_once`, `bellRepEnd_counted`). -/
theorem bellTriggers : Obligations.BellTriggers := by
  unfold Obligations.BellTriggers
  rintro s n x set hn hx rfl
  refine ⟨fun lv now hnow => ?recognise, fun k gap hpos hend hgap => ?repetition, fun e hgap he hagain => exec_bellGapEnd_due hx hgap he hagain⟩
  case recognise =>
    rw [exec_bellTrigRecognise_level hn hx]
    have hpin := State.setTrig_at hx { x with pin := lv }
    have hlevel : trigAsserted (s.setTrig n { x with pin := lv }) n = now := by
      rw [trigAsserted_eq hpin, hnow]
      rfl
    have hactive : trigActive (s.setTrig n { x with pin := lv }) n = trigActive s n := by
      rw [trigActive_eq hpin, trigActive_eq hx]
    have hrise : now = true → x.on = false → _ := fun ha hoff => bellLook_asserted hpin (hlevel.trans ha) hoff
    refine ⟨fun h => ?steady, fun ha hoff hbad => ?imageBad, fun ha hoff hok hpos hgap hlen => ?starts, fun ha hon hok hmode => ?released,
      fun ha hon hok hmode hplay hvoice => ?fading⟩
    case steady => exact congrArg _ (bellLook_steady hpin (hlevel.trans h))
    case imageBad =>
      have hsilent : bellBegin n (bellEvent 0x4005 n (s.setTrig n { x with pin := lv, on := true }))
          = bellEvent 0x4005 n (s.setTrig n { x with pin := lv, on := true }) :=
        bellBegin_imageBad (by rw [bellEvent_bell]; exact hbad)
      rw [hrise ha hoff, hactive, State.setTrig_setTrig, hsilent]
      rfl
    case starts =>
      have hidle : trigActive s n = false := by simp [trigActive_eq hx, hpos, hgap]
      have hstart := bellBegin_bellEvent (s := s.setTrig n { x with pin := lv, on := true }) 0x4005 hok hlen
      rw [hrise ha hoff, hactive, hidle, if_neg Bool.false_ne_true, State.setTrig_setTrig, hstart]
      rfl
    case released =>
      rw [bellLook_released hpin (hlevel.trans ha) hon hok hmode, State.setTrig_setTrig]
      rfl
    case fading =>
      rw [bellLook_releasedFading hpin (hlevel.trans ha) hon hok hmode hplay hvoice]
      simp only [State.setTrig, List.set_set]
      rfl
  case repetition =>
    rw [exec_bellRepetitionEnd_due hx hpos hend, hgap]
    exact ⟨fun hmode hon hg => congrArg _ (bellRepEnd_held hx hmode hon hg), fun hmode hagain => congrArg _ (bellRepEnd_once hx hmode hagain),
      fun hmode hagain hleft hg => congrArg _ (bellRepEnd_counted hx hmode hagain hleft hg)⟩

end

section
/-! SUPPORT. A slot that issues, by its kind: what `runSlot` leaves where its operands break no rule (R287 to R290), and the results of the
MAC slot in a data register (O35, O36). -/

namespace Sys2Proof.Machine

/-! ### The three kinds of slot (R288 to R290) -/

section
variable {s : State} {sp : Nat} {o r : Core} {legal : Bool} {reads : List (CReg × Bool)} {writes : List (CReg × Nat × Nat)}
  {body : Core → Core × Option Nat}

theorem runSlot_ls (h : Issues s sp (lsOf reads writes) o) (hl : legal = true) (hb : body o = (r, none)) :
    runSlot sp (lsSpec legal reads writes) body s = .next (s.setCore sp (noteWrites (lsOf reads writes) r)) := by
  subst hl
  exact runSlot_next h hb

theorem runSlot_mac (h : Issues s sp (macOf reads writes) o) (hl : legal = true) (hb : body o = (r, none)) :
    runSlot sp (macSpec legal reads writes) body s = .next (s.setCore sp (noteWrites (macOf reads writes) r)) := by
  subst hl
  exact runSlot_next h hb

theorem runSlot_ctl (h : Issues s sp (ctlOf reads writes) o) (hl : legal = true) (hb : body o = (r, none)) :
    runSlot sp (ctlSpec legal reads writes) body s = .next (s.setCore sp (noteWrites (ctlOf reads writes) r)) := by
  subst hl
  exact runSlot_next h hb

theorem ctlSlot_next (h : Issues s sp (ctlOf reads writes) o) (hl : legal = true) (hb : body o = (r, none)) :
    ctlSlot sp (ctlSpec legal reads writes) body s = .next (s.setCore sp (noteWrites (ctlOf reads writes) (endBundle 0 r))) :=
  runSlot_ctl h hl (by rw [hb])

end

/-! ### Results in a data register (R275, R278) -/

section
variable {s : State} {sp x lat : Nat} {reads : List Nat} {f : Core → Word × Bool} {o : Core}
  (h : Issues s sp (macOf (dReads reads) [(.d x, lat, lat)]) o) (hx : x < 32) (hr : ∀ i ∈ reads, i < 32)
include h hx hr

theorem aluSlot_next : aluSlot sp reads x lat f s =
    .next (s.setCore sp (noteWrites (macOf (dReads reads) [(.d x, lat, lat)]) (regOp x (f o) o))) :=
  runSlot_mac h (by simpa [hx] using hr) rfl

/-- An exact result goes to d[X] as S says, and its overflow into OVR. -/
theorem aluSlot_exact {sat : Bool} {z : Int} (hf : f o = wordNarrow sat z) :
    aluSlot sp reads x lat f s = .next (s.setCore sp (aluDone (macOf (dReads reads) [(.d x, lat, lat)]) o x sat z)) := by
  rw [aluSlot_next h hx hr, hf, wordNarrow_eq]
  rfl

/-- A result that cannot overflow leaves OVR as it was. -/
theorem aluSlot_plain {v : Word} (hf : f o = (v, false)) :
    aluSlot sp reads x lat f s = .next (s.setCore sp (movDone (macOf (dReads reads) [(.d x, lat, lat)]) o x v)) := by
  rw [aluSlot_next h hx hr, hf, regOp, setOvr, Bool.or_false, Bool.or_false]
  rfl

end

theorem operand_lt32 {y : Nat} (hy : y < 32) : ∀ i ∈ [y], i < 32 := List.forall_mem_singleton.mpr hy

theorem operands_lt32 {y t : Nat} (hy : y < 32) (ht : t < 32) : ∀ i ∈ [y, t], i < 32 := List.forall_mem_cons.mpr ⟨hy, operand_lt32 ht⟩

/-! ### The exact results (R278) -/

theorem shiftCount_imm (c : Core) {t : Nat} (ht : t < 32) : shiftCount c true t = t := Nat.mod_eq_of_lt ht

theorem shiftCount_reg (c : Core) (t : Nat) : shiftCount c false t = (c.snap.rd t).toNat % 32 := fld_low _ 5

/-- The floor of a division by a power of two is the arithmetic shift. -/
theorem wi_ediv_pow (v : Word) (n : Nat) : wi (v.toInt / 2 ^ n) = v.sshiftRight n := by
  have hfloor : v.toInt / 2 ^ n = (v.sshiftRight n).toInt := by
    rw [BitVec.toInt_sshiftRight, Int.shiftRight_eq_div_pow]
    norm_cast
  rw [hfloor]
  exact BitVec.ofInt_toInt

theorem wi_min (v w : Word) : wi (min v.toInt w.toInt) = if v.slt w then v else w := by
  simp only [min_def_lt, BitVec.slt_eq_decide, decide_eq_true_eq]
  split <;> exact BitVec.ofInt_toInt

theorem wi_max (v w : Word) : wi (max v.toInt w.toInt) = if v.slt w then w else v := by
  simp only [max_def_lt, BitVec.slt_eq_decide, decide_eq_true_eq]
  split <;> exact BitVec.ofInt_toInt

theorem natAbs_toInt (v : Word) : (v.toInt.natAbs : Int) = if v.msb then -v.toInt else v.toInt := by
  simp only [BitVec.msb_eq_toInt, decide_eq_true_eq]
  split <;> omega

end Sys2Proof.Machine

open Sys2Proof Sys2Proof.Machine

/-- Settles O35: each is `aluSlot` with an exact result (`aluSlot_exact`); the floor of `shr` is a shift (`wi_ediv_pow`) and cannot overflow. -/
theorem spokeArithmetic : Obligations.SpokeArithmetic := by
  unfold Obligations.SpokeArithmetic
  intro s sp x y t sat o hx hy ht
  have hy1 := operand_lt32 hy
  have hyt := operands_lt32 hy ht
  have himm := shiftCount_imm o ht
  have hreg := shiftCount_reg o t
  refine ⟨fun h => ⟨?add, ?sub, ?shl, ?shr⟩, fun h => ?mulr, fun h => ⟨?shlImm, ?shrImm⟩⟩
  case add => show execAdd sp sat x y t s = _; exact aluSlot_exact h hx hyt rfl
  case sub => show execSub sp sat x y t s = _; exact aluSlot_exact h hx hyt rfl
  case shl => show execShl sp sat x y false t s = _; exact aluSlot_exact h hx hyt (by rw [hreg])
  case shr => show execShr sp x y false t s = _; exact aluSlot_plain h hx hyt (by rw [hreg, wi_ediv_pow])
  case mulr => show execMulr sp sat x y t s = _; exact aluSlot_exact h hx hyt rfl
  case shlImm => show execShl sp sat x y true t s = _; exact aluSlot_exact h hx hy1 (by rw [himm])
  case shrImm => show execShr sp x y true t s = _; exact aluSlot_plain h hx hy1 (by rw [himm, wi_ediv_pow])

/-- Settles O36: each is `aluSlot`, with a result that cannot overflow (`aluSlot_plain`) but for `abs` and `neg`. -/
theorem spokeLogic : Obligations.SpokeLogic := by
  unfold Obligations.SpokeLogic
  intro s sp x y t sat o hx hy ht
  have hy1 := operand_lt32 hy
  have hyt := operands_lt32 hy ht
  refine ⟨fun h => ⟨?and, ?or, ?xor, ?min, ?max⟩, fun h => ⟨?mov, ?abs, ?neg⟩⟩
  case and => show execAnd sp x y t s = _; exact aluSlot_plain h hx hyt rfl
  case or => show execOr sp x y t s = _; exact aluSlot_plain h hx hyt rfl
  case xor => show execXor sp x y t s = _; exact aluSlot_plain h hx hyt rfl
  case min => show execMin sp x y t s = _; exact aluSlot_plain h hx hyt (by rw [wi_min])
  case max => show execMax sp x y t s = _; exact aluSlot_plain h hx hyt (by rw [wi_max])
  case mov => show execMov sp x y s = _; exact aluSlot_plain h hx hy1 rfl
  case abs => show execAbs sp sat x y s = _; exact aluSlot_exact h hx hy1 (by rw [natAbs_toInt])
  case neg => show execNeg sp sat x y s = _; exact aluSlot_exact h hx hy1 rfl

end

section
/-! SUPPORT. Accumulations: a list of exact terms added to accumulators (R274, R275, R279), reductions of accumulators (R277), and registers
cleared (O37, O38, O39). -/

namespace Sys2Proof.Machine

/-! ### Lists of accumulations (R274, R275) -/

/-- Accumulations one after another are the terms of `accDone` in that order. -/
theorem foldl_accOp {sat z : Bool} {lane : Nat → Nat} {term : Nat → Int} (l : List Nat) (c : Core) :
    l.foldl (fun c j => accOp sat z (lane j) (term j) c) c = accDone c sat z (l.map fun j => (lane j, term j)) := by
  induction l generalizing c with
  | nil => rfl
  | cons j l ih =>
    rw [List.foldl_cons, ih, accOp_eq]
    rfl

theorem mac4_eq (sat z neg : Bool) (a : Nat) (xs ys : Nat → Word) (c : Core) :
    mac4 sat z neg a xs ys c = accDone c sat z
      ((List.range 4).map fun j => (a + j, (if neg then -1 else 1) * ((xs j).toInt * (ys j).toInt))) := by
  rw [mac4, foldl_accOp]
  simp only [prod_eq]

theorem mac4Legal_eq {a x y : Nat} (ha : a = 0 ∨ a = 4) (hx : x < 32) (hx4 : x % 4 = 0) (hy : y < 32) : mac4Legal a x y = true := by
  have hx' : x + 4 ≤ 32 := by omega
  rcases ha with rfl | rfl <;> simp [mac4Legal, hx', hx4, hy]

/-! ### The complex product (R279) -/

theorem cmacOp_eq (sat z neg conj : Bool) (a x y : Nat) (c : Core) :
    cmacOp sat z neg conj a x y c = { accDone c sat z
      [(a, (if neg then -1 else 1) * (cprod conj (c.snap.rd x) (c.snap.rd (x + 1)) (c.snap.rd y) (c.snap.rd (y + 1))).1),
       (a + 1, (if neg then -1 else 1) * (cprod conj (c.snap.rd x) (c.snap.rd (x + 1)) (c.snap.rd y) (c.snap.rd (y + 1))).2)]
      with cmac := true } := by
  simp only [cmacOp, accOp_eq]
  cases neg
  · simp only [Bool.false_eq_true, if_false, one_mul]
    rfl
  · simp only [if_true, neg_one_mul]
    rfl

theorem cmacLegal_eq {a x y : Nat} (ha : a < 8) (hx : x < 32) (hy : y < 32) (ha2 : a % 2 = 0) (hx2 : x % 2 = 0) (hy2 : y % 2 = 0) :
    cmacLegal a x y = true := by simp [cmacLegal, ha, hx, hy, ha2, hx2, hy2]

/-! ### Reductions (R277) -/

/-- Results written to consecutive data registers: OVR is set by any of them that overflows. -/
theorem foldl_regOp (x : Nat) (f : Regs → Nat → Word × Bool) (l : List Nat) (c : Core) :
    l.foldl (fun c j => regOp (x + j) (f c.snap j) c) c = { c with
      regs := { c.regs with d := l.foldl (fun d j => d.set (x + j) (f c.snap j).1) c.regs.d,
                            ovr := c.regs.ovr || l.any fun j => (f c.snap j).2 },
      setR := c.setR || l.any fun j => (f c.snap j).2 } := by
  induction l generalizing c with
  | nil => simp
  | cons j l ih =>
    rw [List.foldl_cons, ih]
    simp [regOp, setOvr, Regs.wrD, Bool.or_assoc]

/-! ### Accumulators cleared (R289) -/

theorem execAclr_next {s : State} {sp a n : Nat} {q : Bool} {o : Core} (hn : n = if q then 4 else 1)
    (h : Issues s sp (macOf [] ((List.range n).map fun j => (CReg.acc (a + j), 1, 2))) o) (ha : a < 8) (hq : q = true → a = 0 ∨ a = 4) :
    execAclr sp a q s = .next (s.setCore sp (noteWrites (macOf [] ((List.range n).map fun j => (CReg.acc (a + j), 1, 2)))
      { o with regs := (List.range n).foldl (fun r j => r.wrA (a + j) 0) o.regs })) := by
  subst hn
  have hlegal : (decide (a < 8) && (!q || a == 0 || a == 4)) = true := by
    cases q
    · simp [ha]
    · rcases hq rfl with rfl | rfl <;> rfl
  exact runSlot_mac (body := fun c => ({ c with regs := (List.range (if q then 4 else 1)).foldl (fun r j => r.wrA (a + j) 0) c.regs }, none))
    h hlegal rfl

end Sys2Proof.Machine

open Sys2Proof Sys2Proof.Machine

/-- Settles O37: the lanes are one list of accumulations (`mac4_eq`), which writes no data register, so the window
of `mac4.w` shifts what stood there. -/
theorem spokeMultiplyAccumulate : Obligations.SpokeMultiplyAccumulate := by
  unfold Obligations.SpokeMultiplyAccumulate
  rintro s sp a x y sat z neg o _ rfl hx hy
  refine ⟨?mac1, ?mac4V, ?mac4B, ?mac4W⟩
  case mac1 =>
    rintro _ ha rfl h
    show execMac1 sp sat a x y z neg s = _
    exact runSlot_mac h (by simp [ha, hx, hy]) (by rw [accOp_eq, prod_eq])
  case mac4V =>
    rintro _ ha hx4 hy4 rfl h
    show execMac4V sp sat a x y z neg s = _
    exact runSlot_mac h (by simp [mac4Legal_eq ha hx hx4 hy, hy4]) (by rw [mac4_eq])
  case mac4B =>
    rintro _ ha hx4 rfl h
    show execMac4B sp sat a x y z neg s = _
    exact runSlot_mac h (mac4Legal_eq ha hx hx4 hy) (by rw [mac4_eq])
  case mac4W =>
    rintro _ _ ha hx4 rfl h rfl
    show execMac4W sp sat a x y z neg s = _
    exact runSlot_mac h (mac4Legal_eq ha hx hx4 hy) (by simp only [mac4_eq]; rfl)

/-- Settles O38: both forms are `cmacOp`, two accumulations of one complex product (`cmacOp_eq`). -/
theorem spokeComplexMultiply : Obligations.SpokeComplexMultiply := by
  unfold Obligations.SpokeComplexMultiply
  intro s sp a x y sat z o re im hre him
  refine ⟨?slot, ?short⟩
  case slot =>
    rintro _ neg conj _ _ ha hx hy ha2 hx2 hy2 rfl rfl rfl h
    show execCmac sp sat a x y z neg conj s = _
    exact runSlot_mac h (cmacLegal_eq ha hx hy ha2 hx2 hy2) (by rw [cmacOp_eq, hre, him]; rfl)
  case short =>
    rintro _ _ ha hx hy hfree rfl h rfl
    have hlegal : cmacLegal (2 * a) (2 * x) (2 * y) = true :=
      cmacLegal_eq (by omega) (by omega) (by omega) (by omega) (by omega) (by omega)
    show execCmacShort sp sat a x y z s = _
    exact ctlSlot_next h hlegal (by simp [hfree, cmacOp_eq, cprod, hre, him])

/-- Settles O39: `red` and `red4` write exact results in turn (`foldl_regOp`); `aclr` writes zeros. -/
theorem spokeReduce : Obligations.SpokeReduce := by
  unfold Obligations.SpokeReduce
  intro s sp a x sat sh o red hred
  have hword (v : Int) : redWord sat v sh.toInt = (satWord sat (red v), wordOver (red v)) := by rw [redWord, wordNarrow_eq, redExact, hred]
  refine ⟨?red, ?red4, ?aclr, ?aclr4⟩
  case red =>
    intro ha hx h
    show execRed sp sat a x sh s = _
    exact runSlot_mac h (by simp [ha, hx]) (by rw [hword]; rfl)
  case red4 =>
    rintro _ ha hx hx4 rfl h
    have hx' : x + 4 ≤ 32 := by omega
    have hlegal : ((a == 0 || a == 4) && decide (x + 4 ≤ 32) && x % 4 == 0) = true := by
      rcases ha with rfl | rfl <;> simp [hx', hx4]
    show execRed4 sp sat a x sh s = _
    exact runSlot_mac h hlegal (by
      rw [foldl_regOp x (fun r j => redWord sat (r.ra (a + j)) sh.toInt)]
      simp only [hword])
  case aclr =>
    intro ha h
    show execAclr sp a false s = _
    exact execAclr_next rfl h ha nofun
  case aclr4 =>
    intro ha h
    show execAclr sp a true s = _
    exact execAclr_next rfl h (by omega) fun _ => ha

end

section
/-! SUPPORT. No-operations, immediates, address register moves and `flag` (O40): slots whose results are visible in the next cycle. -/

namespace Sys2Proof.Machine

/-! ### Writes noted (R291, R292) -/

/-- Results that the next bundle sees leave no flight. -/
theorem noteWrites_quick {k : SlotSpec} (c : Core) (h : ∀ w ∈ k.writes, w.2.2 ≤ 1) :
    noteWrites k c = { c with written := c.written ++ k.writes.map (·.1) } := by
  have hnone : (k.writes.filter fun w => decide (1 < w.2.2)) = [] :=
    List.filter_eq_nil_iff.mpr fun w hw => by simpa using h w hw
  simp [noteWrites, hnone]

theorem noteWrites_one {k : SlotSpec} {r : CReg} (c : Core) (h : k.writes = [(r, 1, 1)]) :
    noteWrites k c = { c with written := c.written ++ [r] } := by
  rw [noteWrites_quick c (by simp [h]), h]
  rfl

theorem noteWrites_nil {k : SlotSpec} (c : Core) (h : k.writes = []) : noteWrites k c = c := by
  rw [noteWrites_quick c (by simp [h]), h, List.map_nil, List.append_nil]

/-! ### Format B (R287) -/

theorem runSlot_movi {s : State} {sp : Nat} {o : Core} {r : CReg} {legal : Bool} {g : Core → Regs}
    (h : Issues s sp ⟨2, true, true, [], [(r, 1, 1)]⟩ o) (hl : legal = true) :
    runSlot sp ⟨2, true, legal, [], [(r, 1, 1)]⟩ (fun c => ({ c with regs := g c }, none)) s
      = .next (s.setCore sp { o with written := o.written ++ [r], regs := g o }) := by
  subst hl
  rw [runSlot_next h rfl, noteWrites_one _ rfl]

theorem moviAddr_next {s : State} {sp kind r : Nat} {o : Core} (imm : Word) (hr : r < 8)
    (h : Issues s sp ⟨2, true, true, [], [(addrName kind r, 1, 1)]⟩ o) :
    moviAddr sp kind r imm s = .next (s.setCore sp { o with
      written := o.written ++ [addrName kind r], regs := o.regs.setAddrReg kind r imm }) :=
  runSlot_movi h (decide_eq_true hr)

/-! ### `flag` (R275, R290) -/

theorem flagsWord_eq (ova ovr : Bool) :
    flagsWord ova ovr = BitVec.ofNat 32 ((if ova then 1 else 0) + (if ovr then 2 else 0)) := by
  cases ova <;> cases ovr <;> rfl

theorem flagAfter_kept (was set : Bool) : flagAfter false was set = was := rfl

theorem flagAfter_cleared (was : Bool) : flagAfter true was false = false := rfl

theorem execFlag_next {s : State} {sp d : Nat} {o : Core} (rd clrOvr clrOva : Bool) (hd : d < 32)
    (h : Issues s sp (ctlOf [] (if rd then [(.d d, 1, 1)] else [])) o) :
    execFlag sp rd d clrOvr clrOva s = .next (s.setCore sp { endBundle 0 o with
      written := o.written ++ (if rd then [.d d] else []),
      regs := { o.regs with
        d := if rd then o.regs.d.set d (flagsWord o.snap.ova o.snap.ovr) else o.regs.d,
        ova := flagAfter clrOva o.regs.ova o.setA, ovr := flagAfter clrOvr o.regs.ovr o.setR } }) := by
  have hquick : ∀ w ∈ (ctlOf [] (if rd then [(CReg.d d, 1, 1)] else [])).writes, w.2.2 ≤ 1 := by cases rd <;> simp [ctlOf]
  refine (ctlSlot_next h (decide_eq_true hd) rfl).trans ?_
  rw [noteWrites_quick _ hquick]
  cases rd <;> rfl

end Sys2Proof.Machine

open Sys2Proof Sys2Proof.Machine

/-- Settles O40: every result is visible in the next cycle (`noteWrites_one`); MOVI is a bundle of its own (`runSlot_movi`), and `flag` leaves a
flag it clears at the open value only where the bundle sets it (`flagAfter_cleared`). -/
theorem spokeMoves : Obligations.SpokeMoves := by
  unfold Obligations.SpokeMoves
  refine ⟨fun s sp r imm o => ⟨?lnop, ?mnop, ?cnop, ?moviD, fun hr => ⟨?moviP, ?moviN, ?moviRb, ?moviRl⟩,
    fun kind d hkind hr hd => ⟨?movpRead, ?movpWrite⟩⟩, ?flag⟩
  case lnop =>
    intro h
    show execLnop sp s = _
    rw [execLnop, runSlot_ls h rfl rfl, noteWrites_nil _ rfl]
  case mnop =>
    intro h
    show execMnop sp s = _
    rw [execMnop, runSlot_mac h rfl rfl, noteWrites_nil _ rfl]
  case cnop =>
    intro h
    show execCnop sp s = _
    rw [execCnop, ctlSlot_next h rfl rfl, noteWrites_nil _ rfl]
  case moviD =>
    intro hr h
    show execMoviD sp r imm s = _
    exact runSlot_movi h (decide_eq_true hr)
  case moviP => exact moviAddr_next (kind := 0) imm hr
  case moviN => exact moviAddr_next (kind := 1) imm hr
  case moviRb => exact moviAddr_next (kind := 2) imm hr
  case moviRl => exact moviAddr_next (kind := 3) imm hr
  case movpRead =>
    intro h
    show execMovp sp kind r true d s = _
    refine (ctlSlot_next h (by simp [hkind, hr, hd]) rfl).trans ?_
    rw [noteWrites_one _ rfl]
    rfl
  case movpWrite =>
    intro h
    show execMovp sp kind r false d s = _
    refine (ctlSlot_next h (by simp [hkind, hr, hd]) rfl).trans ?_
    rw [noteWrites_one _ rfl]
    rfl
  case flag =>
    rintro s sp d rd clrOvr clrOva o _ hd rfl h
    refine ⟨flagAfter clrOva o.regs.ova o.setA, flagAfter clrOvr o.regs.ovr o.setR, ?_, ?_, ?_, ?_, ?_⟩
    · rw [← flagsWord_eq]
      exact execFlag_next rd clrOvr clrOva hd h
    · rintro rfl; exact flagAfter_kept _ _
    · rintro rfl hset; rw [hset]; exact flagAfter_cleared _
    · rintro rfl; exact flagAfter_kept _ _
    · rintro rfl hset; rw [hset]; exact flagAfter_cleared _

end

section
/-! SUPPORT. The load/store slot: the words of an access, the pointer after it, and what a load and a store leave (O41, O42, O43). -/

namespace Sys2Proof.Machine

/-! ### The pointer after an access (R282, R283, R285) -/

/-- The pointers after an access through `p`, which had the pointers `ptrs`. -/
def ptrsAfter (r : Regs) (mode p n : Nat) (ptrs : List Word) : List Word := (postModify r mode p n).elim ptrs fun v => ptrs.set p v

theorem postMod_eq (mode p n : Nat) (c : Core) :
    postMod mode p n c = { c with regs := { c.regs with p := ptrsAfter c.snap mode p n c.regs.p } } := by
  unfold postMod ptrsAfter
  cases postModify c.snap mode p n <;> rfl

/-! ### Loads (R281, R286, R288) -/

theorem loadWords_eq {o : Core} {p n : Nat} {w : Nat → Word} (ha : ptrAligned o.snap p = true)
    (hm : ∀ i < n, mayAccess o (wordAddr o.snap p i) 4 false = true) (hw : ∀ i, w i = o.sram.word (wordAddr o.snap p i)) :
    loadWords o p n = some ((List.range n).map w) := by
  have hall : ((List.range n).map fun i => wordAddr o.snap p i).all (fun a => mayAccess o a 4 false) = true := by simpa using hm
  have hwords : ((List.range n).map fun i => wordAddr o.snap p i).map (fun a => o.sram.word a) = (List.range n).map w := by
    rw [List.map_map]
    exact List.map_congr_left fun i _ => (hw i).symm
  rw [loadWords, ha, hall, hwords]
  rfl

/-- `cnt` words go to d[D] and up, and the pointer is post-modified. -/
theorem loadSlot_next {s : State} {sp d p mode n cnt : Nat} {o : Core} {w : Nat → Word} (hp : p < 8) (hmode : mode < 3) (hn : n < 8)
    (ha : ptrAligned o.snap p = true) (hw : ∀ i, w i = o.sram.word (wordAddr o.snap p i)) (hd : d + cnt ≤ 32) (hcnt : d % cnt = 0)
    (hm : ∀ i < cnt, mayAccess o (wordAddr o.snap p i) 4 false = true)
    (h : Issues s sp (lsOf (addrReads p mode n) (addrWrites p mode ++ (List.range cnt).map fun i => (CReg.d (d + i), 3, 3))) o) :
    loadSlot sp d p mode n cnt s = .next (s.setCore sp (noteWrites
      (lsOf (addrReads p mode n) (addrWrites p mode ++ (List.range cnt).map fun i => (CReg.d (d + i), 3, 3))) { o with
        extra := o.extra + bankExtra ((List.range cnt).map (wordAddr o.snap p)),
        regs := { putRegs d ((List.range cnt).map w) o.regs with
          p := ptrsAfter o.snap mode p n (putRegs d ((List.range cnt).map w) o.regs).p } })) :=
  runSlot_ls h (by simp [hd, hcnt, hp, hmode, hn]) (by
    rw [loadWords_eq ha hm hw]
    simp only [postMod_eq, addExtra])

/-! ### Stores (R281, R286, R288) -/

/-- Memory `m` holds the words `w` at the addresses of an access through `p`, each byte from the last word that covers it, and is `old`
elsewhere. -/
def Stored (r : Regs) (p cnt : Nat) (w : Nat → Word) (old m : Mem) : Prop :=
  (∀ i j, i < cnt → j < 4 →
    (∀ i', i < i' → i' < cnt → ¬(wordAddr r p i' ≤ wordAddr r p i + j ∧ wordAddr r p i + j < wordAddr r p i' + 4)) →
    m.get (wordAddr r p i + j) = (w i).extractLsb' (8 * j) 8)
  ∧ ∀ a, (∀ i < cnt, ¬(wordAddr r p i ≤ a ∧ a < wordAddr r p i + 4)) → m.get a = old.get a

theorem storeWords_stored {o : Core} {p cnt : Nat} (w : Nat → Word) (ha : ptrAligned o.snap p = true)
    (hm : ∀ i < cnt, mayAccess o (wordAddr o.snap p i) 4 true = true) :
    ∃ m undo, storeWords o p ((List.range cnt).map w) = some { o with sram := m, undo := undo } ∧ Stored o.snap p cnt w o.sram m := by
  obtain ⟨undo, hstore⟩ := storeWords_eq o p w cnt ha hm
  refine ⟨_, undo, hstore, fun i j hi hj hlast => fold_put_at _ w cnt _ i j hi hj hlast, fun a hout => fold_put_other _ _ a ?_⟩
  simpa using hout

section
variable {s : State} {sp d p mode n : Nat} {o : Core} {w : Nat → Word} {m : Mem} {undo : List (Nat × Byte)}
  (hp : p < 8) (hmode : mode < 3) (hn : n < 8)
include hp hmode hn

/-- `cnt` words from d[D] and up are stored, and the pointer is post-modified. -/
theorem storeSlot_next {cnt : Nat} (hd : d + cnt ≤ 32) (hcnt : d % cnt = 0) (hw : ∀ i, w i = o.snap.rd (d + i))
    (hstore : storeWords o p ((List.range cnt).map w) = some { o with sram := m, undo := undo })
    (h : Issues s sp (lsOf (addrReads p mode n ++ (List.range cnt).map fun i => (CReg.d (d + i), false)) (addrWrites p mode)) o) :
    storeSlot sp d p mode n cnt s = .next (s.setCore sp (noteWrites
      (lsOf (addrReads p mode n ++ (List.range cnt).map fun i => (CReg.d (d + i), false)) (addrWrites p mode)) { o with
        extra := o.extra + bankExtra ((List.range cnt).map (wordAddr o.snap p)), sram := m, undo := undo,
        regs := { o.regs with p := ptrsAfter o.snap mode p n o.regs.p } })) := by
  obtain rfl : w = fun i => o.snap.rd (d + i) := funext hw
  exact runSlot_ls h (by simp [hd, hcnt, hp, hmode, hn]) (by
    rw [hstore]
    simp only [postMod_eq, addExtra])

/-- The three words of acc[D] are stored, the last one sign-extended, and the pointer is post-modified. -/
theorem execStA_next (hd : d < 8) (hw : ∀ i, w i = BitVec.ofInt 32 (o.snap.ra d / 2 ^ (32 * i)))
    (hstore : storeWords o p ((List.range 3).map w) = some { o with sram := m, undo := undo })
    (h : Issues s sp (lsOf (addrReads p mode n ++ [(.acc d, false)]) (addrWrites p mode)) o) :
    execStA sp d p mode n s = .next (s.setCore sp (noteWrites (lsOf (addrReads p mode n ++ [(.acc d, false)]) (addrWrites p mode)) { o with
      extra := o.extra + bankExtra ((List.range 3).map (wordAddr o.snap p)), sram := m, undo := undo,
      regs := { o.regs with p := ptrsAfter o.snap mode p n o.regs.p } })) := by
  have hwords : wordsOfAcc (o.snap.ra d) = (List.range 3).map w := by
    simp [wordsOfAcc, List.range_succ, hw, wi]
  exact runSlot_ls h (by simp [hd, hp, hmode, hn]) (by
    rw [hwords, hstore]
    simp only [postMod_eq, addExtra])

end

end Sys2Proof.Machine

open Sys2Proof Sys2Proof.Machine

/-- Settles O41: the words of an access are those at its word addresses (`loadWords_eq`), and the pointer is post-modified once they are written
(`postMod_eq`). -/
theorem spokeLoads : Obligations.SpokeLoads := by
  unfold Obligations.SpokeLoads
  intro s sp d p mode n o w ptr hp hmode hn ha hw hptr
  obtain rfl : ptr = ptrsAfter o.snap mode p n o.regs.p := by
    rw [hptr, ptrsAfter]
    cases postModify o.snap mode p n <;> rfl
  refine ⟨?ldW, ?ldD, ?ldQ, ?ldA, ?ldWW⟩
  case ldW =>
    rintro _ hd hm rfl h
    show execLdW sp d p mode n s = _
    exact loadSlot_next hp hmode hn ha hw (by omega) (Nat.mod_one d) (by simpa using hm) h
  case ldD =>
    rintro _ hd hd2 hm rfl h
    show execLdD sp d p mode n s = _
    exact loadSlot_next hp hmode hn ha hw (by omega) hd2 hm h
  case ldQ =>
    rintro _ hd hd4 hm rfl h
    show execLdQ sp d p mode n s = _
    exact loadSlot_next hp hmode hn ha hw (by omega) hd4 hm h
  case ldA =>
    rintro _ hd hm rfl h
    show execLdA sp d p mode n s = _
    exact runSlot_ls h (by simp [hd, hp, hmode, hn]) (by
      rw [loadWords_eq ha hm hw]
      simp only [postMod_eq, addExtra]
      rfl)
  case ldWW =>
    rintro _ db pb hd hdb hpb hdd hpp hb hma hmb rfl h
    show execLdWW sp d p db pb s = _
    exact runSlot_ls h (by simp [hd, hdb, hp, hpb, hdd, hpp]) (by
      rw [loadWords_eq ha (by simpa using hma) hw, loadWords_eq hb (by simpa using hmb) fun _ => rfl]
      simp only [postMod_eq, addExtra]
      rfl)

/-- Settles O42: a store that faults nowhere writes its words in order (`storeWords_stored`); the four forms differ in the words alone. -/
theorem spokeStores : Obligations.SpokeStores := by
  unfold Obligations.SpokeStores
  intro s sp d p mode n cnt o w ptr c reads k hp hmode hn ha hptr hm hc hk h
  obtain rfl : ptr = ptrsAfter o.snap mode p n o.regs.p := by
    rw [hptr, ptrsAfter]
    cases postModify o.snap mode p n <;> rfl
  subst hk
  obtain ⟨m, undo, hstore, hat, hout⟩ := storeWords_stored w ha hm
  refine ⟨m, undo, ?_, hat, hout⟩
  rcases hc with ⟨rfl, rfl, hd, rfl, hw⟩ | ⟨rfl, rfl, hd, hd2, rfl, hw⟩ | ⟨rfl, rfl, hd, hd4, rfl, hw⟩ | ⟨rfl, rfl, hd, rfl, hw⟩
  case inl =>
    show execStW sp d p mode n s = _
    exact storeSlot_next hp hmode hn (by omega) (Nat.mod_one d) hw hstore h
  case inr.inl =>
    show execStD sp d p mode n s = _
    exact storeSlot_next hp hmode hn (by omega) hd2 hw hstore h
  case inr.inr.inl =>
    show execStQ sp d p mode n s = _
    exact storeSlot_next hp hmode hn (by omega) hd4 hw hstore h
  case inr.inr.inr =>
    show execStA sp d p mode n s = _
    exact execStA_next hp hmode hn hd hw hstore h

/-- Settles O43: both addresses are folds into the rim (`rimFold_toNat`) of the pointer's address moved on. -/
theorem spokeRims : Obligations.SpokeRims := by
  unfold Obligations.SpokeRims
  rintro r p n i rb rl rfl rfl h0 hend
  have hrim : aligned4 (r.addrReg 3 p) ≠ 0 := Nat.pos_iff_ne_zero.mp h0
  constructor
  · rw [wordAddr, if_neg hrim]
    exact rimFold_toNat _ _ _ h0 hend
  · rw [postAdd, if_neg hrim]
    exact rimFold_toNat _ _ _ h0 hend

end

section
/-! SUPPORT. Hardware loops and branches (O44). -/

namespace Sys2Proof.Machine

/-! ### Control slots that write no register (R290) -/

/-- A control slot without a register result leaves what its body leaves. -/
theorem runSlot_control {s : State} {sp : Nat} {o r : Core} {legal : Bool} {reads : List (CReg × Bool)} {body : Core → Core × Option Nat}
    (h : Issues s sp (ctlOf reads []) o) (hl : legal = true) (hb : body o = (r, none)) :
    runSlot sp (ctlSpec legal reads []) body s = .next (s.setCore sp r) := by
  rw [runSlot_ctl h hl hb, noteWrites_nil _ rfl]

/-- The same for a slot that may not be in the last bundle of an active loop's body (R291). -/
theorem runSlot_inBody {s : State} {sp : Nat} {o r : Core} {legal : Bool} {reads : List (CReg × Bool)} {body : Core → Core × Option Nat}
    (hend : atLoopEnd o = false) (h : Issues s sp (ctlOf reads []) o) (hl : legal = true) (hb : body o = (r, none)) :
    runSlot sp (ctlSpec legal reads []) (fun c => if atLoopEnd c then (c, some 1) else body c) s = .next (s.setCore sp r) :=
  runSlot_control h hl (by rw [hend, if_neg Bool.false_ne_true, hb])

/-! ### Loops (R290, R294) -/

/-- The body of a loop whose count is 0 is skipped. -/
def skipLoop (level : Bool) (body : Nat) (c : Core) : Core :=
  let e := endBundle 2 { c with loops := c.loops.filter fun l => l.level != level }
  { e with pc := (e.pc + 8 * body) % 2 ^ 32 }

section
variable {s : State} {sp reg body count : Nat} {lv : Bool} {o : Core} (hend : atLoopEnd o = false) (hb : 1 ≤ body) (hb32 : body ≤ 32)
include hend hb hb32

theorem execLoop_next (hc : 1 ≤ count) (hc64 : count ≤ 64) (h : Issues s sp (ctlOf [] []) o) :
    execLoop sp lv body count s = .next (s.setCore sp (startLoop lv body count o)) :=
  runSlot_inBody hend h (by simp [hb, hb32, hc, hc64]) rfl

theorem execLoopr_next (hr : reg < 32) (h : Issues s sp (ctlOf (dReads [reg]) []) o) :
    execLoopr sp lv body reg s = .next (s.setCore sp
      (if (o.snap.rd reg).toNat % 65536 = 0 then skipLoop lv body o else startLoop lv body ((o.snap.rd reg).toNat % 65536) o)) := by
  have hcount : fld (o.snap.rd reg) 0 16 = (o.snap.rd reg).toNat % 65536 := fld_low _ 16
  refine runSlot_inBody hend h (by simp [hb, hb32, hr]) ?_
  rw [hcount]
  split <;> rfl

end

/-! ### Branches (R294) -/

theorem branchSlot_next {s : State} {sp bits : Nat} {off : Int} {reads : List Nat} {taken : Core → Bool} {o : Core}
    (hend : atLoopEnd o = false) (hoff : outBits bits off = false) (hr : ∀ i ∈ reads, i < 32) (h : Issues s sp (ctlOf (dReads reads) []) o) :
    branchSlot sp bits off reads taken s = .next (s.setCore sp (if taken o then branchTo off o else endBundle 0 o)) :=
  runSlot_inBody hend h (by simpa [hoff] using hr) (by split <;> rfl)

theorem outBits_twelve {off : Int} (hlo : -2048 ≤ off) (hhi : off < 2048) : outBits 12 off = false := by
  simp [outBits, hlo, hhi]

theorem outBits_seven {off : Int} (hlo : -64 ≤ off) (hhi : off < 64) : outBits 7 off = false := by
  simp [outBits, hlo, hhi]

end Sys2Proof.Machine

open Sys2Proof Sys2Proof.Machine

/-- Settles O44: outside the last bundle of a body each is one control slot (`runSlot_inBody`), which starts a loop, skips its body, branches or
goes on in sequence. -/
theorem spokeControl : Obligations.SpokeControl := by
  unfold Obligations.SpokeControl
  rintro s sp reg body count lv off o _ _ _ hend hb hb32 hr rfl rfl rfl
  refine ⟨fun hc hc64 h => ?loop, fun h => ⟨fun hn => ?loopr, fun hz => ?skip⟩, fun hlo hhi h => ?br, fun hlo hhi h => ⟨?bz, ?bnz⟩⟩
  case loop =>
    show execLoop sp lv body count s = _
    exact execLoop_next hend hb hb32 hc hc64 h
  case loopr =>
    show execLoopr sp lv body reg s = _
    rw [execLoopr_next hend hb hb32 hr h, if_neg hn]
    rfl
  case skip =>
    show execLoopr sp lv body reg s = _
    rw [execLoopr_next hend hb hb32 hr h, if_pos hz]
    rfl
  case br =>
    show execBr sp off s = _
    exact branchSlot_next hend (outBits_twelve hlo hhi) nofun h
  case bz =>
    show execBz sp reg off s = _
    rw [execBz, branchSlot_next hend (outBits_seven hlo hhi) (operand_lt32 hr) h]
    simp only [beq_iff_eq]
    rfl
  case bnz =>
    show execBnz sp reg off s = _
    rw [execBnz, branchSlot_next hend (outBits_seven hlo hhi) (operand_lt32 hr) h]
    simp only [bne_iff_ne, ite_not]
    rfl

end

section
/-! SUPPORT. Descriptors issued, waited for and moved (O45). -/

namespace Sys2Proof.Machine

/-! ### Issue and wait (R296 to R298) -/

/-- The descriptor that four words spell (R296). -/
def descOf (w0 w1 w2 w3 : Word) : DmaDesc :=
  { loc := w0.toNat, dram := decide (w1.toNat / 2 ^ 28 = 1), offset := w1.toNat % 2 ^ 28, len := w2.toNat, write := w3.getLsbD 0,
    moved := false }

/-- A descriptor that breaks no rule of R296 and R297 is the one its words spell. -/
theorem dmaCheck_accepts {s : State} {c : Core} {w0 w1 w2 w3 : Word} {q : DmaDesc} (hq : q = descOf w0 w1 w2 w3)
    (hres : w3.toNat / 2 = 0) (hregion : w1.toNat / 2 ^ 28 < 2) (hloc : q.loc % 4 = 0) (hoff : q.offset % 4 = 0) (hlen : q.len % 4 = 0)
    (hmin : 4 ≤ q.len) (hmax : q.len ≤ 65536) (hsize : q.offset + q.len ≤ regionSize s c q.dram)
    (harea : inAreas c.areas q.loc q.len (!q.write) = true) : dmaCheck s c w0 w1 w2 w3 = some q := by
  subst hq
  have hzero : fld w3 1 31 = 0 := by simp [fld, hres]
  have hspace : fld w1 28 4 = w1.toNat / 2 ^ 28 := Nat.mod_eq_of_lt (by omega)
  have hoffset : fld w1 0 28 = w1.toNat % 2 ^ 28 := fld_low w1 28
  unfold dmaCheck
  rw [hzero, hspace, hoffset]
  refine if_pos ?_
  simp only [Bool.and_eq_true, beq_iff_eq, decide_eq_true_eq, true_and]
  exact ⟨⟨⟨⟨⟨⟨⟨hregion, hloc⟩, hoff⟩, hlen⟩, hmin⟩, hmax⟩, hsize⟩, harea⟩

theorem execDma_next {s : State} {sp d : Nat} {o : Core} {q : DmaDesc} (hd : d < 32) (hd4 : d % 4 = 0)
    (hq : dmaCheck s o (o.snap.rd d) (o.snap.rd (d + 1)) (o.snap.rd (d + 2)) (o.snap.rd (d + 3)) = some q) (hroom : o.dmaq.length < 8)
    (h : Issues s sp (ctlOf (dReads [d, d + 1, d + 2, d + 3]) []) o) :
    execDma sp d s = .next (s.setCore sp (endBundle 0 { o with dmaq := o.dmaq ++ [q] })) := by
  refine runSlot_control h (by simp [hd, hd4]) ?_
  rw [hq]
  exact if_pos hroom

theorem execDwait_next {s : State} {sp k : Nat} {o : Core} (hk : k < 8) (h : Issues s sp (ctlOf [] []) o) :
    execDwait sp k s = .next (s.setCore sp
      (if o.dmaq.length ≤ k then endBundle 0 o else { o with stall := some { k := k, issue := none, since := s.clk.tally } })) :=
  runSlot_control h (decide_eq_true hk) (by split <;> rfl)

/-! ### The transfer (R296, R298) -/

theorem dmaMove_write {q : DmaDesc} (sram region : Mem) (h : q.write = true) : (dmaMove q sram region).1 = sram
    ∧ ∀ a, (dmaMove q sram region).2.get a
      = if q.offset ≤ a ∧ a < q.offset + q.len then sram.get (q.loc + (a - q.offset)) else region.get a := by
  rw [dmaMove, if_pos h]
  exact ⟨rfl, get_putRange region sram q.offset q.loc q.len⟩

theorem dmaMove_read {q : DmaDesc} (sram region : Mem) (h : q.write = false) : (dmaMove q sram region).2 = region
    ∧ ∀ a, (dmaMove q sram region).1.get a
      = if q.loc ≤ a ∧ a < q.loc + q.len then region.get (q.offset + (a - q.loc)) else sram.get a := by
  rw [dmaMove, if_neg (by simp [h])]
  exact ⟨rfl, get_putRange sram region q.loc q.offset q.len⟩

theorem releaseStall_of_none (s : State) {c : Core} (h : c.stall = none) : releaseStall s c = c := by rw [releaseStall, h]

/-- The region of a copy that a descriptor names. -/
def regionOf (q : DmaDesc) (r : InstCopy) : Mem := if q.dram then r.dram else r.hub

/-- The core after the transfer of its descriptor `i`, before a stall ends. -/
def movedCore (i : Nat) (q : DmaDesc) (r : InstCopy) (c : Core) : Core :=
  { c with sram := (dmaMove q c.sram (regionOf q r)).1, dmaq := (c.dmaq.set i { q with moved := true }).dropWhile DmaDesc.moved }

theorem execDmaComplete_next {s : State} {sp i : Nat} {c : Core} {q : DmaDesc} {p : List Name} {x : Inst} {r : InstCopy}
    (hc : s.coreAt sp = some c) (hq : c.dmaq[i]? = some q) (hp : c.inst = some p) (hmoved : q.moved = false) (hx : s.instAt p = some x)
    (hr : x.copies[c.copy]? = some r) :
    execDmaComplete sp i s = .next ((s.setCore sp (releaseStall s (movedCore i q r c))).updInst p fun x =>
      { x with copies := x.copies.set c.copy (if q.dram then { r with dram := (dmaMove q c.sram (regionOf q r)).2 }
          else { r with hub := (dmaMove q c.sram (regionOf q r)).2 }) }) := by
  simp [execDmaComplete, hc, hq, hp, hmoved, hx, hr, movedCore, regionOf]

end Sys2Proof.Machine

open Sys2Proof Sys2Proof.Machine

/-- Settles O45: a descriptor that breaks no rule is the one its words spell (`dmaCheck_accepts`); a transfer copies one range of bytes
(`dmaMove_write`, `dmaMove_read`), and the end of a stall touches no memory. -/
theorem spokeDma : Obligations.SpokeDma := by
  unfold Obligations.SpokeDma
  intro s sp d k i o c q p x r
  refine ⟨?dma, fun hk h => ⟨fun hfew => ?dwaitEnds, fun hmany => ?dwaitStalls⟩, ?complete⟩
  case dma =>
    intro hd hd4 hroom hres hregion hq hloc hoff hlen hmin hmax hsize harea h
    show execDma sp d s = _
    exact execDma_next hd hd4 (dmaCheck_accepts hq hres hregion hloc hoff hlen hmin hmax hsize harea) hroom h
  case dwaitEnds =>
    show execDwait sp k s = _
    rw [execDwait_next hk h, if_pos hfew]
  case dwaitStalls =>
    show execDwait sp k s = _
    rw [execDwait_next hk h, if_neg (Nat.not_le.mpr hmany)]
  case complete =>
    intro hc hq hp hmoved hx hr
    refine ⟨_, _, _, execDmaComplete_next hc hq hp hmoved hx hr, releaseStall_sram s _, releaseStall_regs s _, fun hstall => ?_,
      dmaMove_write c.sram (regionOf q r), fun hread => ?_⟩
    · rw [releaseStall_of_none s (c := movedCore i q r c) hstall]
      rfl
    · obtain ⟨hregion, hsram⟩ := dmaMove_read c.sram (regionOf q r) hread
      rw [hregion]
      exact ⟨rfl, hsram⟩

end

section
/-! SUPPORT. A user stage on a spoke: entered, ended by `exit`, drained, or stopped by a fault (O46, O47). -/

namespace Sys2Proof.Machine

/-! ### Entry, exit and drain (R300, R301, R308) -/

theorem execInstanceEntry_next {s : State} {sp t k : Nat} {p : List Name} {c : Core} {x : Inst} (hc : s.coreAt sp = some c)
    (ht : s.snd.running = some t) (hx : s.instAt p = some x) (hk : copyOn s (.inst p) sp = some k) (hfree : c.inst = none)
    (hfaulted : x.faulted = false) (hran : k ∉ x.ran) (hcomplete : sp ∉ s.snd.complete) (haborted : sp ∉ s.snd.aborted) :
    execInstanceEntry sp p s = .next ((s.setCore sp (enterCore s sp k p ((findKey (Node.inst p) (frameInputs s t)).getD []) c)).updInst p
      fun x => { x with ran := k :: x.ran }) := by
  simp [execInstanceEntry, hc, ht, hx, hk, hfree, hfaulted, hran, hcomplete, haborted]

theorem enterCore_sram (s : State) (sp copy : Nat) (p : List Name) (ins : List (List Int)) (c : Core) :
    (enterCore s sp copy p ins c).sram = fillAreas s sp copy p (instImage s p) ins c.sram := by rw [enterCore]

/-- OUTPUTS is zero when a stage is entered. -/
theorem enterCore_outputs (s : State) (sp copy : Nat) (p : List Name) (ins : List (List Int)) (c : Core) {i : Nat}
    (h : i < 64 * (imageHdr (instImage s p)).outputs) : (enterCore s sp copy p ins c).sram.get (Config.areaBase sp p 2 + i) = 0 := by
  rw [enterCore_sram]
  exact get_zeros _ _ _ _ h

theorem execExit_body {s : State} {sp : Nat} {p : List Name} {c o : Core} (hc : s.coreAt sp = some c) (hp : c.inst = some p)
    (hbody : c.mode = .body) (hend : atLoopEnd o = false) (h : Issues s sp (ctlOf [] []) o) :
    execExit sp s = .next (exitInst sp p { endBundle 0 o with mode := .drain } (s.setCore sp { endBundle 0 o with mode := .drain })) := by
  have hslot : runSlot sp (ctlSpec true [] []) (fun c => if atLoopEnd c then (c, some 1) else ({ endBundle 0 c with mode := .drain }, none)) s
      = .next (s.setCore sp { endBundle 0 o with mode := .drain }) := runSlot_inBody hend h rfl rfl
  simp only [execExit, hc, hp, hslot, setCore_get s sp c _ hc, hbody]
  rfl

theorem execInstanceDrainDone_next {s : State} {sp : Nat} {p : List Name} {c : Core} (hc : s.coreAt sp = some c) (hp : c.inst = some p)
    (hdrain : c.mode = .drain) (hq : c.dmaq = []) :
    execInstanceDrainDone sp s = .next (s.updSpoke sp fun y => { y with
      used := y.used + entryCycles (imageHdr (instImage s p)) + c.issue + 8, core := { c with inst := none, areas := [], mode := .firmware } }) := by
  simp [execInstanceDrainDone, hc, hp, hdrain, hq]

/-! ### Faults (R302) -/

theorem stageFault_inst {s : State} {sp : Nat} {p : List Name} {c : Core} (code : Nat) (hc : s.coreAt sp = some c) (hp : c.inst = some p) :
    stageFault sp code s = (s.setCore sp { dropBundle c with mode := .stopped, stall := none }).updInst p
      (instFault c.copy code (s.snd.running.getD 0 / 8192)) := by
  simp only [stageFault, hc, hp]

/-- A bundle without an effect so far leaves registers and memory as they were. -/
theorem dropBundle_fresh {c : Core} (hs : c.snap = c.regs) (hu : c.undo = []) : (dropBundle c).regs = c.regs ∧ (dropBundle c).sram = c.sram := by
  rw [dropBundle, hs, hu]
  exact ⟨rfl, rfl⟩

theorem setCore_spokes_other (s : State) {sp i : Nat} (c : Core) (h : i ≠ sp) : (s.setCore sp c).spokes[i]? = s.spokes[i]? :=
  List.getElem?_modify_ne _ _ h.symm

/-- The first copy to fault in the frame counts its fault and records its code. -/
theorem instFault_first {x : Inst} (hnow : x.now = []) (copy code frame : Nat) :
    (instFault copy code frame x).faults = min (x.faults + 1) 0xFFFFFFFF ∧ (instFault copy code frame x).code = code
      ∧ (instFault copy code frame x).now = [(copy, code)] := by
  simp [instFault, satAdd32, hnow]

/-- The state `u` is `s` with the stage `p` stopped on spoke `sp`, whose core was `c`, by the first fault of the frame, with this code. -/
def StoppedFrom (s u : State) (sp code : Nat) (p : List Name) (c : Core) (x : Inst) : Prop :=
  ∃ m y, u.coreAt sp = some m ∧ m.mode = .stopped ∧ m.regs = c.regs ∧ m.sram = c.sram
    ∧ u.instAt p = some y ∧ y.faults = min (x.faults + 1) 0xFFFFFFFF ∧ y.code = code ∧ y.now = [(c.copy, code)] ∧ y.copies = x.copies
    ∧ u = { s with spokes := u.spokes, insts := u.insts } ∧ ∀ i, i ≠ sp → u.spokes[i]? = s.spokes[i]?

section
variable {s : State} {sp : Nat} {p : List Name} {c : Core} {x : Inst} (hc : s.coreAt sp = some c) (hp : c.inst = some p)
  (hx : s.instAt p = some x) (hnow : x.now = [])
include hc hp hx hnow

/-- A fault of a stage whose bundle has not begun stops it. -/
theorem stageFault_stops {d : Core} (code : Nat) (hd : d = { c with snap := c.regs, undo := [], issue := d.issue }) :
    StoppedFrom s (stageFault sp code (s.setCore sp d)) sp code p c x := by
  have hcore : (s.setCore sp d).coreAt sp = some d := setCore_get s sp c d hc
  have hinst : d.inst = some p := by rw [hd]; exact hp
  have hcopy : d.copy = c.copy := by rw [hd]
  obtain ⟨hregs, hsram⟩ := dropBundle_fresh (c := d) (by rw [hd]) (by rw [hd])
  obtain ⟨hfaults, hcode, hown⟩ := instFault_first hnow c.copy code (s.snd.running.getD 0 / 8192)
  rw [stageFault_inst code hcore hinst, hcopy]
  refine ⟨_, _, setCore_get _ sp d _ hcore, rfl, hregs.trans (by rw [hd]), hsram.trans (by rw [hd]),
    updInst_get _ p _ x (fun _ => rfl) hx, hfaults, hcode, hown, rfl, rfl, fun i hi => ?_⟩
  exact (setCore_spokes_other _ _ hi).trans (setCore_spokes_other _ _ hi)

variable (hbody : c.mode = .body) (hstall : c.stall = none) (hrank : c.rank = 0)
include hbody hstall hrank

theorem execIllegalBundle_stops {bundle : BitVec 64} (hill : bundleIllegal (atLoopEnd c) bundle.toNat = true) :
    ∃ u, execIllegalBundle sp bundle s = .next u ∧ StoppedFrom s u sp 1 p c x := by
  have hruns : c.runs = true := by simp [Core.runs, hbody, hstall]
  refine ⟨_, ?_, stageFault_stops hc hp hx hnow 1 (d := { c with snap := c.regs, undo := [], issue := c.next }) rfl⟩
  simp [execIllegalBundle, hc, hruns, hrank, hill]

theorem execFenceReached_stops (hfence : c.fence < c.next) :
    ∃ u, execFenceReached sp s = .next u ∧ StoppedFrom s u sp 4 p c x := by
  refine ⟨_, ?_, stageFault_stops hc hp hx hnow 4 (d := { c with snap := c.regs, undo := [] }) rfl⟩
  simp [execFenceReached, hc, hstall, hrank, hp, hbody, hfence]

end

end Sys2Proof.Machine

open Sys2Proof Sys2Proof.Machine

/-- Settles O46: an entry clears the core (`enterCore`) and OUTPUTS with it (`enterCore_outputs`); `exit` leaves the rest to `exitInst`, and
the drain charges the cycles of entry, body and exit. -/
theorem spokeStages : Obligations.SpokeStages := by
  unfold Obligations.SpokeStages
  intro s sp t k p c o x
  refine ⟨?entry, ?exit, ?drain⟩
  case entry =>
    intro hc ht hx hk hfree hfaulted hran hcomplete haborted
    have he : exec (.instanceEntry sp p) s = execInstanceEntry sp p s := rfl
    exact ⟨_, he.trans (execInstanceEntry_next hc ht hx hk hfree hfaulted hran hcomplete haborted), rfl, rfl, rfl, rfl, rfl, rfl, rfl, rfl, rfl,
      rfl, rfl, fun i hi => enterCore_outputs s sp k p _ c hi⟩
  case exit =>
    intro hc hp hbody _ hend h
    have he : exec (.exit sp) s = execExit sp s := rfl
    exact ⟨_, _, he.trans (execExit_body hc hp hbody hend h), rfl, exitInst_eq _ _ _ _⟩
  case drain =>
    intro hc hp hdrain hq
    show execInstanceDrainDone sp s = _
    exact execInstanceDrainDone_next hc hp hdrain hq

/-- Settles O47: both stop the stage before its next bundle has begun (`stageFault_stops`), with code 1 and code 4. -/
theorem spokeFaults : Obligations.SpokeFaults := by
  unfold Obligations.SpokeFaults
  intro s sp bundle p c x hc hp hbody hstall hrank hx hnow
  refine ⟨fun hill => ?illegal, fun hfence => ?fence⟩
  case illegal =>
    have he : exec (.illegalBundle sp bundle) s = execIllegalBundle sp bundle s := rfl
    obtain ⟨u, hu, m, y, h⟩ := execIllegalBundle_stops hc hp hx hnow hbody hstall hrank hill
    exact ⟨u, m, y, he.trans hu, h⟩
  case fence =>
    have he : exec (.fenceReached sp) s = execFenceReached sp s := rfl
    obtain ⟨u, hu, m, y, h⟩ := execFenceReached_stops hc hp hx hnow hbody hstall hrank hfence
    exact ⟨u, m, y, he.trans hu, h⟩

end

section
/-! SUPPORT. A received period of a sample port: its edge, its samples, its slots and, on an AES3 input, its subframes (O48). -/

namespace Sys2Proof.Machine

/-! ### The edge of a period (R323, R324) -/

theorem nearEdge_iff (hz b k start : Nat) :
    nearEdge hz b k start = true ↔ (((start : Int) - b) * hz - k * 24576000).natAbs ≤ 8 * hz := by simp [nearEdge]

section
variable {p : PortSt} {hz start : Nat} {hold : Bool} {code : Nat}

/-- ACQUIRING: a clean period before the 480th. -/
theorem periodStep_acquiring (hstate : p.state = 1) (hclean : p.clean ≠ 0) (hmore : p.clean < 479)
    (hedge : nearEdge hz p.first p.clean start = true) :
    periodStep hz hold true code start p = { p with last := start, clean := p.clean + 1, count := 0 } := by
  have hnot : p.clean + 1 ≠ 480 := by omega
  have hle : p.clean + 1 ≤ 480 := by omega
  simp [periodStep, hstate, hclean, hedge, hnot, hle]

/-- LOCKED: a period at its predicted edge. -/
theorem periodStep_locked (hstate : p.state = 2) (hnone : p.anomaly = none)
    (hedge : nearEdge hz p.base (p.count + 1) start = true) :
    periodStep hz hold true code start p = { p with last := start, count := p.count + 1 } := by
  simp [periodStep, hstate, hnone, hedge]

/-- LOCKED: a period whose BCLK count or preamble is wrong. -/
theorem periodStep_anomaly (hstate : p.state = 2) (hnone : p.anomaly = none) :
    periodStep hz hold false code start p = { p with
      last := start, count := p.count + 1, anomaly := some (code, refInstant hz { p with last := start } (p.count + 1)) } := by
  simp [periodStep, hstate, hnone]

/-- MISMATCH: a good period begins the acquisition again. -/
theorem periodStep_mismatch (hstate : p.state = 3) :
    periodStep hz hold true code start p = { p with last := start, state := 1, clean := 1, first := start } := by
  simp [periodStep, hstate]

/-- DEAD, in HOLDOVER. -/
theorem periodStep_dead_holdover (hstate : p.state = 4) :
    periodStep hz true true code start p = { p with last := start } := by
  simp [periodStep, hstate]

end

/-! ### The samples of a TDM period (R318 to R320, R324, R346) -/

theorem fifoPush_room {hz start : Nat} {ws : List Int} {p : PortSt} (h : (p.fifo.length + 1) * ws.length ≤ 32) :
    fifoPush hz start ws p = ({ p with fifo := p.fifo ++ [(start, ws)] }, false) := by
  rw [fifoPush, if_neg (Nat.not_lt.mpr h)]

theorem fifoPush_full_unlocked {hz start : Nat} {ws : List Int} {p : PortSt} (h : 32 < (p.fifo.length + 1) * ws.length)
    (hstate : p.state ≠ 2) : fifoPush hz start ws p = (p, true) := by
  simp [fifoPush, h, hstate]

theorem maskedSlots_length (bits mask slots : Nat) (words : List Word) : (maskedSlots bits mask slots words).length = slots := by
  simp [maskedSlots]

theorem maskedSlots_eq (bits mask slots : Nat) (words : List Word) :
    maskedSlots bits mask slots words = (List.range slots).map fun i => if mask.testBit i = true then
      (words.getD i 0).toInt / 2 ^ (32 - bits) * 2 ^ (32 - bits) else 0 := by
  simp only [maskedSlots, bitOf_eq, slotSample]
  rfl

theorem slotChangeAt_none {x : SaiPort} (s : State) (start : Nat) (h : x.change = none) : slotChangeAt s start x = x := by
  simp [slotChangeAt, h]

theorem slotChangeAt_due {x : SaiPort} {b start : Nat} (s : State) (h : x.change = some b) (hdue : b ≤ start) :
    slotChangeAt s start x = { x with
      slots := pN s (.sai x.n) 0x105, rxMask := pN s (.sai x.n) 0x106, txMask := pN s (.sai x.n) 0x107, change := none } := by
  simp [slotChangeAt, h, hdue]

/-- The period part of TDM port `x`, numbered `n`, after this period. -/
def tdmStep (s : State) (n start bclks : Nat) (x : SaiPort) : PortSt :=
  periodStep (portHz s (.sai n)) s.clk.holdover (bclks == 32 * x.slots) 1 start x.st

/-- The samples that TDM port `x`, numbered `n`, takes from the slot words of a period. -/
def tdmSamples (s : State) (n : Nat) (words : List Word) (x : SaiPort) : List Int :=
  maskedSlots (pN s (.sai n) 0x103) x.rxMask x.slots words

section
variable {s : State} {n : Nat} {x : SaiPort} (hx : s.saiAt n = some x) (hchange : x.change = none) (start bclks : Nat) (words : List Word)
include hx hchange

/-- At 48 kHz the samples go to the FIFO, and `fifoPush` says whether they found room. -/
theorem execTdmPeriod_fifo (hhz : portHz s (.sai n) = 48000) {q : PortSt × Bool}
    (hq : fifoPush (portHz s (.sai n)) start (tdmSamples s n words x) (tdmStep s n start bclks x) = q) :
    execTdmPeriod n start bclks words s = .next (s.updSai n fun _ => { x with
      st := q.1, bcnt := min bclks 1023, slip := x.slip || q.2, excess := if q.2 then satAdd32 x.excess x.slots else x.excess }) := by
  subst hq
  simp only [execTdmPeriod, hx, slotChangeAt_none s start hchange]
  exact if_neg (not_not.mpr hhz)

theorem execTdmPeriod_room (hhz : portHz s (.sai n) = 48000)
    (hroom : ((tdmStep s n start bclks x).fifo.length + 1) * x.slots ≤ 32) :
    execTdmPeriod n start bclks words s = .next (s.updSai n fun _ => { x with
      st := { tdmStep s n start bclks x with
        fifo := (tdmStep s n start bclks x).fifo ++ [(start, tdmSamples s n words x)] }, bcnt := min bclks 1023 }) := by
  rw [execTdmPeriod_fifo hx hchange start bclks words hhz (fifoPush_room (by rwa [tdmSamples, maskedSlots_length]))]
  simp only [Bool.or_false, Bool.false_eq_true, if_false]

theorem execTdmPeriod_full (hhz : portHz s (.sai n) = 48000)
    (hfull : 32 < ((tdmStep s n start bclks x).fifo.length + 1) * x.slots) (hstate : (tdmStep s n start bclks x).state ≠ 2) :
    execTdmPeriod n start bclks words s = .next (s.updSai n fun _ => { x with
      st := tdmStep s n start bclks x, bcnt := min bclks 1023, slip := true, excess := min (x.excess + x.slots) 0xFFFFFFFF }) := by
  rw [execTdmPeriod_fifo hx hchange start bclks words hhz
    (fifoPush_full_unlocked (by rwa [tdmSamples, maskedSlots_length]) hstate)]
  simp only [Bool.or_true, if_true, satAdd32]

theorem execTdmPeriod_gear (hhz : portHz s (.sai n) ≠ 48000) :
    execTdmPeriod n start bclks words s = .next (gearFeed (.sai n) (tdmSamples s n words x) (s.updSai n fun _ => { x with
      st := tdmStep s n start bclks x, bcnt := min bclks 1023 })) := by
  simp [execTdmPeriod, hx, slotChangeAt_none s start hchange, hhz, tdmStep, tdmSamples]

end

/-- Two updates of TDM port `n` that agree on it are the same. -/
theorem updSai_congr {s : State} {n : Nat} {f g : SaiPort → SaiPort} (h : ∀ y ∈ s.sais, y.n = n → f y = g y) :
    s.updSai n f = s.updSai n g := by
  have hmap : (s.sais.map fun y => if y.n == n then f y else y) = s.sais.map fun y => if y.n == n then g y else y :=
    List.map_congr_left fun y hy => by
      by_cases hyn : y.n = n
      · simp [hyn, h y hy hyn]
      · simp [hyn]
  rw [State.updSai, hmap, State.updSai]

/-! ### A frame of an AES3 input out of block sync (R331, R333, R334) -/

theorem aesiAt_n {s : State} {n : Nat} {x : AesIn} (h : s.aesiAt n = some x) : x.n = n := by
  simpa using List.find?_some h

/-- A port replaced, then changed under its number, is replaced by the port as changed. -/
theorem updAesi_const {s : State} {n : Nat} {x : AesIn} {f : AesIn → AesIn} (hx : x.n = n) :
    (s.updAesi n fun _ => x).updAesi n f = s.updAesi n fun _ => f x := by
  have hmap : ((s.aesis.map fun y => if y.n == n then x else y).map fun y => if y.n == n then f y else y)
      = s.aesis.map fun y => if y.n == n then f x else y := by
    rw [List.map_map]
    refine List.map_congr_left fun y _ => ?_
    by_cases hy : y.n = n <;> simp [hx, hy]
  simp only [State.updAesi, hmap]

theorem mem_updAesi_const {s : State} {n : Nat} {x z : AesIn} (hz : z ∈ (s.updAesi n fun _ => x).aesis) (hn : z.n = n) : z = x := by
  obtain ⟨y, -, rfl⟩ := List.mem_map.mp (State.updAesi_aesis s n _ ▸ hz)
  by_cases hy : y.n = n
  · simp [hy]
  · simp [hy] at hn

theorem mem_updAesi_other {s : State} {n : Nat} {f : AesIn → AesIn} {z : AesIn} (hz : z ∈ s.aesis) (hn : z.n ≠ n) :
    z ∈ (s.updAesi n f).aesis := by
  rw [State.updAesi_aesis]
  exact List.mem_map.mpr ⟨z, hz, by simp [hn]⟩

theorem blockStep_unsynced {pre : Preamble} (h : pre ≠ .z) : blockStep pre none = (none, false, false) := by
  simp [blockStep, h]

/-- Outside block sync a channel takes the sample and V of its subframe, and collects no C bit. -/
def AesChan.unsynced (p : Nat) (f : Subframe) (c : AesChan) : AesChan := { subStep p f c with bits := [] }

/-- AES3 input `x`, out of block sync, after a frame of subframes `a` and `b`: its period part is `st`, and `p` is the frame's reference
instant. -/
def AesIn.unsynced (st : PortSt) (p : Nat) (a b : Subframe) (x : AesIn) : AesIn :=
  { x with
    st := st, chans := (x.chans.zip [a, b]).map fun e => e.1.unsynced p e.2, sinceZ := none,
    parity := satAdd32 x.parity ([a, b].filter Subframe.parity).length, biph := satAdd32 x.biph ([a, b].filter Subframe.biph).length,
    block := satAdd32 x.block 0,
    fresh := x.fresh + ([a, b].filter Subframe.parity).length + ([a, b].filter Subframe.biph).length,
    flags := x.flags ||| (b2n (([a, b].filter Subframe.parity).length != 0) + 2 * b2n (([a, b].filter Subframe.biph).length != 0)) }

/-- The channels of a frame take their subframes, and then no C bit. -/
theorem collectBit_unsynced {cs : List AesChan} (p : Nat) (a b : Subframe) (h : cs.length = 2) :
    ((((cs.zip [a, b]).map fun e => subStep p e.2 e.1).zip [a, b]).map fun e => collectBit none e.2.c e.1)
      = (cs.zip [a, b]).map fun e => e.1.unsynced p e.2 := by
  obtain ⟨c, d, rfl⟩ := List.length_eq_two.mp h
  rfl

/-- The frame changes its own input and, at another rate than 48 kHz, its gear channel. -/
theorem execAes3Frame_unsynced {s : State} {n : Nat} {x : AesIn} (start : Nat) {pre : Preamble} (a b : Subframe) (hx : s.aesiAt n = some x)
    (hsync : x.sinceZ = none) (hpre : pre ≠ .z) (hchans : x.chans.length = 2) :
    ∃ st p gears, execAes3Frame n start pre a b s = .next { s.updAesi n fun _ => x.unsynced st p a b with gears := gears } := by
  have hn : x.n = n := aesiAt_n hx
  simp only [execAes3Frame, hx, hsync, blockStep_unsynced hpre, Bool.false_eq_true, if_false]
  rw [updAesi_const (hx := ?own)]
  case own => exact hn
  simp only [collectBit_unsynced _ a b hchans]
  split
  · exact ⟨_, _, s.gears, rfl⟩
  split
  · exact ⟨_, _, _, rfl⟩
  · rw [updAesi_const (hx := ?own)]
    case own => exact hn
    exact ⟨_, _, s.gears, rfl⟩

/-- A count of two subframes. -/
theorem filter_pair_length (f : Subframe → Bool) (a b : Subframe) :
    ([a, b].filter f).length = (if f a then 1 else 0) + if f b then 1 else 0 := by
  cases ha : f a <;> cases hb : f b <;> simp [ha, hb]

/-- The sample of a subframe, aligned to the left of a word (R331). -/
theorem wd_sample_toInt (k : Nat) :
    (wd (256 * (k % 2 ^ 24))).toInt = ((256 * (k % 2 ^ 24) : Nat) : Int) - if 2 ^ 23 ≤ k % 2 ^ 24 then 2 ^ 32 else 0 := by
  have hlt : 256 * (k % 2 ^ 24) < 2 ^ 32 := by omega
  rw [wd, BitVec.toInt_eq_toNat_cond, BitVec.toNat_ofNat, Nat.mod_eq_of_lt hlt]
  split <;> split <;> omega

theorem subSample_eq (f : Subframe) (prev : Int) :
    subSample f prev = if f.parity || f.biph then prev
      else ((256 * (f.sample % 2 ^ 24) : Nat) : Int) - if 2 ^ 23 ≤ f.sample % 2 ^ 24 then 2 ^ 32 else 0 := by
  rw [subSample, wd_sample_toInt]

end Sys2Proof.Machine

open Sys2Proof Sys2Proof.Machine

/-- Settles O48: a TDM period and an AES3 frame move their port on by `periodStep`, one clause per state; the samples go by `fifoPush` or
`gearFeed`, the slots by `slotChangeAt`, and a frame out of block sync leaves `AesIn.unsynced`. -/
theorem portPeriods : Obligations.PortPeriods := by
  unfold Obligations.PortPeriods
  intro s n start
  refine ⟨?tdm, ?step, ?slots, ?aes⟩
  case tdm =>
    intro x bclks words st ws hx hchange hst hws
    have he : exec (.tdmPeriod n start bclks words) s = execTdmPeriod n start bclks words s := rfl
    obtain rfl : st = tdmStep s n start bclks x := hst
    obtain rfl : ws = tdmSamples s n words x := hws.trans (maskedSlots_eq _ _ _ _).symm
    rw [he]
    exact ⟨execTdmPeriod_room hx hchange start bclks words, execTdmPeriod_full hx hchange start bclks words,
      execTdmPeriod_gear hx hchange start bclks words⟩
  case step =>
    intro hz hold code p
    refine ⟨fun hstate hclean hmore hedge => ?acquiring, fun hstate hnone hedge => ?locked, periodStep_anomaly, periodStep_mismatch, ?dead⟩
    case acquiring => exact periodStep_acquiring hstate hclean hmore ((nearEdge_iff _ _ _ _).mpr hedge)
    case locked => exact periodStep_locked hstate hnone ((nearEdge_iff _ _ _ _).mpr hedge)
    case dead => rintro hstate rfl; exact periodStep_dead_holdover hstate
  case slots =>
    intro x b huniq hn hchange hdue
    have he : exec (.slotChange n start) s = .next (s.updSai n (slotChangeAt s start)) := rfl
    exact he.trans (congrArg _ (updSai_congr fun y hy hyn => by rw [huniq y hy hyn, slotChangeAt_due s hchange hdue, hn]))
  case aes =>
    intro x pre a b hx hsync hpre _ hchans
    have he : exec (.aes3Frame n start pre a b) s = execAes3Frame n start pre a b s := rfl
    obtain ⟨st, p, gears, hnext⟩ := execAes3Frame_unsynced start a b hx hsync hpre hchans
    refine ⟨_, x.unsynced st p a b, he.trans hnext, rfl, fun z hz hzn => mem_updAesi_const hz hzn, fun z hz hzn => mem_updAesi_other hz hzn,
      ?parity, ?biph, rfl, rfl, ?prev, ?v⟩
    case parity => rw [← filter_pair_length]; rfl
    case biph => rw [← filter_pair_length]; rfl
    case prev =>
      rw [AesIn.unsynced, List.map_map]
      exact List.map_congr_left fun e _ => subSample_eq e.2 e.1.prev
    case v =>
      rw [AesIn.unsynced, List.map_map]
      rfl

end

section
/-! SUPPORT. The gear commands: the end of WARMUP and of a filter fade, on the one gear channel of an identifier (O50). -/

namespace Sys2Proof.Machine

/-! ### A gear channel looked up after an update or an event -/

theorem gearAt_id {s : State} {id : GearId} {g : Gear} (h : s.gearAt id = some g) : g.id = id := by
  simpa using List.find?_some h

/-- An update that keeps the identifiers changes the gear channel that a lookup finds. -/
theorem gearAt_updGear {s : State} {id : GearId} {g : Gear} {f : Gear → Gear} (h : s.gearAt id = some g) (hf : ∀ x, (f x).id = x.id) :
    (s.updGear id f).gearAt id = some (f g) := by
  have hpred : ((fun x : Gear => x.id == id) ∘ fun x => if x.id == id then f x else x) = fun x => x.id == id := by
    funext x
    simp only [Function.comp]
    split
    · rw [hf]
    · rfl
  have hfind : s.gears.find? (fun x => x.id == id) = some g := h
  rw [State.gearAt, State.updGear_gears, List.find?_map, hpred, hfind]
  simp [gearAt_id h]

@[simp] theorem gearAt_raiseOwn (c : Nat) (k : StampKind) (t : Nat) (n : Option Node) (d : Nat) (s : State) (id : GearId) :
    (raiseOwn c k t n d s).gearAt id = s.gearAt id :=
  raiseOwn_keep (fun s => s.gearAt id) (fun _ _ _ _ _ => rfl) c k t n d s

/-- Where every gear channel of an identifier is `g`, an update replaces it by `f g`. -/
theorem updGear_unique {s : State} {id : GearId} {g : Gear} (huniq : ∀ x ∈ s.gears, x.id = id → x = g) (f : Gear → Gear) :
    s.updGear id f = { s with gears := s.gears.map fun x => if x.id = id then f g else x } := by
  have hmap : (s.gears.map fun x => if x.id == id then f x else x) = s.gears.map fun x => if x.id = id then f g else x :=
    List.map_congr_left fun x hx => by
      by_cases hid : x.id = id
      · simp [huniq x hx hid]
      · simp [hid]
  rw [State.updGear, hmap]

/-! ### The end of WARMUP (R351) -/

section
variable {s : State} {id : GearId} {g : Gear} (hg : s.gearAt id = some g)
include hg

theorem endWarm_of_not_warming (hw : g.warmTo = none) : endWarm id s = s := by
  simp [endWarm, hg, hw]

/-- At or after the first block without WARMUP, a channel that is no microphone's leaves WARMUP. -/
theorem endWarm_over {w : Nat} (hw : g.warmTo = some w) (hover : w ≤ lastBoundary s) (hmic : ∀ k, id ≠ .pdm k) :
    endWarm id s = raiseOwn 0x6002 .block (lastBoundary s) (some (gearNode id)) g.warmAll
      (s.updGear id fun x => { x with warmTo := none, rampAt := if x.byLock then some w else none }) := by
  cases id with
  | sai n => simp [endWarm, hg, hw, hover]
  | aesi n => simp [endWarm, hg, hw, hover]
  | pdm n => exact absurd rfl (hmic n)

/-! ### The end of a filter fade (R181, R349) -/

/-- A fade that has run its length ends; where no request is pending, none starts. -/
theorem settleFilter_due (hrun : g.filter.len ≠ 0) (hdone : g.filter.len ≤ g.filter.pos) (hidle : g.filter.pending = none) :
    settleFilter id s = raiseOwn 0x6004 .boundary (lastBoundary s) (some (gearNode id)) g.filter.new
      (s.updGear id fun x => { x with filter := x.filter.finish }) := by
  have hdue : g.filter.due = true := by simp [Fade.due, hrun, hdone]
  have hafter : (s.updGear id fun x => { x with filter := x.filter.finish }).gearAt id = some { g with filter := g.filter.finish } :=
    gearAt_updGear hg fun _ => rfl
  have hstill : g.filter.finish.pending = none := hidle
  simp [settleFilter, hg, hdue, hafter, hstill]

end

/-! ### The commands -/

section
variable {s : State} (hframe : s.clk.tally % 8192 = 0)
include hframe

theorem exec_gearWarm (id : GearId) : exec (.gearWarm id) s = .next (endWarm id s) := by
  have he : exec (.gearWarm id) s = execGearWarm id s := rfl
  rw [he, execGearWarm, if_pos (atFrame_iff hframe)]

theorem exec_gearFadeDone (id : GearId) : exec (.gearFadeDone id) s = .next (settleFilter id s) := by
  have he : exec (.gearFadeDone id) s = execGearFadeDone id s := rfl
  rw [he, execGearFadeDone, if_pos (atFrame_iff hframe)]

end

/-- 30 000 frames after the last gear fault, code 8 clears (R540). -/
theorem exec_gearFaultClear {s : State} {t : Nat} (hfault : s.ladder.gearFaultAt = some t) (hage : t + 30000 * 8192 ≤ s.clk.tally) :
    exec .gearFaultClear s = .next { s with ladder := { s.ladder with gearFaultAt := none } } := by
  have he : exec .gearFaultClear s = execGearFaultClear s := rfl
  rw [he, execGearFaultClear, hfault]
  exact if_pos ((frames_eq 30000).symm ▸ hage)

end Sys2Proof.Machine

open Sys2Proof Sys2Proof.Machine

/-- Settles O50: at a frame boundary the gear commands are `endWarm` and `settleFilter`, whose updates meet one channel (`updGear_unique`). -/
theorem gearRules : Obligations.GearRules := by
  unfold Obligations.GearRules
  intro s id g hg huniq hframe
  refine ⟨fun w hw hover hmic => ?warm, fun hw => ?notWarming, fun hrun hdone hidle => ?fade, fun t => exec_gearFaultClear⟩
  case warm =>
    have hover' : w ≤ lastBoundary s := (lastBoundary_eq hframe).symm ▸ hover
    rw [exec_gearWarm hframe, endWarm_over hg hw hover' hmic, lastBoundary_eq hframe, updGear_unique huniq]
  case notWarming => rw [exec_gearWarm hframe, endWarm_of_not_warming hg hw]
  case fade =>
    rw [exec_gearFadeDone hframe, settleFilter_due hg hrun hdone hidle, lastBoundary_eq hframe, updGear_unique huniq]
    rfl

end

section
/-! SUPPORT. The hand-off of a stream's packet, the loss of a path of a pair, and MEDIA_OFFSET as it is set and changed (O54). -/

namespace Sys2Proof.Machine

/-! ### The hand-off of a packet (R369, R380, R390) -/

/-- The stream whose packet has been handed over: no packet is full, and the numbers of the next one are one higher. -/
def TxStream.handedOff (x : TxStream) : TxStream :=
  { x with ready := none, seq := (x.seq + 1) % 65536, rseq := (x.rseq + 1) % 65536, packets := (x.packets + 1) % 2 ^ 32 }

/-- A full packet goes to its queue on each MAC on which the stream travels. -/
theorem exec_streamPacketHandoff {s : State} {n k q0 : Nat} {x : TxStream} {smp : List (List Int)}
    (hx : (s.net.txs.find? fun x => x.mac == n && x.s == k) = some x) (hready : x.ready = some (q0, smp)) :
    exec (.streamPacketHandoff n k) s = .next (((streamMacs s n (pN s (.tx n k) 0x10B == 1)).foldl
      (fun t mac => pushTx mac (txQueue (classOf s (.tx n k))) (packetFrame s x mac q0 smp) t) s).updTx k TxStream.handedOff) := by
  have he : exec (.streamPacketHandoff n k) s = execStreamPacketHandoff n k s := rfl
  rw [he, execStreamPacketHandoff, hx]
  simp only [hready]
  rfl

theorem streamMacs_single (s : State) (n : Nat) : streamMacs s n false = [n] := rfl

theorem streamMacs_pair {s : State} {n p : Nat} (hp : cbPartner s n = some p) : streamMacs s n true = [n, p] := by
  simp [streamMacs, hp]

/-! ### A silent path (R382) -/

/-- The MAC not heard for 300 frames is reported once, where another was heard since. -/
theorem exec_cbPathLost {s : State} {k mac t : Nat} {x : RxStream} (hx : s.rxAt k = some x) (helim : pN s (.rx x.mac k) 0x112 = 1)
    (hmac : mac ∈ streamMacs s x.mac true) (hheard : findKey mac x.cb.heard = some t) (hsilent : t + 300 * 8192 ≤ s.clk.tally)
    (hother : ∃ h ∈ x.cb.heard, h.1 ≠ mac ∧ s.clk.tally < h.2 + 300 * 8192) (hlost : x.cb.lost = none) :
    exec (.cbPathLost k mac) s = .next (raiseOwn 0x700A .detect s.clk.tally (some (.rx x.mac k)) mac
      (s.updRx k fun x => { x with cb := { x.cb with lost := some mac } })) := by
  have he : exec (.cbPathLost k mac) s = execCbPathLost k mac s := rfl
  have hany : (x.cb.heard.any fun h => h.1 != mac && decide (s.clk.tally < h.2 + 300 * 8192)) = true := by simpa using hother
  rw [he, execCbPathLost, hx]
  simp only [frames_eq]
  rw [hany]
  simp [helim, hmac, hheard, hsilent, hlost]

theorem updRx_eq (s : State) (k : Nat) (f : RxStream → RxStream) :
    s.updRx k f = { s with net := { s.net with rxs := s.net.rxs.map fun x => if x.s = k then f x else x } } := by
  simp [State.updRx]

/-! ### MEDIA_OFFSET (R386) -/

/-- MEDIA_OFFSET is valid, and receive streams place their samples under it. -/
def State.withOffset (off : Nat) (s : State) : State := { s with net := { s.net with offset := some off, rxOffset := off } }

theorem RaisedOnly.withOffset {s t : State} (h : RaisedOnly s t) (off : Nat) : RaisedOnly (s.withOffset off) (t.withOffset off) := by
  unfold RaisedOnly at h ⊢
  rw [h]
  rfl

/-- A port that enters another PTP state changes nothing but that, and raises its event (R384). -/
theorem raisedOnly_ptpState {s : State} {n st : Nat} {m : Mac} (hm : s.net.macs[n]? = some m) (hst : m.ptp ≠ st) :
    RaisedOnly { s with net := { s.net with macs := s.net.macs.set n { m with ptp := st } } } (ptpState n st s) := by
  rw [ptpState, macAt_eq hm, if_neg hst, updMac_eq hm]
  exact raisedOnly_raiseOwn _ _ _ _ _ _

section
variable {s : State} (hframe : s.clk.tally % 8192 = 0) (hptp : pN s (.ptp 0) 0x110 = 0)
include hframe hptp

theorem exec_mediaOffsetSet {n : Nat} (hservo : servoPort s = some n) (hunset : s.net.offset = none) (off : Nat) :
    exec (.mediaOffsetSet off) s = .next ((ptpState n 3 s).withOffset (off % 2 ^ 64)) := by
  have he : exec (.mediaOffsetSet off) s = execMediaOffsetSet off s := rfl
  rw [he, execMediaOffsetSet, hservo]
  simp only [atFrame_iff hframe, hunset, hptp]
  rfl

theorem exec_mediaOffsetChanged {o : Nat} (hset : s.net.offset = some o) (off : Nat) :
    exec (.mediaOffsetChanged off) s = .next (changeOffset (off % 2 ^ 64) s) := by
  have he : exec (.mediaOffsetChanged off) s = execMediaOffsetChanged off s := rfl
  rw [he, execMediaOffsetChanged]
  simp only [atFrame_iff hframe, hset, hptp]
  rfl

end

/-- Every receive stream takes no sample before tick `t` (R386). -/
def State.quietRx (t : Nat) (s : State) : State :=
  { s with net := { s.net with rxs := s.net.rxs.map fun x => { x with quietTo := some t } } }

/-- A change of MEDIA_OFFSET at boundary `u` marks every receive stream for two frames from `u`. -/
theorem raisedOnly_changeOffset (s : State) (off : Nat) :
    RaisedOnly ((s.withOffset off).quietRx (lastBoundary s + 2 * 8192)) (changeOffset off s) := by
  simp only [changeOffset, frames_eq]
  exact raisedOnly_raiseNode _ _ _ _ _ _ _ _

end Sys2Proof.Machine

open Sys2Proof Sys2Proof.Machine

/-- Settles O54: a packet goes to the MACs of `streamMacs`, one or a pair; MEDIA_OFFSET changes what `withOffset` and `quietRx` change, and
what the event raised with it does (`RaisedOnly`). -/
theorem netStreams : Obligations.NetStreams := by
  unfold Obligations.NetStreams
  intro s
  refine ⟨?single, ?pair, ?lost, ?set, ?changed⟩
  case single =>
    intro n k x q0 smp hx hready hrep
    rw [exec_streamPacketHandoff hx hready, beq_false_of_ne hrep, streamMacs_single]
    rfl
  case pair =>
    intro n k x q0 smp hx hready hrep p hp
    rw [exec_streamPacketHandoff hx hready, beq_iff_eq.mpr hrep, streamMacs_pair hp]
    rfl
  case lost =>
    intro k mac x t hx helim hmac hheard hsilent hother hlost
    rw [exec_cbPathLost hx helim hmac hheard hsilent hother hlost, updRx_eq]
  case set =>
    intro off n m hframe hservo hm hfollowing hunset hptp
    exact ⟨_, exec_mediaOffsetSet hframe hptp hservo hunset off, (raisedOnly_ptpState hm hfollowing).withOffset _⟩
  case changed =>
    intro off o hframe hset hptp
    have hchange := raisedOnly_changeOffset s (off % 2 ^ 64)
    rw [lastBoundary_eq hframe] at hchange
    exact ⟨_, exec_mediaOffsetChanged hframe hptp hset off, hchange⟩

end

section
/-! SUPPORT. The upkeep of the DRAM, one command under its condition at a time: refresh and training of a channel, its window of
activates, the set point, and the marks on waiting transactions (O55). -/

namespace Sys2Proof.Machine

/-- Channel `ch` stands so. -/
def State.withCh (s : State) (ch : Nat) (x : DramCh) : State := { s with dram := { s.dram with channels := s.dram.channels.set ch x } }

/-- A channel once a pass has ended: the eyes of the set point are the ones found, and an eye of 0 fails the channel (R434, R436). -/
def DramCh.trainedAt (sp : Nat) (eyes : List Nat) (c : DramCh) : DramCh :=
  { c with gather := none, eyes := (sp, eyes) :: c.eyes.filter (fun e => e.1 ≠ sp),
           failing := if 0 ∈ eyes ∧ c.failing = none then some 4 else c.failing }

/-- Skewed windows in a row, the one that ends counted: one is skewed where a bank has more than a quarter of
the activates, `top` (R431). -/
def DramCh.skewedRun (top : Nat) (c : DramCh) : Nat := if c.skew.sum < 4 * top then c.skewRun + 1 else 0

/-- A channel whose window of activates is closed at tally `t`, the last `run` of them skewed (R431). -/
def DramCh.windowClosed (t run : Nat) (c : DramCh) : DramCh := { c with skew := List.replicate 8 0, skewAt := t, skewRun := run }

section
variable {s : State} {ch : Nat} {c : DramCh} (hc : s.dram.channels[ch]? = some c)
include hc

theorem updCh_withCh (f : DramCh → DramCh) : s.updCh ch f = s.withCh ch (f c) := updCh_eq hc f

/-! ### Refresh and the delays (R424, R425, R433) -/

section
variable (hlt : ch < 2)
include hlt

theorem exec_mr4Poll {f : Nat} (hf : f = 1 ∨ f = 2 ∨ f = 4) : exec (.mr4Poll ch f) s = .next (s.withCh ch { c with mr4 := f }) := by
  have he : exec (.mr4Poll ch f) s = execMr4Poll ch f s := rfl
  rw [he, execMr4Poll, if_pos (by simpa [hlt, or_assoc] using hf), updCh_withCh hc]

theorem exec_dqsOscTrack (d : Nat) : exec (.dqsOscTrack ch d) s = .next (s.withCh ch { c with delayNext := some d }) := by
  have he : exec (.dqsOscTrack ch d) s = execDqsOscTrack ch d s := rfl
  rw [he, execDqsOscTrack, if_pos hlt, updCh_withCh hc]

theorem exec_refreshInterval (hready : s.dram.ready = true) :
    exec (.refreshInterval ch) s = .next (s.withCh ch { c with owed := min 8 (c.owed + 1) }) := by
  have he : exec (.refreshInterval ch) s = execRefreshInterval ch s := rfl
  rw [he, execRefreshInterval, if_neg (by simp [hlt, hready]), updCh_withCh hc]

/-! ### Retraining (R434, R435) -/

theorem exec_retrainStart_due (hready : s.dram.ready = true) (hworks : c.failed = false) (hidle : c.gather = none)
    (hsp : s.dram.spNext = none) (hdue : c.passAt + s.plan.retrain * 24576000 ≤ s.clk.tally) :
    exec (.retrainStart ch) s = .next (s.withCh ch { c with gather := some s.clk.tally, passAt := s.clk.tally }) := by
  have he : exec (.retrainStart ch) s = execRetrainStart ch s := rfl
  rw [he, execRetrainStart, chAt_eq hc, if_pos (by simp [hlt, hready, hworks, hidle, hsp, hdue]), updCh_withCh hc]

end

omit hc in
theorem exec_retrainStart_pending (hsp : s.dram.spNext ≠ none) : exec (.retrainStart ch) s = .next s := by
  have he : exec (.retrainStart ch) s = execRetrainStart ch s := rfl
  rw [he, execRetrainStart, if_neg (by simp [hsp])]

theorem exec_retrainDone {g : Nat} {eyes : List Nat} (hg : c.gather = some g) (hover : g + 64 * 8192 ≤ s.clk.tally) (hl : eyes.length = 4) :
    exec (.retrainDone ch eyes) s = .next (raiseMem 0x8008 .detect s.clk.tally 1 (s.dram.sp * 256 + ch)
      [{ tag := 0x00C2, vals := eyes.map wd }] (s.withCh ch (c.trainedAt s.dram.sp eyes))) := by
  have he : exec (.retrainDone ch eyes) s = execRetrainDone ch eyes s := rfl
  have hgate : ¬ (decide (s.clk.tally < g + frames 64) || decide (eyes.length ≠ 4)) = true := by
    simp [frames_eq, hover, hl]
  have hdrop : (c.eyes.filter fun e => !(e.1 == s.dram.sp)) = c.eyes.filter fun e => e.1 ≠ s.dram.sp :=
    List.filter_congr fun e _ => (decide_not (p := e.1 = s.dram.sp)).symm
  rw [he, execRetrainDone, chAt_eq hc, hg]
  simp only [updCh_withCh hc, hdrop]
  rw [if_neg hgate]
  simp [DramCh.trainedAt, State.withCh]

/-! ### The window of activates (R431) -/

section
variable (hlt : ch < 2) (hover : c.skewAt + 3000 * 8192 ≤ s.clk.tally) {top : Nat} (hmem : top ∈ c.skew) (hmax : ∀ n ∈ c.skew, n ≤ top)
include hlt hover hmem hmax

theorem exec_bankSkewWindow_quiet (hrun : c.skewedRun top ≠ 3600) :
    exec (.bankSkewWindow ch) s = .next (s.withCh ch (c.windowClosed s.clk.tally (c.skewedRun top))) := by
  have he : exec (.bankSkewWindow ch) s = execBankSkewWindow ch s := rfl
  rw [he, execBankSkewWindow, chAt_eq hc]
  simp only [updCh_withCh hc, maxNat_mem _ _ hmem hmax, sumNat_eq, frames_eq, decide_eq_true_eq]
  rw [DramCh.skewedRun] at hrun
  rw [if_neg (by simp [hlt, hover]), if_neg hrun, if_neg hrun]
  rfl

/-- The event names a bank with the most activates. -/
theorem exec_bankSkewWindow_event (hrun : c.skewedRun top = 3600) : ∃ bank, c.skew[bank]? = some top ∧
    exec (.bankSkewWindow ch) s = .next (raiseMem 0x8005 .detect s.clk.tally 1 (ch * 16 + bank)
      [{ tag := 0x00C1, vals := [wd (top * 1000 / c.skew.sum)] }] (s.withCh ch (c.windowClosed s.clk.tally 0))) := by
  have hfound : (c.skew.findIdx? fun n => n == top).isSome = true := by
    rw [List.findIdx?_isSome]
    exact List.any_eq_true.mpr ⟨top, hmem, beq_self_eq_true top⟩
  obtain ⟨bank, hbank⟩ := Option.isSome_iff_exists.mp hfound
  obtain ⟨hb, htop, -⟩ := List.findIdx?_eq_some_iff_getElem.mp hbank
  refine ⟨bank, List.getElem?_eq_some_iff.mpr ⟨hb, beq_iff_eq.mp htop⟩, ?_⟩
  have he : exec (.bankSkewWindow ch) s = execBankSkewWindow ch s := rfl
  rw [DramCh.skewedRun] at hrun
  rw [he, execBankSkewWindow, chAt_eq hc]
  simp only [updCh_withCh hc, maxNat_mem _ _ hmem hmax, sumNat_eq, frames_eq, decide_eq_true_eq, hbank, Option.getD_some]
  rw [if_neg (by simp [hlt, hover]), if_pos hrun, if_pos hrun]
  rfl

end

end

/-! ### The whole controller (R421, R429, R432) -/

theorem exec_setpointChanged {s : State} {p : Nat} (hp : s.dram.spNext = some p) (hframe : s.clk.tally % 8192 = 0)
    (hidle : ∀ x ∈ s.dram.channels, x.gather = none) :
    exec .setpointChanged s =
      .next (raiseMem 0x8007 .boundary s.clk.tally 1 p [] { s with dram := { s.dram with sp := p, spNext := none } }) := by
  have he : exec .setpointChanged s = execSetpointChanged s := rfl
  have hready : setpointReady s = true := by simpa [setpointReady, hp] using hidle
  rw [he, execSetpointChanged, hp]
  simp only [atFrame_iff hframe, hready]
  rfl

theorem exec_readPanic {s : State} {sp : Nat} (hsp : sp < 40) (hlate : 6144 ≤ s.clk.tally % 8192) :
    exec (.readPanic sp) s = .next { s with dram := { s.dram with
      entries := s.dram.entries.map (fun t => if t.req = sp ∧ t.write = false then { t with panic := true } else t),
      ports := s.dram.ports.map (fun t => if t.req = sp ∧ t.write = false then { t with panic := true } else t) } } := by
  have he : exec (.readPanic sp) s = execReadPanic sp s := rfl
  rw [he, execReadPanic, if_pos (by simp [hsp, hlate, panicPhase, frameTicks])]
  simp [State.updDram]

theorem exec_agePromotion (s : State) (i : Nat) : exec (.agePromotion i) s = .next { s with dram := { s.dram with
    entries := s.dram.entries.map fun t =>
      if t.num = i ∧ 2 ≤ t.cls ∧ 20 * 24576 ≤ (s.clk.tally - t.at_) * 1000 then { t with promoted := true } else t } } := by
  have he : exec (.agePromotion i) s = execAgePromotion i s := rfl
  rw [he, execAgePromotion]
  simp [State.updDram, and_assoc]

end Sys2Proof.Machine

open Sys2Proof Sys2Proof.Machine

/-- Settles O55: each clause is one command under its condition, on its channel (`updCh_withCh`) or on the controller. -/
theorem dramUpkeep : Obligations.DramUpkeep := by
  unfold Obligations.DramUpkeep
  rintro s ch c with_ hlt hc hready rfl
  refine ⟨fun f => exec_mr4Poll hc hlt, exec_dqsOscTrack hc hlt, exec_refreshInterval hc hlt hready, exec_retrainStart_due hc hlt hready,
    exec_retrainStart_pending, fun g eyes => exec_retrainDone hc, rfl,
    fun top hover hmem hmax => ⟨fun heven => ?even, fun hskew hrun => ?skewed, fun hskew hrun => ?event⟩, fun p => exec_setpointChanged,
    fun sp => exec_readPanic, exec_agePromotion s⟩
  case even =>
    have hrun : c.skewedRun top = 0 := if_neg (Nat.not_lt.mpr heven)
    rw [exec_bankSkewWindow_quiet hc hlt hover hmem hmax (by omega), hrun]
    rfl
  case skewed =>
    have hcount : c.skewedRun top = c.skewRun + 1 := if_pos hskew
    rw [exec_bankSkewWindow_quiet hc hlt hover hmem hmax (by omega), hcount]
    rfl
  case event =>
    have hcount : c.skewedRun top = c.skewRun + 1 := if_pos hskew
    exact exec_bankSkewWindow_event hc hlt hover hmem hmax (by omega)

end

section
/-! SUPPORT. The one transaction of a request within one data group of the normal space, its place, and its command entry (O56). -/

namespace Sys2Proof.Machine

/-! ### Channels that work (R436, R519) -/

section
variable {s : State} (hwork : ∀ c ∈ s.dram.channels, c.failed = false)
include hwork

theorem chAt_works (ch : Nat) : (s.chAt ch).failed = false := by
  rw [State.chAt, List.getD_eq_getElem?_getD]
  cases h : s.dram.channels[ch]? with
  | none => rfl
  | some c => exact hwork c (List.mem_of_getElem? h)

theorem soleChannel_works : soleChannel s.dram = none := by
  have h0 : (s.dram.channels.getD 0 DramCh.reset).failed = false := chAt_works hwork 0
  have h1 : (s.dram.channels.getD 1 DramCh.reset).failed = false := chAt_works hwork 1
  rw [soleChannel, h0, h1]

theorem normalPlace_works (g : Nat) : normalPlace s.dram g = (groupChannel g, placeOf (g / 2) g) := by
  rw [normalPlace, soleChannel_works hwork]

theorem normalBytes_works : normalBytes s = 2 * 8 * 3584 * normalRows s := by
  rw [normalBytes, soleChannel_works hwork]
  rfl

end

/-! ### Places (R406) -/

/-- The two groups of one half lie in different channels. -/
theorem group_eq_of_half {g1 g2 : Nat} (hhalf : g1 / 2 = g2 / 2) (hch : groupChannel g1 = groupChannel g2) : g1 = g2 := by
  have hpow (k : Nat) : g1 / 2 ^ (k + 1) = g2 / 2 ^ (k + 1) := by
    rw [Nat.pow_succ', ← Nat.div_div_eq_div_mul, ← Nat.div_div_eq_div_mul, hhalf]
  rw [groupChannel, groupChannel, hpow 8, hpow 16, hpow 24] at hch
  omega

theorem placeOf_inj {h1 h2 g1 g2 : Nat} (hb : (placeOf h1 g1).bank = (placeOf h2 g2).bank) (hr : (placeOf h1 g1).row = (placeOf h2 g2).row)
    (hs : (placeOf h1 g1).slot = (placeOf h2 g2).slot) : h1 = h2 := place_inj h1 h2 hb hr hs

/-! ### A request within one group (R408, R415) -/

/-- The request is whole, and lies in one data group of the normal space of two working channels. -/
structure OneGroup (s : State) (q : DramReq) : Prop where
  ready : s.dram.ready = true
  works : ∀ c ∈ s.dram.channels, c.failed = false
  space : q.space = .normal
  requester : q.requester ≤ 46
  cls : q.cls < 4
  bytes_pos : 0 < q.bytes
  bytes_words : q.bytes % 4 = 0
  addr_words : q.addr % 4 = 0
  data : q.write = true → q.data.length = q.bytes
  group : (q.addr + q.bytes - 1) / 512 = q.addr / 512
  fits : q.addr + q.bytes ≤ 2 * 8 * 3584 * normalRows s

theorem OneGroup.dramReqOk {s : State} {q : DramReq} (h : OneGroup s q) : dramReqOk s q = true := by
  have hdata : (!q.write || q.data.length == q.bytes) = true := by
    cases hw : q.write with
    | false => rfl
    | true => simp [h.data hw]
  simp [Machine.dramReqOk, spaceReach, h.ready, h.space, h.requester, h.cls, h.bytes_pos, h.bytes_words, h.addr_words, hdata,
    normalBytes_works h.works, h.fits]

theorem splitGroups_one {a n : Nat} (fuel : Nat) (hn : 0 < n) (hlast : (a + n - 1) / 512 = a / 512) :
    splitGroups (fuel + 1) a n = [(a / 512, a % 512, n)] := by
  have hk : min n (512 - a % 512) = n := by omega
  have hrest : splitGroups fuel (a + n) 0 = [] := by cases fuel <;> rfl
  rw [splitGroups, if_neg (by omega)]
  simp only [hk, Nat.sub_self, hrest]

/-- The transaction of the request as it waits in the port. -/
def groupTx (s : State) (q : DramReq) : DramTx :=
  { num := s.dram.num, req := q.requester, cls := q.cls, ch := groupChannel (q.addr / 512),
    place := placeOf (q.addr / 512 / 2) (q.addr / 512), off := q.addr % 512, bytes := q.bytes, write := q.write,
    data := if q.write then q.data else [], bound := false, shared := false, at_ := s.clk.tally,
    panic := decide (q.requester < 40) && !q.write && decide (6144 ≤ s.clk.tally % 8192), promoted := false,
    rmw := if q.write && !(q.addr % 8 == 0 && q.bytes % 8 == 0) then 1 else 0 }

/-- A write that does not fill its 8-byte words has its group read first (R411). -/
theorem groupTx_rmw (s : State) {q : DramReq} (hwrite : q.write = true) :
    (groupTx s q).rmw = if q.addr % 8 = 0 ∧ q.bytes % 8 = 0 then 0 else 1 := by
  by_cases haddr : q.addr % 8 = 0 <;> simp [groupTx, hwrite, haddr]

theorem groupTx_addr (s : State) (q : DramReq) : (groupTx s q).place.group * 512 + (groupTx s q).off = q.addr := by
  show q.addr / 512 * 512 + q.addr % 512 = q.addr
  omega

/-- The state in which the transaction of the request looks for an entry: its number is taken. -/
def numbered (s : State) : State :=
  { s with dram := { s.dram with num := s.dram.num + 1, mirrored := s.dram.mirrored.eraseDups } }

theorem acceptReq_oneGroup {s : State} {q : DramReq} (h : OneGroup s q) (hports : s.dram.ports = []) :
    acceptReq q s = admitPorts { numbered s with dram := { (numbered s).dram with ports := [groupTx s q] } } := by
  have haddr : q.addr / 512 * 512 + q.addr % 512 - q.addr = 0 := by omega
  have hword : q.addr % 512 % 8 = q.addr % 8 := by omega
  have hdata : (if q.write then (q.data.drop 0).take q.bytes else []) = if q.write then q.data else [] :=
    if_ctx_congr Iff.rfl (fun hw => by rw [List.drop_zero, ← h.data hw, List.take_length]) fun _ => rfl
  have hmirror : (q.write && q.space == .mirrored) = false := by rw [h.space]; exact Bool.and_false _
  rw [acceptReq, h.dramReqOk, splitGroups_one _ h.bytes_pos h.group, hmirror, if_neg (by decide)]
  simp only [partPlaces, h.space, normalPlace_works h.works, List.flatMap_cons, List.flatMap_nil, List.map_cons, List.map_nil,
    List.append_nil, List.nil_append, List.zipIdx_singleton, haddr, hword, hdata, State.updDram, hports, Nat.add_zero]
  rfl

/-! ### The command entry (R416, R422) -/

theorem entryFor_shared {es : List DramTx} {t : DramTx} (hbound : t.bound = false) (hes : ∀ e ∈ es, e.shared = true) (hroom : es.length < 96)
    (hown : (es.filter fun e => e.req = t.req).length < 16)
    (hhost : 40 ≤ t.req → t.req ≤ 43 → (es.filter fun e => 40 ≤ e.req ∧ e.req ≤ 43).length < 8) : entryFor es t = some true := by
  have hall : es.filter DramTx.shared = es := List.filter_eq_self.mpr hes
  have hlimit : t.req < 40 ∨ 43 < t.req ∨ (es.filter fun e => decide (40 ≤ e.req) && decide (e.req ≤ 43)).length < 8 := by
    simp only [Bool.decide_and] at hhost
    by_cases hhosted : 40 ≤ t.req ∧ t.req ≤ 43
    · exact .inr (.inr (hhost hhosted.1 hhosted.2))
    · omega
  have hown' : (es.filter fun e => e.req == t.req).length < 16 := hown
  simp [entryFor, hall, hbound, hroom, hown', hlimit, or_assoc]

theorem clearPorts_idle {s : State} (hports : s.dram.ports = []) : (s.updDram fun d => { d with ports := [] }) = s := by
  rw [State.updDram, ← hports]

theorem admitPorts_one {s : State} {t : DramTx} {sh : Bool} (he : entryFor s.dram.entries t = some sh) (hports : s.dram.ports = []) :
    admitPorts { s with dram := { s.dram with ports := [t] } } = enterTx sh t s := by
  have hclear : (State.updDram { s with dram := { s.dram with ports := [t] } } fun d => { d with ports := [] }) = s := clearPorts_idle hports
  rw [admitPorts, hclear, List.foldl_cons, List.foldl_nil, hports, he]
  rfl

/-- No queued write holds the first byte of a read of whose group none is queued (R423). -/
theorem coveredByWrites_false {es : List DramTx} {t : DramTx} (hpos : 0 < t.bytes) (hvault : t.place.vault = false)
    (hfree : ∀ e ∈ es, e.write = true → e.place.vault = true ∨ e.place.group ≠ t.place.group) : coveredByWrites es t = false := by
  have hfirst : queuedByte es t (t.off + 0) = false := by
    rw [queuedByte, List.any_eq_false]
    intro e hmem hheld
    simp only [sameGroup, hvault, Bool.and_eq_true, beq_iff_eq] at hheld
    obtain ⟨⟨⟨hwrite, ⟨-, hnormal⟩, hgroup⟩, -⟩, -⟩ := hheld
    rcases hfree e hmem hwrite with hv | hg
    · rw [hv] at hnormal
      cases hnormal
    · exact hg hgroup
  rw [coveredByWrites, List.all_eq_false]
  exact ⟨0, List.mem_range.mpr hpos, by rw [hfirst]; exact Bool.false_ne_true⟩

/-! ### The request accepted (R415, R416, R422) -/

theorem exec_dramRequestAccept {s : State} {q : DramReq} (h : OneGroup s q) (hports : s.dram.ports = [])
    (hentry : entryFor s.dram.entries (groupTx s q) = some true) :
    exec (.dramRequestAccept q) s = .next (enterTx true (groupTx s q) (numbered s)) := by
  have he : exec (.dramRequestAccept q) s = .next (acceptReq q s) := rfl
  rw [he, acceptReq_oneGroup h hports, admitPorts_one (s := numbered s) hentry hports]

end Sys2Proof.Machine

open Sys2Proof Sys2Proof.Machine

/-- Settles O56: the request is the transaction `groupTx`, which finds a shared entry and enters it; `placeOf` gives the group's half back,
and the channel its parity. -/
theorem dramRequests : Obligations.DramRequests := by
  unfold Obligations.DramRequests
  rintro s q g h tx hready hworks hports hspace hreq hcls hpos hbytes haddr rfl hgroup rfl hfits hshared hroom hown hhost htx
  have hone (hdata : q.write = true → q.data.length = q.bytes) : OneGroup s q :=
    ⟨hready, hworks, hspace, hreq, hcls, hpos, hbytes, haddr, hdata, hgroup, hfits⟩
  have hentry : entryFor s.dram.entries (groupTx s q) = some true := entryFor_shared rfl hshared hroom hown hhost
  rw [dramChannel_eq] at htx
  refine ⟨fun hwrite hlen hdata hpanic hrmw => ?write, fun hread hfree hdata hpanic hrmw => ?read, fun g1 g2 hch hbank hrow hslot => ?place⟩
  case write =>
    have hentered : { groupTx s q with shared := true } = tx := by
      rw [htx, hdata, hpanic, hrmw, ← groupTx_rmw s hwrite]
      simp [groupTx, hwrite, placeOf]
    obtain ⟨cs, hcs⟩ := enterTx_write true (groupTx s q) tx q.addr q.data (numbered s) (chAt_works hworks _) hwrite rfl rfl
      (groupTx_addr s q) (if_pos hwrite) hentered
    exact ⟨_, (exec_dramRequestAccept (hone fun _ => hlen) hports hentry).trans (congrArg _ hcs), rfl⟩
  case read =>
    have hentered : { groupTx s q with shared := true, data := s.dram.normal.bytes q.addr q.bytes } = tx := by
      rw [htx, hdata, hpanic, hrmw]
      simp [groupTx, hread, placeOf]
    rw [exec_dramRequestAccept (hone fun hw => absurd hw (by simp [hread])) hports hentry,
      enterTx_read true (groupTx s q) tx (numbered s) (chAt_works hworks _) hread rfl ((groupTx_addr s q).symm ▸ hentered) ?_]
    · rfl
    · rw [← hentered]
      exact coveredByWrites_false hpos rfl hfree
  case place =>
    rw [normalPlace_works hworks, normalPlace_works hworks] at hch hbank hrow hslot
    exact group_eq_of_half (placeOf_inj hbank hrow hslot) hch

end

section
/-! SUPPORT. A slot of a DRAM channel: the transaction that may have it, what the slot does with it, and what it does without one; a word
of the vault repaired; a channel that fails (O57). -/

namespace Sys2Proof.Machine

/-- A channel whose slot has been used: the rotation goes on to the next one (R417). -/
def DramCh.rotated (c : DramCh) : DramCh := { c with slot := (c.slot + 1) % 32, trained := if c.slot = 31 then false else c.trained }

/-- A channel that has been refreshed (R425, R433). -/
def DramCh.refreshed (c : DramCh) : DramCh := { c with owed := c.owed - 1, delay := c.delayNext.getD c.delay, delayNext := none }

section
variable {s : State} {ch : Nat} {c : DramCh} (hc : s.dram.channels[ch]? = some c)
include hc

theorem withCh_at (x : DramCh) : (s.withCh ch x).dram.channels[ch]? = some x :=
  List.getElem?_set_self (List.getElem?_eq_some_iff.mp hc).1

theorem refresh_withCh : refresh ch s = s.withCh ch c.refreshed := updCh_withCh hc _

end

@[simp] theorem withCh_entries (s : State) (ch : Nat) (x : DramCh) : (s.withCh ch x).dram.entries = s.dram.entries := rfl

theorem withCh_withCh (s : State) (ch : Nat) (x y : DramCh) : (s.withCh ch x).withCh ch y = s.withCh ch y := by
  simp [State.withCh, List.set_set]

/-! ### The transaction that may have a slot (R418, R419) -/

theorem heldBank_iff {slot bank : Nat} : heldBank slot = some bank ↔ slot = 4 * bank + 1 ∨ slot = 4 * bank + 2 := by
  by_cases hnext : slot % 4 = 1 ∨ slot % 4 = 2
  · rw [heldBank, if_pos (by simpa using hnext), Option.some_inj]
    omega
  · rw [heldBank, if_neg (by simpa using hnext)]
    simp only [reduceCtorEq, false_iff]
    omega

theorem mayIssue_alone (t : DramTx) : mayIssue [t] t = true := by simp [mayIssue]

theorem pickReserved_unbound {s : State} (hes : ∀ e ∈ s.dram.entries, e.bound = false) (ch slot : Nat) : pickReserved s ch slot = none := by
  unfold pickReserved
  split
  · rfl
  · rw [List.find?_eq_none]
    intro e he
    simp [hes e he]

section
variable {s : State} {t : DramTx} (hes : s.dram.entries = [t])
include hes

theorem pickReserved_alone (hbound : t.bound = true) {slot : Nat} (hslot : slot = 4 * t.place.bank + 3) : pickReserved s t.ch slot = some t := by
  rw [pickReserved, if_neg (by omega), hes, List.find?_cons_of_pos]
  have hbank : t.place.bank = slot / 4 := by omega
  simp [hbound, hbank, mayIssue_alone]

theorem pickOrdinary_alone (hfree : t.bound = false) {slot : Nat} (hheld : heldBank slot ≠ some t.place.bank)
    (hthrottled : throttledNow s t = false) : pickOrdinary s t.ch slot = some t := by
  simp [pickOrdinary, hes, hfree, hheld, hthrottled, mayIssue_alone]

theorem pickOrdinary_held {ch slot : Nat} (hheld : heldBank slot = some t.place.bank) : pickOrdinary s ch slot = none := by
  simp [pickOrdinary, hes, hheld]

end

theorem pickOrdinary_empty {s : State} (hes : s.dram.entries = []) (ch slot : Nat) : pickOrdinary s ch slot = none := by
  simp [pickOrdinary, hes]

theorem throttledNow_other {s : State} {t : DramTx} {c : DramCh} (hc : s.dram.channels[t.ch]? = some c)
    (hbanks : ∀ e ∈ c.throttled, e.1 ≠ t.place.bank) : throttledNow s t = false := by
  rw [throttledNow, chAt_eq hc, List.any_eq_false]
  intro e he
  simp [hbanks e he]

/-! ### The slot (R417, R425) -/

section
variable {s : State} {ch : Nat} {c : DramCh} (hlt : ch < 2) (hc : s.dram.channels[ch]? = some c) (hready : s.dram.ready = true)
  (hworks : c.failed = false)
include hlt hc hready hworks

theorem exec_dramSlot_forced (howed : 8 ≤ c.owed) (errs : List EccObs) : exec (.dramSlot ch errs) s = .next (forcedRefresh ch s) := by
  have he : exec (.dramSlot ch errs) s = execDramSlot ch errs s := rfl
  rw [he, execDramSlot, chAt_eq hc]
  simp [hlt, hready, hworks, howed]

/-- A slot that is no forced refresh goes to the reserved transaction, else to an ordinary one, else it is unclaimed. -/
theorem exec_dramSlot_rotates (howed : c.owed < 8) (errs : List EccObs) : exec (.dramSlot ch errs) s = .next
    (((pickReserved (s.withCh ch c.rotated) ch c.slot).map fun t => issueTx t false errs (s.withCh ch c.rotated)).getD
      (((pickOrdinary (s.withCh ch c.rotated) ch c.slot).map fun t => issueTx t true errs (s.withCh ch c.rotated)).getD
        (unclaimedSlot ch c.slot errs (s.withCh ch c.rotated)))) := by
  have he : exec (.dramSlot ch errs) s = execDramSlot ch errs s := rfl
  have hrot : s.updCh ch (fun x => { x with slot := (c.slot + 1) % 32, trained := if c.slot = 31 then false else x.trained })
      = s.withCh ch c.rotated := updCh_withCh hc _
  rw [he, execDramSlot, chAt_eq hc, if_neg (by simp [hlt, hready, hworks]), if_neg (by omega)]
  simp only [hrot]
  cases pickReserved (s.withCh ch c.rotated) ch c.slot with
  | some t => rfl
  | none => cases pickOrdinary (s.withCh ch c.rotated) ch c.slot <;> rfl

end

theorem forcedRefresh_dram {s : State} {ch : Nat} {c : DramCh} (hc : s.dram.channels[ch]? = some c) :
    (forcedRefresh ch s).dram = (s.withCh ch { c.refreshed with forced := (c.forced + 1) % 65536 }).dram := by
  rw [forcedRefresh, raiseLimited_dram, refresh_withCh hc, updCh_withCh (withCh_at hc _), withCh_withCh]
  rfl

/-! ### A slot that no transaction has (R412, R425) -/

theorem scrubDue_false {s : State} {c : DramCh} (hat : s.clk.tally = c.scrubAt) (hsome : c.scrubbed ≠ 0) (hon : s.boot.dramCfg.scrub ≠ 0) :
    scrubDue s c = false := by
  have hpos : 0 < c.scrubbed * s.boot.dramCfg.scrub := Nat.mul_pos (Nat.pos_of_ne_zero hsome) (Nat.pos_of_ne_zero hon)
  rw [scrubDue, hat, Nat.sub_self, Nat.zero_mul, decide_eq_false_iff_not]
  omega

section
variable {s : State} {ch : Nat} {c : DramCh} (hc : s.dram.channels[ch]? = some c) (hback : c.back = []) (hheal : c.heal = [])
  (hidle : c.gather = none)
include hc hback hheal hidle

theorem unclaimedSlot_refreshes (hnone : s.dram.entries = []) (howed : -8 < c.owed) (slot : Nat) (errs : List EccObs) :
    unclaimedSlot ch slot errs s = refresh ch s := by
  simp [unclaimedSlot, chAt_eq hc, hback, hheal, hidle, hnone, howed]

theorem unclaimedSlot_empty {t : DramTx} (hes : s.dram.entries = [t]) (hch : t.ch = ch) (hscrub : scrubDue s c = false) (slot : Nat)
    (errs : List EccObs) : unclaimedSlot ch slot errs s = s := by
  simp [unclaimedSlot, chAt_eq hc, hback, hheal, hidle, hes, hch, hscrub]

end

/-! ### The one transaction issued (R410, R415, R420) -/

/-- The controller once its one transaction is complete: metered to its class, and recorded. -/
def Dram.completed (t : DramTx) (d : Dram) : Dram :=
  { d with entries := [], used := d.used.modify t.cls (· + t.bytes),
           done := ({ num := t.num, req := t.req, data := if t.write then [] else t.data, end_ := .good } :: d.done).take 32 }

theorem eccScan_nil (t : DramTx) (s : State) : eccScan t [] s = (s, t.data, false) := by simp [eccScan]

theorem admitPorts_idle {s : State} (hports : s.dram.ports = []) : admitPorts s = s := by
  rw [admitPorts, clearPorts_idle hports, hports, List.foldl_nil]

/-- Without findings, a transaction that is alone is activated and completed. -/
theorem issueTx_alone {s : State} {t : DramTx} {c : DramCh} (hc : s.dram.channels[t.ch]? = some c) (hes : s.dram.entries = [t])
    (hports : s.dram.ports = []) (hrmw : t.rmw = 0) (ordinary : Bool) :
    issueTx t ordinary [] s = (activate t.ch t.place t.req t.cls ordinary s).updDram (Dram.completed t) := by
  obtain ⟨c', -, hdram, -⟩ := activate_spec t.ch t.place t.req t.cls ordinary s c hc
  have hecc : eccFor t [] = [] := by simp [eccFor]
  rw [issueTx, hecc]
  simp only [hrmw, eccScan_nil]
  rw [admitPorts_idle (by simp [dramFinish, hdram, hports])]
  simp [State.updDram, Dram.completed, dramFinish, hdram, hes]

theorem RaisedOnly.updDram {s t : State} (h : RaisedOnly s t) (f : Dram → Dram) : RaisedOnly (s.updDram f) (t.updDram f) := by
  unfold RaisedOnly at h ⊢
  rw [h]
  rfl

theorem RaisedOnly.completed {s a : State} (h : RaisedOnly { s with dram := a.dram } a)
    (hdram : a.dram = { s.dram with channels := a.dram.channels }) (t : DramTx) :
    RaisedOnly { s with dram := { s.dram.completed t with channels := a.dram.channels } } (a.updDram (Dram.completed t)) := by
  have hcompleted : a.dram.completed t = { s.dram.completed t with channels := a.dram.channels } := by
    rw [hdram]
    rfl
  exact hcompleted ▸ h.updDram _

/-- What the activate changes beyond its channel is what an event of R430 raises; the rotation stands. -/
theorem issueTx_alone_frame {s : State} {t : DramTx} {c : DramCh} (hc : s.dram.channels[t.ch]? = some c) (hes : s.dram.entries = [t])
    (hports : s.dram.ports = []) (hrmw : t.rmw = 0) (ordinary : Bool) : ∃ v, issueTx t ordinary [] s = v ∧
      RaisedOnly { s with dram := { s.dram.completed t with channels := v.dram.channels } } v ∧ (v.chAt t.ch).slot = c.slot := by
  obtain ⟨c', hslot, hdram, hframe⟩ := activate_spec t.ch t.place t.req t.cls ordinary s c hc
  have hraised : RaisedOnly { s with dram := (activate t.ch t.place t.req t.cls ordinary s).dram }
      (activate t.ch t.place t.req t.cls ordinary s) := hframe
  have hat : (activate t.ch t.place t.req t.cls ordinary s).dram.channels[t.ch]? = some c' := by
    rw [hdram]
    exact withCh_at hc c'
  refine ⟨_, issueTx_alone hc hes hports hrmw ordinary, hraised.completed (by rw [hdram]) t, ?_⟩
  exact (congrArg DramCh.slot (chAt_eq hat)).trans hslot

/-! ### A word of the vault repaired (R414) -/

theorem exec_vaultRepaired {s : State} {ch : Nat} {c : DramCh} (hc : s.dram.channels[ch]? = some c) {p : Place} {word due : Nat}
    {rest : List (Place × Nat × Nat)} (hrepair : c.repair = (p, word, due) :: rest) :
    exec (.vaultRepaired ch) s = .next (raiseMem 0x8003 .detect s.clk.tally 0 ch [{ tag := 0x00C0, vals := [eccLoc ch p word ||| 1#32] }]
      { s with dram := { s.dram with
        channels := s.dram.channels.set ch { c with repair := rest },
        vaults := s.dram.vaults.modify ch fun m => m.putBytes (p.group * 512 + 8 * word)
          ((s.dram.vaults.getD (1 - ch) []).bytes (p.group * 512 + 8 * word) 8) } }) := by
  have he : exec (.vaultRepaired ch) s = execVaultRepaired ch s := rfl
  rw [he, execVaultRepaired, chAt_eq hc, hrepair]
  simp only [updCh_eq hc]
  rfl

/-! ### A channel that fails (R436, R519) -/

section
variable {s : State} {ch : Nat} {c : DramCh} (hlt : ch < 2) (hc : s.dram.channels[ch]? = some c) (hworks : c.failed = false)
include hlt hc hworks

theorem exec_channelFailed_waits (hnone : c.failing = none) (hframe : s.clk.tally % 8192 ≠ 0) :
    exec (.channelFailed ch 2) s = .next (s.withCh ch { c with failing := some 2 }) := by
  have he : exec (.channelFailed ch 2) s = execChannelFailed ch 2 s := rfl
  have hnot : atFrame s = false := by simpa [atFrame, frameTicks] using hframe
  rw [he, execChannelFailed, chAt_eq hc, if_neg (by simp [hlt, hworks]), if_pos (by simp [hnone])]
  simp only [updCh_withCh hc, chAt_eq (withCh_at hc _)]
  exact if_neg (hnot ▸ Bool.false_ne_true)

theorem exec_channelFailed_fails {r : Nat} (hsome : c.failing = some r) (hframe : s.clk.tally % 8192 = 0) :
    exec (.channelFailed ch r) s = .next (failChannel s.clk.tally ch r (closeFrame s)) := by
  have he : exec (.channelFailed ch r) s = execChannelFailed ch r s := rfl
  rw [he, execChannelFailed, chAt_eq hc, if_neg (by simp [hlt, hworks]), if_neg (by simp [hsome])]
  simp only [chAt_eq hc, hsome]
  exact if_pos (atFrame_iff hframe)

end

/-- No slot is left of the stores of the normal space. -/
theorem failChannel_vals (b ch r : Nat) (s : State) : ∀ w ∈ (failChannel b ch r s).vals, ∀ k, w.node ≠ .slot k := by
  intro w hw k hk
  have hkept := (List.mem_filter.mp hw).2
  rw [hk] at hkept
  cases hkept

theorem failChannel_scenes (b ch r : Nat) (s : State) : ∀ z ∈ (failChannel b ch r s).fw.scenes, isChip z.node = true :=
  fun _ hz => (List.mem_filter.mp hz).2

end Sys2Proof.Machine

open Sys2Proof Sys2Proof.Machine

/-- Settles O57: a slot is a forced refresh or goes on in the rotation (`exec_dramSlot_rotates`), to the transaction that is alone, to a
refresh, or to nothing; a failed channel is `failChannel`. -/
theorem dramSlots : Obligations.DramSlots := by
  unfold Obligations.DramSlots
  rintro s ch c with_ hlt hc hready hworks rfl
  have hrot := withCh_at hc c.rotated
  have hentries := withCh_entries s ch c.rotated
  refine ⟨fun howed => ?forced, fun howed hlow hes hback hheal hidle => ?voluntary, fun tx howed hes hports hch hrmw hmay => ?issued,
    fun tx howed hes hch hfree hslot hback hheal hidle hat hsome hon => ?held, fun p word due rest => exec_vaultRepaired hc,
    exec_channelFailed_waits hlt hc hworks, fun x r hfailing hframe hx => ?failed⟩
  case forced => exact ⟨_, exec_dramSlot_forced hlt hc hready hworks howed [], forcedRefresh_dram hc⟩
  case voluntary =>
    rw [hes] at hentries
    rw [exec_dramSlot_rotates hlt hc hready hworks howed, pickReserved_unbound (by simp [hes]), pickOrdinary_empty hentries]
    exact congrArg _ ((unclaimedSlot_refreshes hrot hback hheal hidle hes hlow _ _).trans
      ((refresh_withCh hrot).trans (withCh_withCh _ _ _ _)))
  case issued =>
    subst hch
    rw [hes] at hentries
    rcases hmay with ⟨hbound, hslot⟩ | ⟨hfree, hnot1, hnot2, hbanks⟩
    · obtain ⟨v, hv, hframe, hnext⟩ := issueTx_alone_frame hrot hentries hports hrmw false
      refine ⟨v, ?_, hframe, hnext⟩
      rw [exec_dramSlot_rotates hlt hc hready hworks howed, pickReserved_alone hentries hbound hslot]
      exact congrArg _ hv
    · obtain ⟨v, hv, hframe, hnext⟩ := issueTx_alone_frame hrot hentries hports hrmw true
      have hheld : heldBank c.slot ≠ some tx.place.bank := fun h => (heldBank_iff.mp h).elim hnot1 hnot2
      refine ⟨v, ?_, hframe, hnext⟩
      rw [exec_dramSlot_rotates hlt hc hready hworks howed, pickReserved_unbound (by simp [hes, hfree]),
        pickOrdinary_alone hentries hfree hheld (throttledNow_other hrot hbanks)]
      exact congrArg _ hv
  case held =>
    have hturn : c.rotated = { c with slot := (c.slot + 1) % 32 } := by rw [DramCh.rotated, if_neg (by omega)]
    rw [hes] at hentries
    rw [exec_dramSlot_rotates hlt hc hready hworks howed, pickReserved_unbound (by simp [hes, hfree]),
      pickOrdinary_held hentries (heldBank_iff.mpr hslot), ← hturn]
    exact congrArg _ (unclaimedSlot_empty hrot hback hheal hidle hentries hch (scrubDue_false hat hsome hon) _ _)
  case failed =>
    rw [hx]
    exact ⟨_, exec_channelFailed_fails hlt hc hworks hfailing hframe, failChannel_pos _ _ _ _, failChannel_dram _ _ _ _,
      failChannel_vals _ _ _ _, failChannel_scenes _ _ _ _⟩

end

section
/-! SUPPORT. DRAM bring-up, the first SERVING, and the domains that the firmware switches on and off (O8). -/

namespace Sys2Proof.Machine

/-! ### DRAM bring-up (R412, R503) -/

/-- A channel whose training has failed fails at the next frame boundary (R436). -/
def DramCh.broughtUp (ok : Bool) (c : DramCh) : DramCh := if ok then c else { c with failing := some 1 }

/-- The same for the channel of a number. -/
def State.failUnless (ch : Nat) (ok : Bool) (s : State) : State := if ok then s else s.updCh ch fun c => { c with failing := some 1 }

/-- The DRAM at MAX_SP, with zeros everywhere. -/
def State.dramZeroed (s : State) : State :=
  { s with dram := { s.dram with ready := true, sp := s.boot.dramCfg.maxSp, spNext := none, normal := [], vaults := [[], []] },
           plan := { s.plan with sp := s.boot.dramCfg.maxSp } }

theorem failUnless_withCh {s : State} {ch : Nat} {c : DramCh} (hc : s.dram.channels[ch]? = some c) (ok : Bool) :
    s.failUnless ch ok = s.withCh ch (c.broughtUp ok) := by
  cases ok with
  | true =>
    obtain ⟨hlt, rfl⟩ := List.getElem?_eq_some_iff.mp hc
    simp [State.failUnless, DramCh.broughtUp, State.withCh]
  | false => exact updCh_withCh hc _

theorem exec_dramBringupDone {s : State} (hon : s.boot.domains.testBit 7 = true) (hnew : s.dram.ready = false) (ok0 ok1 : Bool) :
    exec (.dramBringupDone ok0 ok1) s = .next ((s.dramZeroed.failUnless 0 ok0).failUnless 1 ok1) := by
  have he : exec (.dramBringupDone ok0 ok1) s = execDramBringupDone ok0 ok1 s := rfl
  rw [he, execDramBringupDone, if_neg (by simp [domainOn_eq, hon, hnew])]
  rfl

theorem dramZeroed_failUnless {s : State} {c0 c1 : DramCh} (hchannels : s.dram.channels = [c0, c1]) (ok0 ok1 : Bool) :
    (s.dramZeroed.failUnless 0 ok0).failUnless 1 ok1 =
      { s.dramZeroed with dram := { s.dramZeroed.dram with channels := [c0.broughtUp ok0, c1.broughtUp ok1] } } := by
  have hc0 : s.dramZeroed.dram.channels[0]? = some c0 := by
    rw [State.dramZeroed, hchannels]
    rfl
  have hc1 : (s.dramZeroed.withCh 0 (c0.broughtUp ok0)).dram.channels[1]? = some c1 := by
    rw [State.withCh, State.dramZeroed, hchannels]
    rfl
  rw [failUnless_withCh hc0, failUnless_withCh hc1]
  simp [State.withCh, State.dramZeroed, hchannels]

/-! ### The first SERVING (R504) -/

/-- The block as the frame pipeline starts, before STATE and the pairs are told. -/
def State.started (s : State) : State :=
  { s with
    boot := { s.boot with domains := (wd s.boot.domains ||| 0x7C#32).toNat, served := true, ready := true, readyAt := s.clk.tally },
    clk := { s.clk with nextSample := ceilDiv s.clk.tally sampleTicks * sampleTicks, nextFrame := boundaryFrom s.clk.tally },
    plan := { s.plan with due := (wd s.plan.due ||| 1024#32).toNat },
    ladder := { s.ladder with changed := s.clk.tally, checked := s.clk.tally },
    fault := { s.fault with active := 0, relA := s.clk.tally, relB := s.clk.tally } }

/-- STATE becomes SERVING with pair A, which is ACTIVE from tally `t`, and pair B is STANDBY. -/
def State.pairsServing (t : Nat) (s : State) : State :=
  updPair 0 (fun p => { p with beat := t }) (setPairState 1 2 (setPairState 0 1 (setService 1 0 s)))

theorem exec_firstServing {s : State} {a : Nat} (hjump : s.boot.jumpAt = some a) (hfirst : s.boot.served = false) (hstate : s.svc.state = 0)
    (hready : s.dram.ready = true) (hA : (pairAt s 0).marked = false) (hB : (pairAt s 1).marked = false) :
    exec .firstServing s = .next (settleFaults (applyFlashNmb (s.started.pairsServing s.clk.tally))) := by
  have he : exec .firstServing s = execFirstServing s := rfl
  rw [he, execFirstServing, if_neg (by simp [hjump, hfirst, hstate, hready])]
  simp only [hA, hB, Bool.and_self, Bool.false_eq_true, if_false]
  rfl

theorem RaisedOnly.trans {s t u : State} (h : RaisedOnly s t) (h' : RaisedOnly t u) : RaisedOnly s u := by
  unfold RaisedOnly at h h' ⊢
  exact h'.trans (by rw [h])

theorem RaisedOnly.updFault {s t : State} (h : RaisedOnly s t) (f : FaultSt → FaultSt) : RaisedOnly (s.updFault f) (t.updFault f) := by
  unfold RaisedOnly at h ⊢
  rw [h]
  rfl

theorem raisedOnly_setPairState {s : State} {k : Nat} {p : TellerPair} (hp : s.fault.pairs[k]? = some p) (st : Nat) :
    RaisedOnly (s.updFault fun f => { f with pairs := f.pairs.set k { p with state := st } }) (setPairState k st s) := setPair_frame hp

theorem raisedOnly_pairsServing {s : State} {p q : TellerPair} (hpairs : s.fault.pairs = [p, q]) (t : Nat) :
    RaisedOnly { s with svc := { s.svc with state := 1, pair := 0 },
                        fault := { s.fault with pairs := [{ p with state := 1, beat := t }, { q with state := 2 }] } } (s.pairsServing t) := by
  have hservice : RaisedOnly { s with svc := { s.svc with state := 1, pair := 0 } } (setService 1 0 s) := raisedOnly_vecIf _ _ _
  have hA := (hservice.updFault _).trans (raisedOnly_setPairState (k := 0) (p := p) (by rw [setService_frame, hpairs]; rfl) 1)
  have hB := (hA.updFault _).trans (raisedOnly_setPairState (k := 1) (p := q) (by rw [hA]; simp [State.updFault, hpairs]) 2)
  have hbeat := hB.updFault fun f => { f with pairs := f.pairs.modify 0 fun p => { p with beat := t } }
  simp only [State.updFault, hpairs] at hbeat
  exact hbeat

/-- No network mailbox listens where neither copy of the flash configuration is valid. -/
theorem applyFlashNmb_none {s : State} (hcfgs : s.flash.cfgs = [none, none]) :
    applyFlashNmb s = { s with nmbs := (applyFlashNmb s).nmbs } := by
  have hbest : cfgBest s = none := by rw [cfgBest, hcfgs]
  have hsilent : ((s.nmbs.zipIdx.map fun e => { e.1 with macs := fld 0#32 (4 * e.2) 4, port := fld 0#32 (16 * e.2) 16 }).any
      fun b => b.macs != 0 && b.port != 0) = false := by simp [fld]
  rw [applyFlashNmb, hbest]
  simp only [applyNmb, hsilent]
  rfl

/-! ### The power domains (R488, R489) -/

section
variable {s : State} {dom : Nat} {on : Bool}

theorem exec_domainSwitch_same (hsame : s.boot.domains.testBit dom = on) : exec (.domainSwitch dom on) s = .next s := by
  have he : exec (.domainSwitch dom on) s = execDomainSwitch dom on s := rfl
  rw [he, execDomainSwitch, if_pos (by simp [domainOn_eq, hsame])]

theorem exec_domainSwitch_midFrame (hserving : s.serving = true) (hmid : s.clk.tally % 8192 ≠ 0) : exec (.domainSwitch dom on) s = .next s := by
  have he : exec (.domainSwitch dom on) s = execDomainSwitch dom on s := rfl
  rw [he, execDomainSwitch, if_pos (by simp [hserving, atFrame, frameTicks, hmid])]

theorem exec_domainSwitch_off_refused (hmay : mayTurnOff s dom = false) : exec (.domainSwitch dom false) s = .next s := by
  have he : exec (.domainSwitch dom false) s = execDomainSwitch dom false s := rfl
  rw [he, execDomainSwitch, if_pos (by simp [hmay])]

theorem exec_domainSwitch_changes (hother : s.boot.domains.testBit dom = !on) (hframe : s.serving = true → s.clk.tally % 8192 = 0)
    (hmay : (if on then mayTurnOn s dom else mayTurnOff s dom) = true) :
    exec (.domainSwitch dom on) s = .next (setDomain dom on (closeFrame s)) := by
  have he : exec (.domainSwitch dom on) s = execDomainSwitch dom on s := rfl
  have hready : (s.serving && !atFrame s) = false := by
    cases hserving : s.serving with
    | false => rfl
    | true => rw [atFrame_iff (hframe hserving)]; rfl
  rw [he, execDomainSwitch, domainOn_eq, hother, hready, hmay, if_neg (by cases on <;> decide)]

end

/-- A wheel is switched off where it has no ACTIVE and no AUDIT spoke. -/
theorem mayTurnOff_wheel {s : State} {dom : Nat} (hlo : 2 ≤ dom) (hhi : dom ≤ 5)
    (hidle : ∀ i, i < 10 → spokeRole s (10 * (dom - 2) + i) ≠ 0 ∧ spokeRole s (10 * (dom - 2) + i) ≠ 2) : mayTurnOff s dom = true := by
  simpa [mayTurnOff, hlo, hhi] using hidle

/-- NET is switched off where no MAC is in service. -/
theorem mayTurnOff_net {s : State} (hnone : ∀ n, n < 4 → macAdmitted s n = false ∧ macBoot s n = false) : mayTurnOff s 8 = true := by
  simpa [mayTurnOff] using hnone

/-- AON, CTRL, HUB, DDR and PCIE: no firmware switches them off. -/
theorem mayTurnOff_kept {s : State} {dom : Nat} (hdom : dom = 0 ∨ dom = 1 ∨ dom = 6 ∨ dom = 7 ∨ dom = 9) : mayTurnOff s dom = false := by
  rcases hdom with rfl | rfl | rfl | rfl | rfl <;> rfl

theorem mayTurnOn_wheel {s : State} {dom : Nat} (hlo : 2 ≤ dom) (hhi : dom ≤ 5) (hjump : s.boot.jumpAt.isSome = true) :
    mayTurnOn s dom = true := by
  rw [mayTurnOn, if_pos (by simp; omega), hjump]

theorem setDomain_wheel {dom : Nat} (hlo : 2 ≤ dom) (hhi : dom ≤ 5) (on : Bool) (s : State) :
    setDomain dom on s = { s with
      boot := { s.boot with domains := (if on then wd s.boot.domains ||| wd (2 ^ dom) else wd s.boot.domains &&& ~~~wd (2 ^ dom)).toNat },
      spokes := s.spokes.zipIdx.map fun e => if e.2 / 10 = dom - 2 ∧ e.1.role ≠ 3 then
        (if on then SpokeSt.reset e.2 else { SpokeSt.reset e.2 with role := 4 }) else e.1 } := by
  simp [setDomain, hlo, hhi, wheelRoles]

end Sys2Proof.Machine

open Sys2Proof Sys2Proof.Machine

/-- Settles O8: each clause is one command under its condition; a domain that changes is `setDomain` once the frame that ends is closed. -/
theorem bringUp : Obligations.BringUp := by
  unfold Obligations.BringUp
  intro s
  refine ⟨fun ok0 ok1 c0 c1 hon hnew hchannels =>
      (exec_dramBringupDone hon hnew ok0 ok1).trans (congrArg _ (dramZeroed_failUnless hchannels ok0 ok1)),
    fun a p q hjump hfirst hstate hready hpairs hp hq hcfgs => ?serving,
    fun x dom hserving hframe hx hon => ⟨fun hlo hhi hidle => ?wheelOff, ?netOff, ?kept, ?same⟩,
    fun x dom hframe hx hoff hjump hlo hhi => ?wheelOn, fun dom on hserving hmid => exec_domainSwitch_midFrame hserving hmid⟩
  case serving =>
    have hraised := raisedOnly_pairsServing (s := s.started) hpairs s.clk.tally
    refine ⟨_, exec_firstServing hjump hfirst hstate hready (by simp [pairAt, hpairs, hp]) (by simp [pairAt, hpairs, hq]), ?_⟩
    rw [settleFaults_frame, applyFlashNmb_none (by rw [hraised]; exact hcfgs), hraised]
    exact ⟨rfl, rfl, rfl, rfl, rfl, rfl, rfl, rfl⟩
  case wheelOff =>
    rw [exec_domainSwitch_changes (on := false) hon (fun _ => hframe) (mayTurnOff_wheel hlo hhi hidle), setDomain_wheel hlo hhi, hx]
    rfl
  case netOff =>
    rintro rfl hnone
    rw [exec_domainSwitch_changes (on := false) hon (fun _ => hframe) (mayTurnOff_net hnone), hx]
    rfl
  case kept => exact fun hdom => exec_domainSwitch_off_refused (mayTurnOff_kept hdom)
  case same => exact exec_domainSwitch_same hon
  case wheelOn =>
    rw [exec_domainSwitch_changes (on := true) hoff hframe (mayTurnOn_wheel hlo hhi hjump), setDomain_wheel hlo hhi, hx]
    rfl

end

section
/-! SUPPORT. What one step is: the front command on the rest of the queue, or an idle tick (O1). -/

namespace Sys2Proof.Machine

/-- The tally goes on by one, and the tick counts towards OP_SECONDS while READY is high. -/
theorem idle_eq (s : State) : idle s = { s with
    clk := { s.clk with tally := s.clk.tally + 1 },
    ledg := { s.ledg with opSec := s.ledg.opSec + (s.ledg.opTicks + (if s.boot.ready then 1 else 0)) / 24576000,
                          opTicks := (s.ledg.opTicks + (if s.boot.ready then 1 else 0)) % 24576000 } } := by
  have hmax : max s.clk.tally (s.clk.tally + 1) = s.clk.tally + 1 := by omega
  have hone : s.clk.tally + 1 - s.clk.tally = 1 := by omega
  rw [idle, advance, hmax, hone]

end Sys2Proof.Machine

open Sys2Proof Sys2Proof.Machine

/-- Settles O1: the two cases of the queue (`step_of_cons`, `step_of_nil`), and the idle tick (`idle_eq`). -/
theorem commandQueue : Obligations.CommandQueue := by
  unfold Obligations.CommandQueue
  intro s
  refine ⟨fun c rest hq => ?_, fun hq => ?_⟩
  · rw [step_of_cons hq, State.behind, hq, List.tail_cons]
  · rw [step_of_nil hq, idle_eq]

end

section
/-! SUPPORT. Paired and key-gated writes: what a write at A and one at A + 0x4 do, by what waits at A (O10). -/

namespace Sys2Proof.Machine

/-! ### Authorisation (R544) -/

theorem authFault_authorised {s : State} (hkey : s.maint.key = true) (hloop : s.maint.loop = true) : authFault s = 0 := by
  rw [authFault, hkey, hloop]
  rfl

theorem authFault_noKey {s : State} (hkey : s.maint.key = false) : authFault s = 1 := by
  rw [authFault, hkey]
  rfl

theorem authFault_brokenSeal {s : State} (hkey : s.maint.key = true) (hloop : s.maint.loop = false) : authFault s = 2 := by
  rw [authFault, hkey, hloop]
  rfl

/-! ### The writes of a master -/

/-- The write at A + 0x4 that completes a pair at A, as its command. -/
def completing (m : Master) (a : Nat) : Word → Instr :=
  if a = 0x60 then .sysRemapWrite m else if a = 0x68 then .sysBar2BaseWrite m else if a = 0x70 then .sysDramWinBaseWrite m
  else if a = 0xA008 then .bellSwtrigWrite m else .aonFaultTestWrite m

/-- The pairs that wait at other registers than `a`. -/
def otherHalves (a : Nat) (s : State) : List PairHalf := s.regs.halves.filter fun h => h.off ≠ a

/-- A paired register is a register of the map, and its complement is no paired register itself. -/
theorem pairedRegs_facts {a : Nat} (ha : a ∈ pairedRegs) :
    a < 0x100000 ∧ a % 4 = 0 ∧ a + 4 < 0x100000 ∧ (a + 4) % 4 = 0 ∧ pairedRegs.contains a = true ∧ pairedRegs.contains (a + 4) = false := by
  revert a
  decide

theorem regWrite_half {a : Nat} (ha : a ∈ pairedRegs) (m : Master) (v : Word) (s : State) : regWrite m a v s = some (writeHalf m a v s) := by
  obtain ⟨-, -, -, -, hc, -⟩ := pairedRegs_facts ha
  rw [regWrite, if_pos hc]

theorem regWrite_complement {a : Nat} (ha : a ∈ pairedRegs) (m : Master) (v : Word) (s : State) :
    regWrite m (a + 4) v s = some (writeComplement m a v s) := by
  obtain ⟨-, -, -, -, hc, hn⟩ := pairedRegs_facts ha
  rw [regWrite, if_neg (hn ▸ Bool.false_ne_true), Nat.add_sub_cancel, if_pos ⟨Nat.le_add_left 4 a, hc⟩]

section
variable {s : State} {m : Master} {a : Nat} (hon : hostOn s m = true) (ha : a ∈ pairedRegs)
  (hm : a = 0x60 ∨ a = 0x70 → m = .tellerA ∨ m = .tellerB)
include hon ha hm

theorem exec_pairedWriteHalf (v : Word) : exec (.pairedWriteHalf m a v) s = .next (writeHalf m a v s) := by
  obtain ⟨hlt, h4, -, -, hc, -⟩ := pairedRegs_facts ha
  have he : exec (.pairedWriteHalf m a v) s = execPairedWriteHalf m a v s := rfl
  rw [he, execPairedWriteHalf, if_pos hc,
    masterWrite_reg m a v.toNat s _ hlt h4 (half_off ha hm).1 hon (regWrite_half ha m _ s), wordOf_toNat]

theorem exec_completing (v : Word) : exec (completing m a v) s = .next (writeComplement m a v s) := by
  obtain ⟨-, -, hlt, h4, -, -⟩ := pairedRegs_facts ha
  have he : exec (completing m a v) s = .next (masterWrite m (regAddr m (a + 4)) 4 v.toNat s) := by
    simp only [pairedRegs, List.mem_cons, List.not_mem_nil, or_false] at ha
    rcases ha with rfl | rfl | rfl | rfl | rfl <;> rfl
  rw [he, masterWrite_reg m (a + 4) v.toNat s _ hlt h4 (half_off ha hm).2 hon (regWrite_complement ha m _ s), wordOf_toNat]

end

/-! ### What waits at A -/

theorem dropHalf_eq (a : Nat) (s : State) : dropHalf a s = { s with regs := { s.regs with halves := otherHalves a s } } := by
  have hf : (s.regs.halves.filter fun h => !(h.off == a)) = otherHalves a s := List.filter_congr fun h _ => (decide_not (p := h.off = a)).symm
  rw [dropHalf, State.updRegs, hf]

theorem halfAt_isSome {s : State} {a : Nat} : (halfAt s a).isSome = true ↔ ∃ h ∈ s.regs.halves, h.off = a := by
  simp [halfAt]

theorem halfAt_none {s : State} {a : Nat} (h : ∀ h ∈ s.regs.halves, h.off ≠ a) : halfAt s a = none := by
  simpa [halfAt] using h

theorem writeHalf_first {s : State} {a : Nat} (h : ∀ h ∈ s.regs.halves, h.off ≠ a) (m : Master) (v : Word) :
    writeHalf m a v s = { s with regs := { s.regs with
      halves := { off := a, master := m, value := v, at_ := s.clk.tally } :: otherHalves a s } } := by
  rw [writeHalf, halfAt_none h, if_neg (by simp), dropHalf_eq]
  rfl

theorem writeHalf_again {s : State} {a : Nat} (h : ∃ h ∈ s.regs.halves, h.off = a) (m : Master) (v : Word) :
    writeHalf m a v s = { s with regs := { s.regs with
      halves := { off := a, master := m, value := v, at_ := s.clk.tally } :: otherHalves a s, err := { s.regs.err with pairErr := true } } } := by
  rw [writeHalf, if_pos (halfAt_isSome.mpr h), dropHalf_eq]
  rfl

theorem exec_pairWindowExpire {s : State} {a : Nat} (h : ∃ h ∈ s.regs.halves, h.off = a) :
    exec (.pairWindowExpire a) s = .next (pairErr (dropHalf a s)) := by
  have he : exec (.pairWindowExpire a) s = execPairWindowExpire a s := rfl
  rw [he, execPairWindowExpire, if_pos (halfAt_isSome.mpr h)]

theorem writeComplement_alone {s : State} {a : Nat} (h : ∀ h ∈ s.regs.halves, h.off ≠ a) (m : Master) (v : Word) :
    writeComplement m a v s = pairErr s := by
  rw [writeComplement, halfAt_none h]

section
variable {s : State} {m : Master} {a : Nat} {v : Word} {h : PairHalf} (hh : halfAt s a = some h)
include hh

theorem writeComplement_discarded (hbad : h.master ≠ m ∨ v ≠ ~~~h.value ∨ h.at_ + 3 < s.clk.tally) :
    writeComplement m a v s = pairErr (dropHalf a s) := by
  rw [writeComplement, hh]
  refine if_pos ?_
  simp only [Bool.or_eq_true, decide_eq_true_eq, bne_iff_ne, or_assoc]
  exact hbad

/-- A pair that is right takes effect, unless it needs an authorisation that is missing (R475, R544). -/
theorem writeComplement_right (hmaster : h.master = m) (hv : v = ~~~h.value) (hat : s.clk.tally ≤ h.at_ + 3) :
    writeComplement m a v s =
      if a == 0xF008 && authFault (dropHalf a s) != 0 then
        if s.maint.loop then (dropHalf a s).updErr fun e => { e with keyErr := true }
        else raiseRefused (if isTeller m then 10 else 0xF) 2 ((dropHalf a s).updErr fun e => { e with keyErr := true })
      else pairEffect a h.value (dropHalf a s) := by
  rw [writeComplement, hh]
  refine if_neg ?_
  have hin : ¬ h.at_ + pairTicks < (dropHalf a s).clk.tally := not_lt.mpr hat
  simp [hmaster, hv, hin]

end

end Sys2Proof.Machine

open Sys2Proof Sys2Proof.Machine

/-- Settles O10: a write at A by `writeHalf`, one at A + 0x4 by `writeComplement`, each by what waits at A. -/
theorem pairedWrites : Obligations.PairedWrites := by
  unfold Obligations.PairedWrites
  intro s m a v others write s' hon ha hm hothers hwrite hs'
  obtain rfl : write = completing m := hwrite
  obtain rfl : s' = dropHalf a s := by rw [hs', hothers, dropHalf_eq]; rfl
  subst hothers
  have hc := exec_completing hon ha hm v
  refine ⟨fun h => ?_, fun h => ?_, fun h => ?_, fun h => ?_, fun h hh => ⟨fun hbad => ?_, fun hmaster hv hat => ?_⟩⟩
  · rw [exec_pairedWriteHalf hon ha hm, writeHalf_first h]
    rfl
  · rw [exec_pairedWriteHalf hon ha hm, writeHalf_again h]
    rfl
  · exact exec_pairWindowExpire h
  · exact hc.trans (congrArg _ (writeComplement_alone h m v))
  · exact hc.trans (congrArg _ (writeComplement_discarded hh hbad))
  · rw [hc, writeComplement_right hh hmaster hv hat]
    refine ⟨?_, ?_, ?_, ?_, ?_, ?_⟩
    iterate 4
      rintro rfl
      rfl
    · rintro rfl hkey hloop
      rw [if_neg (by simp [authFault_authorised (s := dropHalf _ s) hkey hloop])]
      rfl
    · rintro rfl hkey hloop
      rw [if_pos (by simp [authFault_noKey (s := dropHalf _ s) hkey]), if_pos hloop]
      rfl

end

section
/-! SUPPORT. Pilot channels: writes at their instant, a state entered, and the window of RANGE_HIZ (O51). -/

namespace Sys2Proof.Machine

def State.withPilot (n : Nat) (q : Pilot) (s : State) : State := { s with pilots := s.pilots.set n q }

theorem withPilot_withPilot (n : Nat) (q r : Pilot) (s : State) : (s.withPilot n q).withPilot n r = s.withPilot n r := by
  rw [State.withPilot, State.withPilot, List.set_set]
  rfl

theorem updPilot_id (n : Nat) (s : State) : s.updPilot n (fun p => p) = s := by
  rw [State.updPilot, show (fun p : Pilot => p) = id from rfl, List.modify_id]

/-- A channel as it enters state `st` at tally `t`: `f` changes it, and the pin follows. -/
def Pilot.entered (st t : Nat) (f : Pilot → Pilot) (p : Pilot) : Pilot :=
  { f { p with state := st, since := t } with pin := pinOf (f { p with state := st, since := t }) }

/-- The soft start from HIZ: r is 0, and a range stored for the enable comes into force (R446). -/
def Pilot.restarted (p : Pilot) : Pilot := { p with r := 0, range := p.stored.getD p.range, stored := none }

theorem exec_pilotParamApply (n : Nat) (s : State) : exec (.pilotParamApply n) s = .next (pilotDue n s) := rfl

theorem exec_rangeHizEnd (n : Nat) (s : State) : exec (.rangeHizEnd n) s = .next (pilotHizEnd n s) := rfl

section
variable {s : State} {n : Nat} {p : Pilot} (hp : s.pilots[n]? = some p)
include hp

theorem withPilot_at (q : Pilot) : (s.withPilot n q).pilots[n]? = some q :=
  List.getElem?_set_self (List.getElem?_eq_some_iff.mp hp).1

theorem updPilot_withPilot (f : Pilot → Pilot) : s.updPilot n f = s.withPilot n (f p) := by
  rw [State.updPilot, modify_set _ _ f _ hp]
  rfl

theorem enterPilot_eq (st : Nat) (f : Pilot → Pilot) :
    enterPilot n st f s = raiseOwn 0x9001 .detect s.clk.tally (some (.pilot n)) st (s.withPilot n (p.entered st s.clk.tally f)) :=
  congrArg (raiseOwn 0x9001 .detect s.clk.tally (some (.pilot n)) st) (updPilot_withPilot hp _)

/-! ### Writes at their instant (R441, R446) -/

theorem pilotTake_other {tag : Nat} (v : Nat) (hen : tag ≠ 0x101) (hrange : tag ≠ 0x102) :
    pilotTake n [(tag, v)] s = s.withPilot n (pilotSet tag v p) := by
  simp [pilotTake, hen, hrange, updPilot_withPilot hp]

/-- RANGE in HIZ waits for the next ENABLE 1. -/
theorem pilotTake_range_hiz {v : Nat} (hstate : p.state = 0) (hnew : v ≠ p.stored.getD p.range) :
    pilotTake n [(0x102, v)] s = s.withPilot n { p with stored := some v } := by
  simp [pilotTake, pilotRange, pilotSet, pilotAt_eq hp, hstate, hnew, updPilot_id, updPilot_withPilot hp]

theorem pilotOn_hiz (hstate : p.state = 0) : pilotOn n s = raiseOwn 0x9001 .detect s.clk.tally (some (.pilot n)) 1
    (s.withPilot n (Pilot.entered 1 s.clk.tally Pilot.restarted { p with on := true })) := by
  have hon : pilotOn n s = enterPilot n 1 Pilot.restarted (s.withPilot n { p with on := true }) := by
    simp only [pilotOn, pilotAt_eq hp, hstate, updPilot_withPilot hp]
    rfl
  rw [hon, enterPilot_eq (withPilot_at hp _), withPilot_withPilot]
  rfl

theorem pilotTake_enable (hoff : p.on = false) : pilotTake n [(0x101, 1)] s = pilotOn n s := by
  simp [pilotTake, pilotSet, pilotAt_eq hp, hoff, updPilot_id]

section
variable {e tag v : Nat} (hdue : p.due = [(e, tag, v)])
include hdue

theorem pilotDue_later (hlater : s.clk.tally < e) : pilotDue n s = s := by
  simp [pilotDue, pilotAt_eq hp, hdue, not_le.mpr hlater]

theorem pilotDueAt_sole : pilotDueAt n e s = pilotTake n [(tag, v)] (s.withPilot n { p with due := [] }) := by
  simp [pilotDueAt, pilotAt_eq hp, hdue, updPilot_withPilot hp]

theorem pilotDue_now (hnow : e ≤ s.clk.tally) : pilotDue n s = pilotTake n [(tag, v)] (s.withPilot n { p with due := [] }) := by
  rw [← pilotDueAt_sole hp hdue]
  simp [pilotDue, pilotAt_eq hp, hdue, hnow, List.eraseDups_cons]

end

/-! ### The window of RANGE_HIZ (R445, R446) -/

theorem pilotHizEnd_over (hstate : p.state = 3) (hover : p.since + 5120 ≤ s.clk.tally) :
    pilotHizEnd n s = if p.stopping then enterPilot n 0 (fun p => { p with stopping := false }) s
      else enterPilot n 1 (fun p => { p with r := 0 }) s := by
  simp [pilotHizEnd, pilotAt_eq hp, hstate, hizTicks, hover]

end

end Sys2Proof.Machine

open Sys2Proof Sys2Proof.Machine

/-- Settles O51: the sole write due is taken as `pilotTake` says once its instant has come, and a window that is over enters its state. -/
theorem pilotRules : Obligations.PilotRules := by
  unfold Obligations.PilotRules
  rintro s n p _ hp rfl
  have hidle := withPilot_at hp { p with due := [] }
  refine ⟨fun e tag v hdue => ⟨fun hlater => ?_, ?_, ?_, ?_⟩, fun hstate hover => ⟨fun hgo => ?_, fun hstop => ?_⟩⟩
  · rw [exec_pilotParamApply, pilotDue_later hp hdue hlater]
  · rintro hnow rfl
    rw [exec_pilotParamApply, pilotDue_now hp hdue hnow, pilotTake_other hidle v (by decide) (by decide), withPilot_withPilot]
    rfl
  · rintro hnow rfl hstate hnew
    rw [exec_pilotParamApply, pilotDue_now hp hdue hnow, pilotTake_range_hiz hidle hstate hnew, withPilot_withPilot]
    rfl
  · rintro hnow rfl rfl hstate hstored hoff
    have he := exec_pilotParamApply n s
    rw [pilotDue_now hp hdue hnow, pilotTake_enable hidle hoff, pilotOn_hiz hidle hstate, withPilot_withPilot] at he
    refine ⟨_, Pilot.entered 1 s.clk.tally Pilot.restarted { p with due := [], on := true }, he, ?_, rfl, rfl, rfl, rfl, rfl, ?_, ?_⟩
    · rw [raiseOwn_frame]
      exact withPilot_at hp _
    · exact congrArg (Option.getD · p.range) hstored
    · rw [raiseOwn_frame]
      rfl
  · refine ⟨p.entered 1 s.clk.tally fun p => { p with r := 0 }, ?_, rfl, rfl, rfl, rfl⟩
    rw [exec_rangeHizEnd, pilotHizEnd_over hp hstate hover, hgo, if_neg Bool.false_ne_true, enterPilot_eq hp]
    rfl
  · refine ⟨p.entered 0 s.clk.tally fun p => { p with stopping := false }, ?_, rfl, rfl⟩
    rw [exec_rangeHizEnd, pilotHizEnd_over hp hstate hover, hstop, if_pos rfl, enterPilot_eq hp]
    rfl

end

section
/-! SUPPORT. One-word transactions over SPI, and the access of the SPI master that each of them makes (O11). -/

namespace Sys2Proof.Machine

/-! ### One word by a master -/

theorem writeRun_word (m : Master) (step : Nat) (w : Word) (a : Nat) (s : State) : writeRun m step [w] a s = busWrite m a w s := by
  simp [writeRun]

theorem readRun_word (m : Master) (step a : Nat) (s : State) : readRun m step 1 a s = ([(busRead m a s).1], (busRead m a s).2) := rfl

section
variable {m : Master} {a : Nat} {s : State} (hon : hostOn s m = true) (ha : a % 4 = 0)
include hon ha

theorem exec_registerWrite_word (w : Word) : exec (.registerWrite m a 4 w.toNat) s = .next (busWrite m a w s).2 := by
  have he : exec (.registerWrite m a 4 w.toNat) s = .next (masterWrite m a 4 w.toNat s) := rfl
  have hrun : (List.range (4 / 4)).map (fun i => wd (w.toNat / 2 ^ (32 * i))) = [w] := by simp [List.range_succ, wordOf_toNat]
  rw [he, masterWrite, hon, if_neg (by decide), accessWrite, if_neg (by simpa using ha), if_neg (by decide), hrun, writeRun_word]

theorem exec_rcRead_word : exec (.rcRead m a 4) s =
    .next ((busRead m a s).2.updRegs fun r => { r with readData := [(busRead m a s).1] }) := by
  have he : exec (.rcRead m a 4) s = .next (masterRead m a 4 s) := rfl
  rw [he, masterRead, hon, if_neg (by decide), access, if_neg (by simpa using ha), if_neg (by decide)]
  rfl

end

/-! ### Transactions of one word (R459 to R463) -/

theorem spiFlags_crc (s : State) : spiFlags s false true false false = s.regs.spiStat / 2 * 2 ||| 2 := by simp [spiFlags, b2n]

theorem spiFlags_bus (s : State) : spiFlags s false false false true = s.regs.spiStat / 2 * 2 ||| 8 := by simp [spiFlags, b2n]

theorem spiHead_eq_iff {bs : List Byte} {hcrc : Byte} (h : bs.getD 5 0#8 = hcrc) : spiHead bs = true ↔ hcrc = crc8 (bs.take 5) := by
  rw [spiHead, h, beq_iff_eq, eq_comm]

/-- A write whose CRCs match is the write of the SPI master; any other writes nothing. -/
theorem spiWriteTx_word {s : State} {fixed : Bool} {bs : List Byte} {b0 b1 b2 b3 dcrc : Byte} (hon : hostOn s .spi = true)
    (hcmd : spiCmd bs = if fixed then 0x12 else 0x02) (hcount : spiCount bs = 1) (hlen : bs.length = 11) (ha : spiAddr bs % 4 = 0)
    (hdata : (bs.drop 6).take 4 = [b0, b1, b2, b3]) (hdcrc : bs.getD 10 0#8 = dcrc) :
    spiWriteTx fixed bs s =
      if spiHead bs = true ∧ dcrc = crc8 [b0, b1, b2, b3] then
        let x := busWrite .spi (spiAddr bs) (wordOfBytes b0 b1 b2 b3) s
        setSpi (spiFlags x.2 true false false x.1) [] x.2
      else setSpi (s.regs.spiStat / 2 * 2 ||| 2) [] s := by
  have hsum : (crc8 [b0, b1, b2, b3] != dcrc) = !decide (dcrc = crc8 [b0, b1, b2, b3]) := bne_comm
  by_cases hok : spiHead bs = true ∧ dcrc = crc8 [b0, b1, b2, b3]
  · simp [spiWriteTx, hon, hcmd, hcount, hlen, ha, hdata, hdcrc, hok, dataWords, writeRun_word, -List.getD_eq_getElem?_getD]
  · have hbad : (!spiHead bs || crc8 [b0, b1, b2, b3] != dcrc) = true := by
      rw [hsum, Bool.or_eq_true, Bool.not_eq_true', Bool.not_eq_true', decide_eq_false_iff_not, ← Bool.not_eq_true, ← not_and_or]
      exact hok
    simp [spiWriteTx, hon, hcmd, hcount, hlen, hdata, hdcrc, hbad, hok, ha, spiFlags_crc, -List.getD_eq_getElem?_getD]

/-- A read whose header matches is the read of the SPI master; any other answers the marker of an error, or nothing where the host has
abandoned it. -/
theorem spiReadTx_word {s : State} {bs : List Byte} (fixed : Bool) (hon : hostOn s .spi = true)
    (hcount : spiCount bs = 1) (hlen : bs.length = 6) (ha : spiAddr bs % 4 = 0) (discard : Bool) :
    spiReadTx fixed discard bs s =
      if spiHead bs = true then
        let x := busRead .spi (spiAddr bs) s
        let data := bytesOf (x.1.getD 0xFFFFFFFF#32)
        setSpi (spiFlags x.2 (!x.1.isNone && !discard) false false x.1.isNone) (if discard then [] else 0xA5#8 :: data ++ [crc8 data]) x.2
      else setSpi (s.regs.spiStat / 2 * 2 ||| 2) (if discard then [] else [0xE1#8]) s := by
  cases hhead : spiHead bs
  · simp [spiReadTx, hon, hlen, hcount, ha, hhead, spiFlags_crc]
  · simp [spiReadTx, hon, hlen, hcount, ha, hhead, readRun_word]

/-! ### The commands -/

theorem exec_spiWriteOf (fixed : Bool) (bs : List Byte) (s : State) :
    exec (if fixed then .spiWriteFixed bs else .spiWrite bs) s = .next (spiWriteTx fixed bs s) := by
  cases fixed <;> rfl

theorem exec_spiReadOf {fixed : Bool} {bs : List Byte} (hcmd : spiCmd bs = if fixed then 0x13 else 0x03) (s : State) :
    exec (if fixed then .spiReadFixed bs else .spiRead bs) s = .next (spiReadTx fixed false bs s) := by
  cases fixed
  · exact congrArg _ (if_pos hcmd)
  · exact congrArg _ (if_pos hcmd)

theorem exec_spiReadAbandon {fixed : Bool} {bs : List Byte} (hcmd : spiCmd bs = if fixed then 0x13 else 0x03) (s : State) :
    exec (.spiReadAbandon bs) s = .next (resetMaster .spi (spiReadTx fixed true bs s)) := by
  have he : exec (.spiReadAbandon bs) s = execSpiReadAbandon bs s := rfl
  rw [he, execSpiReadAbandon, hcmd]
  cases fixed <;> rfl

/-- A master with no pair waiting is reset: its indirect bank alone changes (R479). -/
theorem resetMaster_noPairs {m : Master} {s : State} (h : ∀ h ∈ s.regs.halves, h.master ≠ m) :
    resetMaster m s = { s with regs := { s.regs with ind := s.regs.ind.set (masterCode m) IndBank.reset } } := by
  have hany : (s.regs.halves.any fun h => h.master == m) = false := by simpa using h
  have hkeep : (s.regs.halves.filter fun h => !(h.master == m)) = s.regs.halves := List.filter_eq_self.mpr (by simpa using h)
  simp only [resetMaster, hany, Bool.false_eq_true, if_false, updBank, State.updRegs, hkeep, List.set_eq_modify]

theorem exec_spiStatus {s : State} (hon : hostOn s .spi = true) : exec .spiStatus s =
    .next (setSpi (s.regs.spiStat % 2) [BitVec.ofNat 8 (s.regs.spiStat + if s.regs.irqPend &&& s.regs.irqMask = 0#32 then 0 else 16)] s) := by
  have he : exec .spiStatus s = execSpiStatus s := rfl
  rw [he, execSpiStatus, if_pos hon, spiIrq]
  by_cases h : s.regs.irqPend &&& s.regs.irqMask = 0#32 <;> simp [h, b2n]

end Sys2Proof.Machine

open Sys2Proof Sys2Proof.Machine

/-- Settles O11: a transaction whose checks pass is one access of the SPI master (`spiWriteTx_word`, `spiReadTx_word`). -/
theorem spiTransactions : Obligations.SpiTransactions := by
  unfold Obligations.SpiTransactions
  rintro s cmd a2 a1 a0 b0 b1 b2 b3 hcrc dcrc _ _ _ fixed _ hon rfl rfl rfl rfl
  refine ⟨fun hcmd ha hhead => ?_, fun hcmd => ?_, exec_spiStatus hon⟩
  · have hkind : spiCmd ([cmd, 0#8, a2, a1, a0, hcrc] ++ [b0, b1, b2, b3, dcrc]) = if fixed then 0x12 else 0x02 := by
      rw [hcmd]
      cases fixed <;> rfl
    have hok : spiHead ([cmd, 0#8, a2, a1, a0, hcrc] ++ [b0, b1, b2, b3, dcrc]) = true := (spiHead_eq_iff rfl).mpr hhead
    have htx := spiWriteTx_word hon hkind rfl rfl ha (hdata := rfl) (hdcrc := rfl)
    refine ⟨fun hd => ?_, fun hd => ?_⟩
    · rw [if_pos ⟨hok, hd⟩] at htx
      refine ⟨_, exec_registerWrite_word hon ha _, _, (exec_spiWriteOf fixed _ s).trans (congrArg _ htx), fun hbus => ?_⟩
      have hflag := busWrite_flag .spi (spiAddr ([cmd, 0#8, a2, a1, a0, hcrc] ++ [b0, b1, b2, b3, dcrc])) (wordOfBytes b0 b1 b2 b3) s
      rw [Bool.eq_false_iff.mpr fun hx => Bool.false_ne_true (hbus.symm.trans (hflag hx))]
      exact spiFlags_applied _
    · rw [exec_spiWriteOf, htx, if_neg fun h => hd h.2]
      rfl
  · have hkind : spiCmd [cmd, 0#8, a2, a1, a0, hcrc] = if fixed then 0x13 else 0x03 := by
      rw [hcmd]
      cases fixed <;> rfl
    have hiff : spiHead [cmd, 0#8, a2, a1, a0, hcrc] = true ↔ hcrc = crc8 ([cmd, 0#8, a2, a1, a0, hcrc].take 5) := spiHead_eq_iff rfl
    have htx := fun d ha => spiReadTx_word (s := s) (bs := [cmd, 0#8, a2, a1, a0, hcrc]) fixed hon rfl rfl ha d
    refine ⟨fun ha hhead => ?_, fun ha hhead => ?_, fun hhead ha hpairs => ?_⟩
    · have hread := exec_rcRead_word (a := spiAddr [cmd, 0#8, a2, a1, a0, hcrc]) hon ha
      have hspi := exec_spiReadOf hkind s
      rw [htx _ ha, if_pos (hiff.mpr hhead)] at hspi
      generalize busRead .spi (spiAddr [cmd, 0#8, a2, a1, a0, hcrc]) s = x at hread hspi
      obtain ⟨r, u⟩ := x
      refine ⟨_, r, u.regs.readData, hread, rfl, hspi.trans (congrArg _ ?_)⟩
      cases r with
      | none => exact congrArg (setSpi · _ u) (spiFlags_bus u)
      | some w => exact congrArg (setSpi · _ u) (spiFlags_applied u.regs.spiStat)
    · rw [exec_spiReadOf hkind, htx _ ha, if_neg (mt hiff.mp hhead)]
      rfl
    · refine ⟨_, exec_spiReadAbandon hkind s, ?_⟩
      rw [htx _ ha, if_neg (mt hiff.mp hhead), if_pos rfl]
      exact resetMaster_noPairs (s := setSpi (s.regs.spiStat / 2 * 2 ||| 2) [] s) hpairs

end

section
/-! SUPPORT. Snapshots, the indirect space, descriptors of host DMA and the PCIe endpoint (O12). -/

namespace Sys2Proof.Machine

/-! ### Snapshots (R476) -/

theorem writeSnapshot_busy {s : State} (h : s.clk.tally < s.regs.snapUntil) (v : Word) :
    writeSnapshot v s = s.updErr fun e => { e with snapLost := true } := by
  rw [writeSnapshot, snapBusy, decide_eq_true h, if_pos rfl]

section
variable {s : State} {n : Nat} (hn : n < 4) (hidle : s.regs.snapUntil ≤ s.clk.tally)
include hn hidle

theorem writeSnapshot_one : writeSnapshot (BitVec.ofNat 32 (2 ^ n)) s =
    if s.boot.domains.testBit 8 then
      (s.updMac n fun x => { x with hold := x.cnt, holdTick := s.clk.tally }).updRegs fun r => { r with snapUntil := s.clk.tally + 1 }
    else s.updRegs fun r => { r with snapOff := r.snapOff ||| 2 ^ n } := by
  have hfld : fld (BitVec.ofNat 32 (2 ^ n)) 0 4 = 2 ^ n := by
    revert n
    decide
  have hfree : snapBusy s = false := decide_eq_false (not_lt.mpr hidle)
  simp only [writeSnapshot, hfree, oneBit_filter n hn, domainOn_eq, hfld, Bool.false_eq_true, if_false, List.isEmpty_cons, List.foldl_cons,
    List.foldl_nil]
  cases s.boot.domains.testBit 8 <;> rfl

end

/-! ### The indirect space (R477, R478) -/

/-- The bank through which an indirect access goes: a master's, or the monitor's own. -/
def BankIs (bank : Option Master) (b : IndBank) (s : State) : Prop :=
  match bank with
  | some m => s.regs.ind[masterCode m]? = some b
  | none => s.regs.mind = b

def State.withBank (bank : Option Master) (b : IndBank) (s : State) : State :=
  match bank with
  | some m => { s with regs := { s.regs with ind := s.regs.ind.set (masterCode m) b } }
  | none => { s with regs := { s.regs with mind := b } }

section
variable {bank : Option Master} {b : IndBank} {s : State} (hb : BankIs bank b s)
include hb

theorem bankOf_eq : bankOf s bank = b := by
  cases bank with
  | some m => simp [bankOf, show s.regs.ind[masterCode m]? = some b from hb]
  | none => exact hb

theorem updBank_eq (f : IndBank → IndBank) : updBank bank f s = s.withBank bank (f b) := by
  cases bank with
  | some m => simp only [updBank, State.withBank, State.updRegs, modify_set _ _ f b hb]
  | none => simp only [updBank, State.withBank, State.updRegs, show s.regs.mind = b from hb]

theorem bankIs_withBank (c : IndBank) : BankIs bank c (s.withBank bank c) := by
  cases bank with
  | some m => exact List.getElem?_set_self (List.getElem?_eq_some_iff.mp hb).1
  | none => rfl

end

theorem withBank_withBank (bank : Option Master) (b c : IndBank) (s : State) : (s.withBank bank b).withBank bank c = s.withBank bank c := by
  cases bank with
  | some m => simp only [State.withBank, List.set_set]
  | none => rfl

@[simp] theorem withBank_boot (bank : Option Master) (b : IndBank) (s : State) : (s.withBank bank b).boot = s.boot := by cases bank <;> rfl

@[simp] theorem withBank_net (bank : Option Master) (b : IndBank) (s : State) : (s.withBank bank b).net = s.net := by cases bank <;> rfl

theorem indDomain_low {a : Nat} (h : a < 0x02000000) : indDomain a = none := by
  rw [indDomain, if_neg (by omega), if_neg (by omega), if_neg (by omega)]

theorem exec_sysIndDataAccess_read {m : Master} {s t : State} {w : Word} (hon : hostOn s m = true) (h : indDataRead (some m) s = (w, t)) (v : Word) :
    exec (.sysIndDataAccess m false v) s = .next { t with regs := { t.regs with readData := [some w] } } :=
  congrArg Host.Outcome.next (masterRead_reg m 0x44 w s t (by decide) rfl (.inr rfl) hon (congrArg some h))

theorem exec_sysIndDataAccess_write {m : Master} {s : State} (hon : hostOn s m = true) (v : Word) :
    exec (.sysIndDataAccess m true v) s = .next (indDataWrite (some m) v s) := by
  have he : exec (.sysIndDataAccess m true v) s = .next (masterWrite m (regAddr m 0x44) 4 v.toNat s) := rfl
  rw [he, masterWrite_reg m 0x44 v.toNat s _ (by decide) rfl (.inr rfl) hon rfl, wordOf_toNat]

section
variable {bank : Option Master} {b : IndBank} {s : State} (hb : BankIs bank b s)
include hb

/-- An address below the DRAM registers decodes nowhere. -/
theorem indDataRead_low (ha : b.addr.toNat < 0x02000000) :
    indDataRead bank s = (0#32, s.withBank bank { b with addr := b.addr + 4#32, undec := true }) := by
  rw [indDataRead, bankOf_eq hb, updBank_eq hb, indDomain_low ha]
  simp only [updBank_eq (bankIs_withBank hb _), withBank_withBank]
  rfl

section
variable (ha : b.addr = 0x03000010#32) (hdom : s.boot.domains.testBit 8 = true) {x : Mac} (hx : s.net.macs[0]? = some x)
include ha hdom hx

theorem indDataRead_halfEn : indDataRead bank s = (x.halfEn, s.withBank bank { b with addr := 0x03000014#32 }) := by
  have hstep : stepBank b = { b with addr := 0x03000014#32 } := by rw [stepBank, ha]; rfl
  have hon : domainOn (s.withBank bank { b with addr := 0x03000014#32 }) 8 = true := by rw [domainOn_eq, withBank_boot, hdom]
  have hread (t : State) : indRead 0x03000010 t = some ((t.macAt 0).halfEn, t) := rfl
  have hmac : (s.withBank bank { b with addr := 0x03000014#32 }).macAt 0 = x := macAt_eq (by rw [withBank_net, hx])
  rw [indDataRead, bankOf_eq hb, updBank_eq hb, hstep, ha, show indDomain (0x03000010#32).toNat = some 8 from rfl]
  simp only [hon, Bool.not_true, Bool.false_eq_true, if_false]
  rw [show (0x03000010#32).toNat = 0x03000010 from rfl, hread, hmac]
  rfl

theorem indDataWrite_halfEn (v : Word) : indDataWrite bank v s = { s.withBank bank { b with addr := 0x03000014#32 } with
    net := { s.net with macs := s.net.macs.set 0 { x with halfEn := v } } } := by
  have hstep : stepBank b = { b with addr := 0x03000014#32 } := by rw [stepBank, ha]; rfl
  have hon : domainOn (s.withBank bank { b with addr := 0x03000014#32 }) 8 = true := by rw [domainOn_eq, withBank_boot, hdom]
  have hset := updMac_eq (s := s.withBank bank { b with addr := 0x03000014#32 }) (by rw [withBank_net, hx]) fun x => { x with halfEn := v }
  rw [withBank_net] at hset
  rw [indDataWrite, bankOf_eq hb, updBank_eq hb, hstep, ha, show indDomain (0x03000010#32).toNat = some 8 from rfl]
  simp only [hon, Bool.not_true, Bool.false_eq_true, if_false]
  exact hset

end

end

/-! ### Descriptors (R480, R481) -/

/-- A queue whose descriptor is completed with word 3 `w`: the word is written, RD moves on, and DONE is set. -/
def State.descDone (q : Nat) (h : HdQueue) (w : Nat) (s : State) : State :=
  { s with regs := { s.regs with
      hd := s.regs.hd.set q { h with rd := (h.rd + 1) % 2 ^ (h.k + 1), cur := none },
      hdDone := (BitVec.ofNat 32 s.regs.hdDone ||| BitVec.ofNat 32 (2 ^ q)).toNat,
      hostWrites := ((descAddr h h.rd + 12) % 2 ^ 64, bytesOf (BitVec.ofNat 32 w)) :: s.regs.hostWrites } }

section
variable {s : State} {q : Nat} {h : HdQueue} (hq : s.regs.hd[q]? = some h)
include hq

theorem hdAt_eq : s.hdAt q = h := by simp [State.hdAt, hq]

theorem completeDesc_eq (hlo : 4 ≤ h.k) (hhi : h.k ≤ 12) (status n : Nat) (irq : Bool) :
    completeDesc q status n irq s = raiseVecIf irq 21 (s.descDone q h (2 ^ 31 + status * 2 ^ 28 + b2n irq * 2 ^ 27 + n)) := by
  have hk : h.kEff = h.k := if_pos ⟨hlo, hhi⟩
  have hw (bs : List Byte) (a : Nat) : (hostWrite a bs s).regs.hd[q]? = some h := hq
  rw [completeDesc, hdAt_eq hq]
  simp only [updHd_eq (hw _ _), hk]
  rfl

section
variable (hready : q < 8 ∧ h.enable = true ∧ h.cur = none ∧ 4 ≤ h.k ∧ h.k ≤ 12 ∧ h.wr < 2 ^ (h.k + 1) ∧ h.rd < 2 ^ (h.k + 1) ∧ h.wr ≠ h.rd)
  {lo hi len w3 : Word}
include hready

/-- A descriptor that breaks the table is completed with status 1, vector 21 is raised, and the queue stops. -/
theorem exec_hostDmaDescriptor_rejected
    (hbad : len.toNat < 64 ∨ 65536 < len.toNat ∨ len.toNat % 64 ≠ 0 ∨ lo.toNat % 64 ≠ 0) :
    exec (.hostDmaDescriptor q [lo, hi, len, w3]) s = .next
      ((raiseVec 21 (s.descDone q h (2 ^ 31 + 1 * 2 ^ 28 + b2n (w3.getLsbD 27) * 2 ^ 27 + 0))).updHd q fun h => { h with enable := false }) := by
  obtain ⟨h8, hen, hcur, hlo, hhi, hwr, hrd, hne⟩ := hready
  have he : exec (.hostDmaDescriptor q [lo, hi, len, w3]) s = execHostDmaDescriptor q [lo, hi, len, w3] s := rfl
  have hgate := hd_gate h8 hq hen hcur hlo hhi hwr hrd hne [lo, hi, len, w3] rfl
  have hcond : (decide (len.toNat < 64) || decide (65536 < len.toNat) || len.toNat % 64 != 0 || lo.toNat % 64 != 0) = true := by
    simpa [or_assoc] using hbad
  have hvec (b : Bool) (u : State) : (if b then raiseVecIf b 21 u else raiseVec 21 (raiseVecIf b 21 u)) = raiseVec 21 u := by
    cases b <;> rfl
  rw [he, execHostDmaDescriptor, if_neg hgate]
  refine (if_pos hcond).trans ?_
  rw [completeDesc_eq hq hlo hhi]
  exact congrArg (fun u => Host.Outcome.next (State.updHd u q _)) (hvec (w3.getLsbD 27) _)

theorem exec_hostDmaDescriptor_taken (hlen : 64 ≤ len.toNat) (hmax : len.toNat ≤ 65536) (h64 : len.toNat % 64 = 0) (hlo : lo.toNat % 64 = 0)
    (hnone : (s.recs.getD q RecRing.reset).recs = []) :
    exec (.hostDmaDescriptor q [lo, hi, len, w3]) s = .next (s.updHd q fun h => { h with
      cur := some { addr := lo.toNat + hi.toNat * 2 ^ 32, len := len.toNat, irq := w3.getLsbD 27, fill := 0 } }) := by
  obtain ⟨h8, hen, hcur, hk4, hk12, hwr, hrd, hne⟩ := hready
  have he : exec (.hostDmaDescriptor q [lo, hi, len, w3]) s = execHostDmaDescriptor q [lo, hi, len, w3] s := rfl
  have hgate := hd_gate h8 hq hen hcur hk4 hk12 hwr hrd hne [lo, hi, len, w3] rfl
  have hcond : (decide (len.toNat < 64) || decide (65536 < len.toNat) || len.toNat % 64 != 0 || lo.toNat % 64 != 0) = false := by
    simp [h64, hlo]
    omega
  have hdrain (k : Nat) (u : State) (hu : (u.recs.getD q RecRing.reset).recs = []) : drainRing q (k + 1) u = u := by
    unfold drainRing
    dsimp only
    rw [hu]
    split
    · contradiction
    · rfl
  rw [he, execHostDmaDescriptor, if_neg hgate]
  refine (if_neg (Bool.eq_false_iff.mp hcond)).trans ?_
  exact congrArg _ (hdrain _ _ hnone)

end

end

/-! ### The PCIe endpoint (R454, R458, R506) -/

/-- A requester with no read in the controller leaves it as it is. -/
theorem dropReads_none {req : Nat} {s : State} (hports : s.dram.ports = []) (hwrites : ∀ e ∈ s.dram.entries, e.req = req → e.write = true) :
    dropReads req s = s := by
  have hkeep : (s.dram.entries.filter fun t => !(t.req == req && !t.write)) = s.dram.entries :=
    List.filter_eq_self.mpr fun e he => by
      by_cases hr : e.req = req
      · simp [hwrites e he hr]
      · simp [hr]
  rw [dropReads, State.updDram, hkeep, hports, List.filter_nil, ← hports]
  exact admitPorts_nil s hports

theorem exec_pcieReset {s : State} (hpairs : ∀ h ∈ s.regs.halves, h.master ≠ .pcie) (hports : s.dram.ports = [])
    (hwrites : ∀ e ∈ s.dram.entries, e.req = 42 ∨ e.req = 43 → e.write = true) (cause : PcieCause) :
    exec (.pcieReset cause) s = .next { s with
      regs := { s.regs with ind := s.regs.ind.set 2 IndBank.reset, msixTable := msixReset, msixPba := 0#32 },
      boot := { s.boot with pcieLink := s.boot.pcieLink && cause == .flr } } := by
  have he : exec (.pcieReset cause) s = execPcieReset cause s := rfl
  have hdrop (u : State) (hu : u.dram = s.dram) : dropReads 43 (dropReads 42 u) = u := by
    rw [dropReads_none (by rw [hu, hports]) fun e h hr => hwrites e (hu ▸ h) (.inl hr),
      dropReads_none (by rw [hu, hports]) fun e h hr => hwrites e (hu ▸ h) (.inr hr)]
  rw [he, execPcieReset, resetMaster_noPairs hpairs]
  dsimp only
  rw [hdrop]
  · rfl
  · rfl

end Sys2Proof.Machine

open Sys2Proof Sys2Proof.Machine

/-- Settles O12: snapshots, the indirect bank, descriptors and the endpoint, each by its own command's lemma. -/
theorem hostEngines : Obligations.HostEngines := by
  unfold Obligations.HostEngines
  intro s
  refine ⟨?snapshot, fun v hbusy => congrArg _ (writeSnapshot_busy hbusy v), fun m b v hon hb ha hdom => ?halfEn, fun m b v hon hb ha => ?hole,
    fun q h lo hi len w3 h8 hq hen hcur hk4 hk12 hwr hrd hne hbad => ?rejected,
    fun q h lo hi len w3 h8 hq hen hcur hk4 hk12 hwr hrd hne hmin hmax h64 hlo hnone => ?taken,
    fun cause b hb hpairs hports hwrites => ?pcie, fun hstrap => ?strap⟩
  case snapshot =>
    rintro n x _ hn rfl hx hidle
    have he : exec (.sysSnapshotWrite (BitVec.ofNat 32 (2 ^ n))) s = .next (writeSnapshot (BitVec.ofNat 32 (2 ^ n)) s) := rfl
    rw [he, writeSnapshot_one hn hidle, updMac_eq hx]
    exact ⟨fun hon => congrArg _ (if_pos hon), fun hoff => congrArg _ (if_neg (Bool.eq_false_iff.mp hoff))⟩
  case halfEn =>
    have hbank : BankIs (some m) b s := hb
    refine ⟨fun x hx => ?_, fun x hx => exec_sysIndDataAccess_read hon (indDataRead_halfEn hbank ha hdom hx) v⟩
    rw [exec_sysIndDataAccess_write hon, indDataWrite_halfEn hbank ha hdom hx v]
    rfl
  case hole =>
    have hbank : BankIs (some m) b s := hb
    exact exec_sysIndDataAccess_read hon (indDataRead_low hbank ha) v
  case rejected =>
    refine ⟨_, exec_hostDmaDescriptor_rejected hq ⟨h8, hen, hcur, hk4, hk12, hwr, hrd, hne⟩ hbad, ?_⟩
    have hlt : q < s.regs.hd.length := (List.getElem?_eq_some_iff.mp hq).1
    rw [updHd_eq (List.getElem?_set_self hlt)]
    simp only [raiseVec, State.updRegs, State.descDone, List.set_set]
    rfl
  case taken =>
    rw [exec_hostDmaDescriptor_taken hq ⟨h8, hen, hcur, hk4, hk12, hwr, hrd, hne⟩ hmin hmax h64 hlo hnone, updHd_eq hq]
  case pcie =>
    rw [exec_pcieReset hpairs hports hwrites]
    cases cause <;> simp
  case strap =>
    have hon : hostOn s .pcie = true := by rcases hstrap with h | h <;> simp [hostOn, h]
    refine ⟨congrArg _ (if_pos hon), fun hdom => congrArg _ (if_pos ?_)⟩
    rw [hon, domainOn_eq, hdom]
    rfl

end

section
/-! SUPPORT. Commands of the monitor: when one is taken, the lines it prints, and the authorisation a write needs (O13, O14). -/

namespace Sys2Proof.Machine

/-! ### Lines (R552) -/

/-- Print lines, oldest first; the last 256 are kept. -/
def State.shows (ls : List (List Word)) (s : State) : State :=
  { s with maint := { s.maint with lines := (ls.reverse ++ s.maint.lines).take 256 } }

theorem printLine_eq (l : List Word) (s : State) : printLine l s = s.shows [l] := rfl

theorem printLine_printLine (l k : List Word) (s : State) : printLine k (printLine l s) = s.shows [l, k] := by
  simp only [printLine, take_cons_take]
  rfl

theorem printOk_eq (s : State) : printOk s = s.shows [[0#32]] := rfl

theorem printErr_eq (e : Nat) (s : State) : printErr e s = s.shows [[1#32, BitVec.ofNat 32 e]] := rfl

section
variable {s : State} (hporst : s.boot.porst = false) (hidle : s.maint.awaiting = false)
include hporst hidle

theorem monitor_ready (f : State → State) : monitor f s = f (lineTaken s) := by
  rw [monitor, monReady, hporst, hidle]
  rfl

end

theorem monitor_awaiting {s : State} (h : s.maint.awaiting = true) (f : State → State) : monitor f s = s := by
  rw [monitor, monReady, h, Bool.not_true, Bool.and_false, if_neg Bool.false_ne_true]

/-! ### Authorisation (R544, R554) -/

theorem monEvent_running {s : State} (h : s.boot.jumpAt ≠ none) (code detail : Nat) :
    monEvent code detail s = raiseNode code .teller s.clk.tally none 10 detail [] s := by
  rw [monEvent, if_pos (Option.isSome_iff_ne_none.mpr h)]

theorem monGated_refused {s : State} {why : Nat} (hjump : s.boot.jumpAt ≠ none) (hwhy : authFault s = why) (hne : why ≠ 0)
    (f : State → Bool × State) :
    monGated f s = (raiseNode 0xB003 .teller s.clk.tally none 10 why [] s).shows [[1#32, BitVec.ofNat 32 (1 + why)]] := by
  rw [monGated, hwhy, monEvent_running hjump]
  exact if_pos hne

theorem monGated_made {s t : State} {f : State → Bool × State} (hjump : s.boot.jumpAt ≠ none) (hkey : s.maint.key = true)
    (hloop : s.maint.loop = true) (hf : f (raiseNode 0xB007 .teller s.clk.tally none 10 0 [] s) = (false, t)) :
    monGated f s = t.shows [[0#32]] := by
  rw [monGated, authFault_authorised hkey hloop, monEvent_running hjump 0xB007, hf]
  rfl

/-! ### Accesses of the active pair (R474, R475) -/

theorem isTeller_monMaster (s : State) : isTeller (monMaster s) = true := by
  unfold monMaster
  split <;> rfl

theorem hostOn_teller {m : Master} (hm : isTeller m = true) (s : State) : hostOn s m = true := by
  cases m with
  | tellerA => rfl
  | tellerB => rfl
  | pcie => cases hm
  | spi => cases hm

theorem regAddr_teller {m : Master} (hm : isTeller m = true) (r : Nat) : 0x10000000 + r = regAddr m r := by rw [regAddr, if_pos hm]

theorem dropOwnHalves_none {m : Master} {s : State} (h : ∀ h ∈ s.regs.halves, h.master ≠ m) : dropOwnHalves m s = s := by
  rw [dropOwnHalves, if_neg (by simpa using h)]

theorem ctl_hub (s : State) (m : Master) {p : Nat} (h : p < 0x2000000) : ctlPart s m (0x20000000 + p) = .hub p := by
  unfold ctlPart
  extract_lets k low
  rw [if_neg (by omega), if_neg (by omega), if_neg (by omega), if_pos (by omega), Nat.add_sub_cancel_left]

theorem busWrite_hub {m : Master} (hm : isTeller m = true) {s : State} (hon : s.boot.domains.testBit 6 = true) {p : Nat} (hp : p < 0x2000000)
    (v : Word) : busWrite m (0x20000000 + p) v s = (false, s.updRegs fun r => { r with hubSram := r.hubSram.putWord p v }) := by
  have hdom : domainOn s 6 = true := by rw [domainOn_eq, hon]
  simp only [busWrite, hm, if_true, ctl_hub s m hp, hdom]

theorem monWrite_aligned (step : Nat) {a : Nat} (ha : a % 4 = 0) (ws : List Word) (s : State) :
    monWrite step a ws s = writeRun (monMaster s) step ws a s := by
  rw [monWrite, if_neg (not_not.mpr ha)]

theorem writeRun_two (m : Master) (step : Nat) (v w : Word) (a : Nat) {s t u : State} (hv : busWrite m a v s = (false, t))
    (hw : busWrite m (a + step) w t = (false, u)) : writeRun m step [v, w] a s = (false, u) := by
  simp [writeRun, hv, hw]

/-- The pair of a write that has just come at a free register: nothing else waits there. -/
theorem dropHalf_writeHalf {s : State} {a : Nat} (hnone : ∀ h ∈ s.regs.halves, h.off ≠ a) (m : Master) (v : Word) :
    dropHalf a (writeHalf m a v s) = s := by
  have hall : otherHalves a s = s.regs.halves := List.filter_eq_self.mpr (by simpa using hnone)
  rw [writeHalf_first hnone, dropHalf_eq, hall]
  simp only [otherHalves, List.filter_cons, ne_eq, not_true_eq_false, decide_false, Bool.false_eq_true, if_false]
  rw [show (s.regs.halves.filter fun h => decide (¬h.off = a)) = s.regs.halves from hall]

/-- A teller that writes a paired register and its complement back to back. -/
theorem writeRun_pair {m : Master} (hm : isTeller m = true) {a : Nat} (ha : a ∈ pairedRegs) (hauth : a ≠ 0xF008) (v : Word) {s : State}
    (hnone : ∀ h ∈ s.regs.halves, h.off ≠ a) : writeRun m 4 [v, ~~~v] (regAddr m a) s = (false, pairEffect a v s) := by
  obtain ⟨hlt, -, hlt4, -, -, -⟩ := pairedRegs_facts ha
  have hfirst := busWrite_reg m a v s _ hlt (.inl hm) (regWrite_half ha m v s)
  have hsecond := busWrite_reg m (a + 4) (~~~v) (writeHalf m a v s) _ hlt4 (.inl hm) (regWrite_complement ha m _ _)
  have hwaits : halfAt (writeHalf m a v s) a = some { off := a, master := m, value := v, at_ := s.clk.tally } := by
    rw [writeHalf_first hnone]
    simp [halfAt]
  have htally : (writeHalf m a v s).clk.tally = s.clk.tally := by rw [writeHalf_first hnone]
  refine writeRun_two m 4 v (~~~v) _ hfirst ?_
  rw [regAddr_add, hsecond, writeComplement_right hwaits rfl rfl (by rw [htally]; exact Nat.le_add_right _ 3), dropHalf_writeHalf hnone,
    if_neg (by simp [hauth])]

/-! ### Reads and writes by the monitor (R552, R553) -/

theorem exec_monRd_one {m : Master} {s t : State} {r : Nat} {w : Word} (hporst : s.boot.porst = false) (hidle : s.maint.awaiting = false)
    (hm : m = monMaster s) (hr : r < 0x100000) (h4 : r % 4 = 0) (hv : regRead m r (lineTaken s) = some (w, t)) :
    exec (.monRd (0x10000000 + r) 1) s = .next (t.shows [[3#32, BitVec.ofNat 32 (0x10000000 + r), w], [0#32]]) := by
  have hteller : isTeller m = true := hm ▸ isTeller_monMaster s
  have hread : busRead m (0x10000000 + r) (lineTaken s) = (some w, t) :=
    regAddr_teller hteller r ▸ busRead_reg m r w (lineTaken s) t hr (.inl hteller) hv
  have he : exec (.monRd (0x10000000 + r) 1) s = execMonRd (0x10000000 + r) 1 s := rfl
  have hal : (0x10000000 + r) % 4 = 0 := by omega
  have hmaster : monMaster (lineTaken s) = m := hm.symm
  rw [he, execMonRd, monitor_ready hporst hidle]
  simp only [hal, ne_eq, not_true_eq_false, if_false, hmaster, monReadRun, hread, Bool.false_eq_true]
  exact congrArg _ (printLine_printLine _ _ t)

theorem exec_monRd_unaligned {s : State} {a : Nat} (hporst : s.boot.porst = false) (hidle : s.maint.awaiting = false) (ha : a % 4 ≠ 0) (n : Nat) :
    exec (.monRd a n) s = .next ((refuse (monMaster s) a 2 false (lineTaken s)).shows [[1#32, 4#32]]) := by
  have he : exec (.monRd a n) s = execMonRd a n s := rfl
  rw [he, execMonRd, monitor_ready hporst hidle]
  exact congrArg _ (if_pos ha)

/-- SYS_MIND_ADDR at the HALF_EN of MAC 0. -/
theorem bankIs_setMind (s : State) : BankIs none { s.regs.mind with addr := 0x03000010#32 } (setMind 0x03000010 s) := rfl

/-- Every write of the monitor needs key and seal. -/
theorem exec_gated {c : Instr} (hc : ∃ a v, c = .monWr a v ∨ c = .monWrp a v ∨ c = .monWri a v ∨ ∃ n, c = .monFill a n v) :
    ∃ f, ∀ s, exec c s = .next (monitor (monGated f) s) := by
  obtain ⟨a, v, rfl | rfl | rfl | ⟨n, rfl⟩⟩ := hc <;> exact ⟨_, fun _ => rfl⟩

section
variable {s u : State} (hporst : s.boot.porst = false) (hidle : s.maint.awaiting = false) (hjump : s.boot.jumpAt ≠ none)
  (hkey : s.maint.key = true) (hloop : s.maint.loop = true) (hu : u = raiseNode 0xB007 .teller s.clk.tally none 10 0 [] (lineTaken s))
include hporst hidle hjump hkey hloop hu

/-- A write that is authorised and gets no error response. -/
theorem monitor_made {t : State} {f : State → Bool × State} (hf : f u = (false, t)) : monitor (monGated f) s = t.shows [[0#32]] := by
  subst hu
  rw [monitor_ready hporst hidle, monGated_made (s := lineTaken s) hjump hkey hloop hf]

end

theorem monMaster_raised {s u : State} {c k t n mb d i} (hu : u = raiseNode c k t n mb d i (lineTaken s)) : monMaster u = monMaster s := by
  rw [hu, raiseNode_frame]
  rfl

/-- The words of MON_WR, MON_FILL and MON_WRP, where no half of a pair by the pair in charge is left waiting. -/
theorem monWrite_kept {m : Master} {u t : State} {a : Nat} {ws : List Word} (hm : monMaster u = m) (ha : a % 4 = 0)
    (hw : writeRun m 4 ws a u = (false, t)) (hnone : ∀ h ∈ t.regs.halves, h.master ≠ m) :
    (let x := monWrite 4 a ws u; (x.1, dropOwnHalves (monMaster u) x.2)) = (false, t) := by
  simp only [monWrite_aligned 4 ha, hm, hw, dropOwnHalves_none hnone]

end Sys2Proof.Machine

open Sys2Proof Sys2Proof.Machine

/-- Settles O13: a command taken runs on the state without the rate timer; a write is refused or made by `monGated`. -/
theorem monitorAccess : Obligations.MonitorAccess := by
  unfold Obligations.MonitorAccess
  intro s m base shows hm hporst hidle hbase hshows
  obtain rfl : shows = State.shows := hshows
  obtain rfl : base = lineTaken s := hbase
  obtain rfl : m = monMaster s := hm
  have hteller := isTeller_monMaster s
  refine ⟨fun r w t hr h4 hv => exec_monRd_one hporst hidle rfl hr h4 hv, fun a n ha => exec_monRd_unaligned hporst hidle ha n,
    fun c why hc hjump hwhy => ?refused, fun u v hjump hkey hloop hu hpairs => ?made, fun x hdom hx hoff => ?rdi⟩
  case refused =>
    obtain ⟨f, hf⟩ := exec_gated hc
    have hauth : authFault (lineTaken s) = why ∧ why ≠ 0 := by
      obtain ⟨hkey, rfl⟩ | ⟨hkey, hloop, rfl⟩ := hwhy
      · exact ⟨authFault_noKey hkey, by decide⟩
      · exact ⟨authFault_brokenSeal hkey hloop, by decide⟩
    rw [hf, monitor_ready hporst hidle, monGated_refused (s := lineTaken s) hjump hauth.1 hauth.2]
    rfl
  case made =>
    have hmaster := monMaster_raised hu
    have made {f : State → Bool × State} {t : State} (hf : f u = (false, t)) : monitor (monGated f) s = t.shows [[0#32]] :=
      monitor_made hporst hidle hjump hkey hloop hu hf
    refine ⟨?wr, rfl, fun p hp h4 hon => ?fill, fun hnone => ?wrp, fun x hon hx hoff => ?wri⟩
    case wr =>
      refine congrArg _ (made (monWrite_kept hmaster (t := u.updRegs fun r => { r with irqMask := v }) rfl ?_ hpairs))
      rw [writeRun_word, show (0x10000054 : Nat) = 0x10000000 + 0x54 from rfl, regAddr_teller hteller]
      exact busWrite_reg _ 0x54 v u _ (by decide) (.inl hteller) rfl
    case fill =>
      refine congrArg _ (made (monWrite_kept hmaster (t := { u with regs := { u.regs with
        hubSram := (u.regs.hubSram.putWord p v).putWord (p + 4) v } }) (by omega) ?_ hpairs))
      have hsecond (t : State) (ht : t.boot = u.boot) := busWrite_hub hteller (s := t) (ht ▸ hon) (show p + 4 < 0x2000000 by omega) v
      simp only [← Nat.add_assoc] at hsecond
      exact writeRun_two _ 4 v v _ (busWrite_hub hteller hon (show p < 0x2000000 by omega) v) (hsecond _ rfl)
    case wrp =>
      refine congrArg _ (made ?_)
      rw [monWrite_aligned 4 (by decide), hmaster, show (0x10000068 : Nat) = 0x10000000 + 0x68 from rfl, regAddr_teller hteller,
        writeRun_pair hteller (by decide) (by decide) v hnone]
      rfl
    case wri =>
      refine congrArg _ (made ?_)
      rw [indDataWrite_halfEn (bankIs_setMind u) rfl hon hx v]
      exact congrArg (Prod.mk · _) hoff
  case rdi =>
    have he : exec (.monRdi 0x03000010 1) s = execMonRdi 0x03000010 1 s := rfl
    have hread := indDataRead_halfEn (bankIs_setMind (lineTaken s)) rfl hdom hx
    rw [he, execMonRdi, monitor_ready hporst hidle]
    simp only [mindRun, hread]
    exact congrArg _ ((if_neg (Bool.eq_false_iff.mp hoff)).trans (printLine_printLine _ _ _))

end

section
/-! SUPPORT. The other commands of the monitor, and JTAG (O14). -/

namespace Sys2Proof.Machine

/-! ### Commands that print what the block holds (R552, R553) -/

theorem wd_b2n (b : Bool) : wd (b2n b) = if b then 1#32 else 0#32 := by cases b <;> rfl

section
variable {s : State} (hporst : s.boot.porst = false) (hidle : s.maint.awaiting = false)
include hporst hidle

theorem exec_monTrace {mask : Nat} (hmask : mask < 2048) : exec (.monTrace mask) s =
    .next (State.shows [[0#32]] { lineTaken s with maint := { (lineTaken s).maint with trace := mask } }) := by
  have he : exec (.monTrace mask) s = execMonTrace mask s := rfl
  rw [he, execMonTrace, monitor_ready hporst hidle, Nat.mod_eq_of_lt hmask]
  rfl

theorem exec_monKey : exec .monKey s = .next ((lineTaken s).shows
    [[7#32, if s.maint.key then 1#32 else 0#32, if s.maint.loop then 1#32 else 0#32, BitVec.ofNat 32 s.maint.matched], [0#32]]) := by
  have he : exec .monKey s = execMonKey s := rfl
  rw [he, execMonKey, monitor_ready hporst hidle, printOk, printLine_printLine, wd_b2n, wd_b2n]
  rfl

/-- The operating point, as MON_STATE prints it while the firmware runs. -/
def pointWords (s : State) : List Word :=
  if s.boot.jumpAt.isSome then [wd s.plan.vcore, wd s.clk.mhz, wd s.dram.sp, wd s.plan.scale, wd s.plan.retrain, wd s.ladder.pos] else []

theorem exec_monState {rec : List Word} (hrec : s.ledg.margins.getLast? = some rec) :
    exec .monState s = .next ((lineTaken s).shows [6#32 :: pointWords s ++ rec, [0#32]]) := by
  have he : exec .monState s = execMonState s := rfl
  have hlast : (lineTaken s).ledg.margins.getLast? = some rec := hrec
  rw [he, execMonState, monitor_ready hporst hidle]
  simp only [hlast, Option.getD_some]
  exact congrArg _ (printLine_printLine _ _ _)

/-- The entries that MON_LEDGER prints. -/
def ledgerBetween (s : State) (margin : Bool) (first n : Nat) : List (Nat × List Word) :=
  (ledgerHeld s margin).filter fun e => decide (first ≤ e.1) && decide (e.1 < first + n)

theorem exec_monLedger (margin : Bool) (first n : Nat) : exec (.monLedger margin first n) s =
    .next (printOk ((ledgerBetween s margin first n).foldl (fun s e => printLine (wd 5 :: e.2) s) (lineTaken s))) := by
  have he : exec (.monLedger margin first n) s = execMonLedger margin first n s := rfl
  rw [he, execMonLedger, monitor_ready hporst hidle]
  rfl

theorem exec_monBaud_known {rate : Nat} (hrate : rate ∈ baudRates) : exec (.monBaud rate) s =
    .next (State.shows [[0#32]] { lineTaken s with maint := { (lineTaken s).maint with baud := rate, baudAt := some s.clk.tally } }) := by
  have he : exec (.monBaud rate) s = execMonBaud rate s := rfl
  rw [he, execMonBaud, monitor_ready hporst hidle]
  exact congrArg _ (if_pos (List.contains_iff_mem.mpr hrate))

theorem exec_monBaud_unknown {rate : Nat} (hrate : rate ∉ baudRates) :
    exec (.monBaud rate) s = .next ((lineTaken s).shows [[1#32, 1#32]]) := by
  have he : exec (.monBaud rate) s = execMonBaud rate s := rfl
  rw [he, execMonBaud, monitor_ready hporst hidle]
  exact congrArg _ (if_neg (mt List.contains_iff_mem.mp hrate))

/-! ### MON_MB (R553) -/

theorem exec_monMb_unserved (w : Word) (ws : List Word) (hserve : s.svc.state ≠ 1) :
    exec (.monMb (w :: ws)) s = .next ((lineTaken s).shows [4#32 :: (headerOnly (w :: ws) 0x13 0).words, [0#32]]) := by
  have he : exec (.monMb (w :: ws)) s = execMonMb (w :: ws) s := rfl
  have hs : (lineTaken s).serving = false := by simpa [State.serving, lineTaken] using hserve
  rw [he, execMonMb, monitor_ready hporst hidle, hs]
  exact congrArg _ (printLine_printLine _ _ _)

theorem exec_monMb_posted (w : Word) (ws : List Word) {b : Mbox} (hserve : s.svc.state = 1) (hb : s.mbox[10]? = some b)
    (hroom : (b.inWr + 2048 - b.inRd) % 2048 + ws.length + 1 ≤ 1024) :
    ∃ at_, exec (.monMb (w :: ws)) s = .next { lineTaken s with
      maint := { (lineTaken s).maint with awaiting := true },
      mbox := s.mbox.set 10 { b with inRing := ringPut 1024 b.inRing b.inWr (w :: ws), inWr := (b.inWr + ws.length + 1) % 2048, headAt := at_ } } := by
  have he : exec (.monMb (w :: ws)) s = execMonMb (w :: ws) s := rfl
  have hs : (lineTaken s).serving = true := by simp [State.serving, lineTaken, hserve]
  have hb' : (lineTaken s).mbox[10]? = some b := hb
  have hat : (lineTaken s).mboxAt 10 = b := by simp [State.mboxAt, hb']
  have hfits : ¬ 1024 < posted 1024 b.inWr b.inRd + (w :: ws).length := by
    rw [posted, List.length_cons]
    omega
  refine ⟨if posted 1024 b.inWr b.inRd == 0 then s.clk.tally else b.headAt, ?_⟩
  rw [he, execMonMb, monitor_ready hporst hidle, hs]
  simp only [hat, if_neg hfits, updMbox_eq hb']
  rfl

end

/-- Of a ledger with one entry, the range of that entry's number holds it. -/
theorem ledgerBetween_sole {s : State} {e : LedgerEntry} (h : s.ledg.events = [e]) : ledgerBetween s false e.num 1 = [(e.num, e.words)] := by
  simp [ledgerBetween, ledgerHeld, h]

theorem ledgerBetween_none {s : State} {margin : Bool} {first n : Nat} (h : ∀ e ∈ ledgerHeld s margin, e.1 < first ∨ first + n ≤ e.1) :
    ledgerBetween s margin first n = [] :=
  List.filter_eq_nil_iff.mpr fun e he => by
    have := h e he
    simp only [Bool.and_eq_true, decide_eq_true_eq]
    omega

/-! ### The rate (R551) -/

theorem exec_monBaudRevert_due {s : State} {b : Nat} (hb : s.maint.baudAt = some b) (hdue : b + 10 * 24576000 ≤ s.clk.tally) :
    exec .monBaudRevert s = .next { s with maint := { s.maint with baud := 115200, baudAt := none } } := by
  have he : exec .monBaudRevert s = execMonBaudRevert s := rfl
  rw [he, execMonBaudRevert, hb]
  exact if_pos hdue

/-- While the last line of a command is awaited, no command is taken. -/
theorem exec_monitor_awaiting {s : State} (h : s.maint.awaiting = true) {c : Instr} (hc : c = .monKey ∨ c = .monState ∨ (∃ r, c = .monBaud r)
    ∨ (∃ m, c = .monTrace m) ∨ (∃ ws, c = .monMb ws) ∨ ∃ a n, c = .monRd a n) : exec c s = .next s := by
  obtain rfl | rfl | ⟨r, rfl⟩ | ⟨m, rfl⟩ | ⟨ws, rfl⟩ | ⟨a, n, rfl⟩ := hc <;> exact congrArg _ (monitor_awaiting h _)

/-! ### JTAG (R565) -/

theorem exec_jtagIdcode (s : State) : exec .jtagIdcode s = .next (jtag 1 ((List.range 32).map fun i => idCode.getLsbD i) s) := rfl

theorem jtag_bits {i : Nat} (h : i < 32) : ((List.range 32).map fun i => idCode.getLsbD i)[i]? = some (idCode.getLsbD i) := by
  simp [h]

end Sys2Proof.Machine

open Sys2Proof Sys2Proof.Machine

/-- Settles O14: each command by its lemma; none is taken while a last line is awaited (`exec_monitor_awaiting`). -/
theorem monitorLines : Obligations.MonitorLines := by
  unfold Obligations.MonitorLines
  intro s base shows hbase hshows
  obtain rfl : shows = State.shows := hshows
  obtain rfl : base = lineTaken s := hbase
  refine ⟨fun hporst hidle => ⟨fun mask hmask => exec_monTrace hporst hidle hmask, exec_monKey hporst hidle, fun rec hjump hrec => ?stopped,
      fun a rec hjump hrec => ?running, fun margin first n hnone => ?none, fun e he => ?sole, fun rate hrate => exec_monBaud_known hporst hidle hrate,
      fun rate hrate => exec_monBaud_unknown hporst hidle hrate, fun w ws hserve => exec_monMb_unserved hporst hidle w ws hserve,
      fun w ws b hserve hb hroom => exec_monMb_posted hporst hidle w ws hserve hb hroom⟩,
    fun hawait c hc => exec_monitor_awaiting hawait hc, fun b hb hdue => exec_monBaudRevert_due hb hdue, fun tdi => rfl,
    ⟨_, exec_jtagIdcode s, rfl, ?length, fun i hi => jtag_bits hi⟩, fun pins cells => rfl, rfl⟩
  case stopped => rw [exec_monState hporst hidle hrec, pointWords, hjump]; rfl
  case running => rw [exec_monState hporst hidle hrec, pointWords, hjump]; rfl
  case none => rw [exec_monLedger hporst hidle, ledgerBetween_none hnone]; rfl
  case sole => rw [exec_monLedger hporst hidle, ledgerBetween_sole he]; exact congrArg _ (printLine_printLine _ _ _)
  case length => rw [jtag, List.length_map, List.length_range]

end

section
/-! SUPPORT. The two fault outputs, as `settleFaults` leaves them (O26). -/

namespace Sys2Proof.Machine

theorem settleFaults_condition {s : State} (h : lowestCondition s ≠ none) :
    (settleFaults s).fault.outA = true ∧ (settleFaults s).fault.outB = true ∧ (settleFaults s).fault.lastBad = s.clk.tally := by
  obtain ⟨hA, hB, hbad⟩ := settleFaults_vals s
  have hsome : (lowestCondition s).isSome = true := Option.isSome_iff_ne_none.mpr h
  exact ⟨by simp [hA, hsome], by simp [hB, hsome], hbad hsome⟩

theorem settleFaults_ownA {s : State} (h : ownCause s 0 = true) : (settleFaults s).fault.outA = true := by
  obtain ⟨hA, -, -⟩ := settleFaults_vals s
  rw [hA, h, Bool.true_or, Bool.true_or]

theorem settleFaults_ownB {s : State} (h : ownCause s 1 = true) : (settleFaults s).fault.outB = true := by
  obtain ⟨-, hB, -⟩ := settleFaults_vals s
  rw [hB, h, Bool.true_or, Bool.true_or]

/-- Within 3000 frames of the last condition no output is released. -/
theorem settleFaults_held {s : State} (h : s.clk.tally < s.fault.lastBad + 3000 * 8192) :
    (s.fault.outA = true → (settleFaults s).fault.outA = true) ∧ (s.fault.outB = true → (settleFaults s).fault.outB = true) := by
  obtain ⟨hA, hB, -⟩ := settleFaults_vals s
  have hwin : ¬ s.fault.lastBad + frames 3000 ≤ s.clk.tally := by
    rw [frames_eq]
    exact not_le.mpr h
  exact ⟨fun hout => by simp [hA, hout, hwin], fun hout => by simp [hB, hout, hwin]⟩

theorem settleFaults_released {s : State} (hnone : lowestCondition s = none) (hwin : s.fault.lastBad + 3000 * 8192 ≤ s.clk.tally)
    (h0 : ownCause s 0 = false) (h1 : ownCause s 1 = false) : (settleFaults s).fault.outA = false ∧ (settleFaults s).fault.outB = false := by
  obtain ⟨hA, hB, -⟩ := settleFaults_vals s
  rw [← frames_eq] at hwin
  exact ⟨by simp [hA, hnone, hwin, h0, h1], by simp [hB, hnone, hwin, h0, h1]⟩

/-- What asserts an output whatever else holds (R522). -/
theorem ownCause_iff {s : State} {k : Nat} : ownCause s k = true ↔ s.fault.test.getLsbD k = true
    ∨ (if k = 0 then s.fault.stopA else s.fault.stopB) = true
    ∨ (if k = 0 then s.fault.relA else s.fault.relB) + 60 * 8192 ≤ s.clk.tally := by
  simp only [ownCause, frames_eq, Bool.or_eq_true, decide_eq_true_eq, or_assoc]

theorem exec_releaseWordTimeout_due {s : State} {k : Nat} (hk : k < 2)
    (hdue : (if k = 0 then s.fault.relA else s.fault.relB) + 60 * 8192 ≤ s.clk.tally) : exec (.releaseWordTimeout k) s = exec .faultOutput s := by
  rw [← frames_eq] at hdue
  have hcond : (k < 2 && decide ((if k = 0 then s.fault.relA else s.fault.relB) + frames 60 ≤ s.clk.tally)) = true := by simp [hk, hdue]
  exact congrArg _ (if_pos hcond)

end Sys2Proof.Machine

open Sys2Proof Sys2Proof.Machine

/-- Settles O26: FAULT_OUTPUT is `settleFaults`; a late release word and a stopped clock run it too. -/
theorem faultOutputs : Obligations.FaultOutputs := by
  unfold Obligations.FaultOutputs
  intro s
  exact ⟨settleFaults s, rfl, settleFaults_frame s, settleFaults_condition, fun h => settleFaults_ownA (ownCause_iff.mpr h),
    fun h => settleFaults_ownB (ownCause_iff.mpr h), settleFaults_held, settleFaults_released,
    fun k hk hdue => exec_releaseWordTimeout_due hk hdue, rfl, rfl⟩

end

section
/-! SUPPORT. KEY_N, the seal loop, and the end of an update that no request goes on with (O27). -/

namespace Sys2Proof.Machine

theorem exec_keyChanged_same (s : State) : exec (.keyChanged s.maint.key) s = .next s := by
  have he : exec (.keyChanged s.maint.key) s = execKeyChanged s.maint.key s := rfl
  rw [he, execKeyChanged, if_pos rfl]

theorem exec_keyChanged_asserted {s : State} (h : s.maint.key = false) : exec (.keyChanged true) s =
    .next (raiseOwn 0xB001 .detect s.clk.tally none 1 { s with maint := { s.maint with key := true } }) := by
  have he : exec (.keyChanged true) s = execKeyChanged true s := rfl
  rw [he, execKeyChanged, h, if_neg Bool.false_ne_true]
  rfl

theorem exec_keyChanged_withdrawn {s : State} (h : s.maint.key = true) : exec (.keyChanged false) s =
    .next (withdraw 1 (raiseOwn 0xB001 .detect s.clk.tally none 0 { s with maint := { s.maint with key := false } })) := by
  have he : exec (.keyChanged false) s = execKeyChanged false s := rfl
  rw [he, execKeyChanged, h, if_neg (by decide)]
  rfl

/-! ### The seal loop (R543) -/

theorem sealStep_eq (x : BitVec 15) : sealStep x = x <<< 1 ||| (if x.getLsbD 14 = x.getLsbD 13 then 0 else 1) := by
  unfold sealStep
  by_cases h : x.getLsbD 14 = x.getLsbD 13
  · rw [if_pos h, if_neg (by rw [h]; simp)]
    rfl
  · rw [if_neg h, if_pos (bne_iff_ne.mpr h)]
    rfl

/-- Key, seal and the rest after a sample of SEAL_SNS; `same` says that it was the bit sent. -/
def Maint.sampled (same : Bool) (m : Maint) : Maint :=
  let n := if same then min (m.matched + 1) 256 else 0
  { m with
    lfsr := m.lfsr <<< 1 ||| (if m.lfsr.getLsbD 14 = m.lfsr.getLsbD 13 then 0 else 1),
    matched := n, loop := same && (m.loop || decide (n = 256)) }

theorem exec_sealBitSample {s : State} (hporst : s.boot.porst = false) (hdriven : s.boot.sealDriven = true) {sns same : Bool}
    (hsame : same = decide (sns = s.maint.lfsr.getLsbD 14)) {x : State} (hx : x = { s with maint := s.maint.sampled same }) :
    exec (.sealBitSample sns) s = .next (
      if x.maint.loop = s.maint.loop then x
      else
        let u := raiseOwn 0xB002 .detect s.clk.tally none (b2n x.maint.loop) x
        if x.maint.loop then u else withdraw 2 u) := by
  have he : exec (.sealBitSample sns) s = execSealBitSample sns s := rfl
  have hbit : (sns == s.maint.lfsr.getLsbD 14) = same := hsame.symm
  rw [he, execSealBitSample, hporst, hdriven, if_neg (by decide), apply_ite Host.Outcome.next]
  simp only [hbit, beq_eq_decide, sealStep_eq]
  rw [hx]
  rfl

/-! ### Withdrawal (R545, R550) -/

theorem exec_fwUpdateTimeout_due {s : State} {u : Update} (hu : s.flash.update = some u) (hdue : u.last + 30000 * 8192 ≤ s.clk.tally) :
    exec .fwUpdateTimeout s = .next
      (raiseNode 0xB006 .teller s.clk.tally none u.mb (u.target * 256 + 3) [] { s with flash := { s.flash with update := none } }) := by
  have he : exec .fwUpdateTimeout s = execFwUpdateTimeout s := rfl
  rw [← frames_eq] at hdue
  rw [he, execFwUpdateTimeout, hu]
  refine (if_pos hdue).trans ?_
  rw [cancelUpdate, hu]
  rfl

end Sys2Proof.Machine

open Sys2Proof Sys2Proof.Machine

/-- Settles O27: KEY_N by the three cases of `execKeyChanged`, a sample by `Maint.sampled`, and withdrawal by its frame. -/
theorem authorisation : Obligations.Authorisation := by
  unfold Obligations.Authorisation
  intro s
  refine ⟨exec_keyChanged_same s, exec_keyChanged_asserted, exec_keyChanged_withdrawn, ?_, fun why => ?_, fun u hu hdue => exec_fwUpdateTimeout_due hu hdue⟩
  · intro sns x m same n whole hporst hdriven hm hsame hn hwhole hx
    subst hm hn
    have hseal := exec_sealBitSample hporst hdriven hsame (x := x) (by rw [hx, hwhole]; rfl)
    obtain rfl : x.maint.loop = whole := by rw [hx]
    refine ⟨fun heq => ?_, fun htrue hloop => ?_, fun hfalse hloop => ?_⟩
    · rw [hseal, if_pos heq]
    · rw [hseal, htrue, hloop, if_neg (by decide)]
      rfl
    · rw [hseal, hfalse, hloop, if_neg (by decide)]
      rfl
  · have hframe := withdraw_frame why s
    exact ⟨_, rfl, by rw [hframe], by rw [hframe], hframe⟩

end

section
/-! SUPPORT. LEDGER_READ, LEDGER_CLEAR and the requests of an update of the boot flash (O23). -/

namespace Sys2Proof.Machine

/-! ### Requests that may change the flash -/

theorem fits_authorised {s : State} {r : Request} (h : Authorised s r) (items : List Item) : Fits r items :=
  fun hn => absurd (h.1.symm.trans hn) Bool.false_ne_true

/-- An authorised request that its opcode answers with OK. -/
theorem serve_authorised_ok (o : Op) {r : Request} {s u : State} {items : List Item} (he : Executes s r) (hc : r.commitAt = 0)
    (ha : Authorised s r) (hr : runOp o true r s = (u, .ok items)) :
    serve o true r s = answeredOk s u r (codeOfOp o) r.handle items .none :=
  serve_ok he (fun _ => ha) (.inl hc) hr (fits_authorised ha items)

/-- An authorised request whose opcode answers another status, the firmware's memory of R516 as it was. -/
theorem serve_authorised_fail (o : Op) {r : Request} {s u : State} {st d : Nat} (he : Executes s r) (hc : r.commitAt = 0)
    (ha : Authorised s r) (hr : runOp o true r s = (u, Reply.fail st d)) (hfw : u.fw = s.fw) :
    serve o true r s = answeredFail u r (codeOfOp o) st d := by
  obtain ⟨hbox, hkey, hloop⟩ := ha
  have hauth : authFault s = 0 := by simp [authFault, hkey, hloop]
  have hrun : answer o true r s = (u, Reply.fail st d) := by
    simp [answer, hbox, hauth, hc, hr, Reply.fail]
  exact gate_eq he hrun hfw

/-- What a request with one item carries. -/
theorem realItems_one {t : Nat} {ws : List Word} (ht : t ≠ 0) :
    realItems [{ tag := t, vals := ws }] = [(0, { tag := t, vals := ws })] := by
  simp [realItems, ht]

theorem itemsBad_one (is : List Item) {t : Nat} {ws : List Word} {ok : Nat → Bool} (hok : ok ws.length = true) :
    itemsBad is [(t, ok)] [(0, { tag := t, vals := ws })] = none := by
  rw [itemsBad, if_pos (by simp [hok]), itemsBad]

theorem wd_toNat {n : Nat} (h : n < 2 ^ 32) : (wd n).toNat = n := by
  rw [wd, BitVec.toNat_ofNat, Nat.mod_eq_of_lt h]

/-! ### LEDGER_READ and LEDGER_CLEAR (R536, R537) -/

theorem opLedgerRead_held {r : Request} {s : State} {margin : Bool} {first most : Nat} {a b : Nat × List Word}
    (hl : ledgerOf s r.handle = some margin) (hi : r.items = [{ tag := 0x70, vals := [wd first, wd most] }]) (hf : first < 2 ^ 32)
    (h1 : 1 ≤ most) (h255 : most ≤ 255) (ha : (ledgerHeld s margin).head? = some a) (hb : (ledgerHeld s margin).getLast? = some b) :
    opLedgerRead r s = (s, .ok (fitItems ((if isNmb r.mb then 368 else 1023) - 8)
      (((if first = 0xFFFFFFFF then ledgerHeld s margin else (ledgerHeld s margin).filter fun e => decide (first ≤ e.1)).take most).map
        fun e => { tag := 0x71, vals := e.2 }) ++ [{ tag := 0x72, vals := [wd (ledgerNext s margin), wd a.1, wd b.1] }])) := by
  have hfirst : (([wd first, wd most].getD 0 0#32)).toNat = first := wd_toNat hf
  have hmost : (([wd first, wd most].getD 1 0#32)).toNat = most := wd_toNat (by omega)
  have hrange : (decide (most = 0) || decide (255 < most)) = false := by simp; omega
  have hreal : realItems r.items = [(0, { tag := 0x70, vals := [wd first, wd most] })] := by rw [hi, realItems_one (by decide)]
  rw [opLedgerRead, hl]
  simp only [hreal, itemsBad_one r.items (t := 0x70) (ws := [wd first, wd most]) (ok := (· == 2)) rfl]
  simp only [List.head?_cons, Option.map_some, Option.getD_some, hfirst, hmost, hrange, Bool.false_eq_true, if_false, ha, hb, Nat.sub_sub]

theorem raiseEvent_ledg (e : Event) (s : State) :
    (raiseEvent e s).ledg = { s.ledg with queue := (raiseEvent e s).ledg.queue, suppressed := (raiseEvent e s).ledg.suppressed } :=
  congrArg State.ledg (raiseEvent_frame e s)

/-- The state in which the event ledger holds nothing, and nothing waits for it. -/
def State.emptied (s : State) : State := { s with ledg := { s.ledg with events := [], queue := [], suppressed := [] } }

/-- The event ledger cleared: the event that reports it is raised, and written as the one entry; what waited before still waits. -/
def State.eventsCleared (mb : Nat) (s : State) : State :=
  let e := clearedEvent s mb false 1
  let t := raiseEvent e s.emptied
  writeEntry e 0 { t with ledg := { t.ledg with queue := s.ledg.queue } }

theorem opLedgerClear_event {r : Request} {s : State} (hl : ledgerOf s r.handle = some false)
    (hi : r.items = [{ tag := 0x110, vals := [1] }]) : opLedgerClear r s = (s.eventsCleared r.mb, .ok []) := by
  have hreal : realItems r.items = [(0, { tag := 0x110, vals := [1] })] := by rw [hi, realItems_one (by decide)]
  rw [opLedgerClear, hl]
  simp only [hreal, itemsBad_one r.items (t := 0x110) (ws := [1]) (ok := (· == 1)) rfl]
  exact (if_neg (by decide)).trans (if_neg (by decide))

theorem writeEntry_empty {e : Event} {n : Nat} {s : State} (h : s.ledg.events = []) :
    ∃ x : LedgerEntry, (writeEntry e n s).ledg.events = [x] ∧ x.num = s.ledg.evNext ∧ x.ev = e := by
  rw [writeEntry, h]
  exact ⟨_, rfl, rfl, rfl⟩

theorem eventsCleared_ledg (mb : Nat) (s : State) :
    (∃ x : LedgerEntry, (s.eventsCleared mb).ledg.events = [x] ∧ x.num = s.ledg.evNext ∧ x.ev.code = 0xA010)
    ∧ (s.eventsCleared mb).ledg.evNext = (s.ledg.evNext + 1) % 2 ^ 32 ∧ (s.eventsCleared mb).ledg.margins = s.ledg.margins := by
  have hraised := raiseEvent_ledg (clearedEvent s mb false 1) s.emptied
  have hevents : (raiseEvent (clearedEvent s mb false 1) s.emptied).ledg.events = [] := by rw [hraised]; rfl
  have hnext : (raiseEvent (clearedEvent s mb false 1) s.emptied).ledg.evNext = s.ledg.evNext := by rw [hraised]; rfl
  have hmargins : (raiseEvent (clearedEvent s mb false 1) s.emptied).ledg.margins = s.ledg.margins := by rw [hraised]; rfl
  rw [State.eventsCleared]
  generalize raiseEvent (clearedEvent s mb false 1) s.emptied = t at hevents hnext hmargins
  obtain ⟨x, hx, hnum, hev⟩ := writeEntry_empty (e := clearedEvent s mb false 1) (n := 0)
    (s := { t with ledg := { t.ledg with queue := s.ledg.queue } }) hevents
  refine ⟨⟨x, hx, hnum.trans hnext, ?_⟩, ?_, hmargins⟩
  · rw [hev]
    rfl
  · exact congrArg (fun n => (n + 1) % 2 ^ 32) hnext

/-! ### The requests of an update (R546 to R549) -/

/-- The update of a request of the mailbox, with nothing of its content yet. -/
def Update.begun (mb t len : Nat) (crc : Word) (now : Nat) : Update :=
  { mb := mb, target := t, length := len, crc := crc, words := [], last := now }

theorem eraseTarget_eq (t : Nat) (s : State) : eraseTarget t s = { s with flash := { s.flash with
    cfgs := if t = 2 then s.flash.cfgs.set (cfgSpare s) none else s.flash.cfgs,
    images := if t = 2 then s.flash.images else s.flash.images.set t none } } := by
  rw [eraseTarget]
  split <;> rfl

theorem opFwBegin_starts {r : Request} {s : State} {t len : Nat} {crc : Word}
    (hi : r.items = [{ tag := 0x100, vals := [wd t, wd len, crc] }]) (hu : s.flash.update = none) (ht : t ≤ 2)
    (himg : t < 2 → s.boot.image ≠ t) (hpos : 0 < len) (h4 : len % 4 = 0) (hlen : len ≤ (if t = 2 then 65536 else 16777216)) :
    opFwBegin r s = (raiseFw 0xB004 r.mb t { eraseTarget t s with flash := { (eraseTarget t s).flash with
      update := some (Update.begun r.mb t len crc s.clk.tally) } }, .ok []) := by
  have hlarge : len ≤ 16777216 := hlen.trans (by split <;> omega)
  have hreal : realItems r.items = [(0, { tag := 0x100, vals := [wd t, wd len, crc] })] := by rw [hi, realItems_one (by decide)]
  have htoNat : (([wd t, wd len, crc].getD 0 0#32)).toNat = t := wd_toNat (by omega)
  have hlenNat : (([wd t, wd len, crc].getD 1 0#32)).toNat = len := wd_toNat (by omega)
  have htarget : (decide (2 < t) || (decide (t < 2) && s.boot.image == t)) = false := by
    simp only [Bool.or_eq_false_iff, decide_eq_false_iff_not, Bool.and_eq_false_imp, decide_eq_true_eq, beq_eq_false_iff_ne]
    exact ⟨by omega, himg⟩
  have hroom : (decide (len = 0) || decide ((if t = 2 then 65536 else 16777216) < len)) = false := by
    simp only [Bool.or_eq_false_iff, decide_eq_false_iff_not]
    exact ⟨by omega, by omega⟩
  rw [opFwBegin]
  simp only [hreal, itemsBad_one r.items (t := 0x100) (ws := [wd t, wd len, crc]) (ok := (· == 3)) rfl, List.head?_cons, Option.map_some,
    Option.getD_some, htoNat, hlenNat, hu, Option.isSome_none, htarget, hroom, h4, bne_self_eq_false, Bool.false_eq_true, if_false]
  rfl

/-- More of the content of an update. -/
def Update.more (ws : List Word) (now : Nat) (u : Update) : Update := { u with words := u.words ++ ws, last := now }

theorem opFwData_appends {r : Request} {s : State} {u : Update} {off : Nat} {ws : List Word} (hu : s.flash.update = some u)
    (hmb : u.mb = r.mb) (hi : r.items = [{ tag := 0x101, vals := wd off :: ws }]) (hne : ws ≠ []) (hlen : ws.length ≤ 1013)
    (hoff : off = 4 * u.words.length) (hfit : off + 4 * ws.length ≤ u.length) (hmax : u.length ≤ 16777216) :
    opFwData r s = ({ s with flash := { s.flash with update := some (u.more ws s.clk.tally) } },
      .ok [{ tag := 0x101, vals := [wd (off + 4 * ws.length)] }]) := by
  have hown : (u.mb != r.mb) = false := by rw [hmb, bne_self_eq_false]
  have hpos : 0 < ws.length := List.length_pos_iff.mpr hne
  have hreal : realItems r.items = [(0, { tag := 0x101, vals := wd off :: ws })] := by rw [hi, realItems_one (by decide)]
  have hvlen : (fun n => decide (2 ≤ n) && decide (n ≤ 1014)) (wd off :: ws).length = true := by
    simp only [List.length_cons, Bool.and_eq_true, decide_eq_true_eq]
    omega
  have hoffNat : ((wd off :: ws).getD 0 0#32).toNat = off := wd_toNat (by omega)
  have hroom : (off != 4 * u.words.length || decide (u.length < 4 * (u.words.length + (wd off :: ws).length - 1))) = false := by
    simp only [hoff, bne_self_eq_false, Bool.false_or, decide_eq_false_iff_not, List.length_cons]
    omega
  have hsum : 4 * (u.words ++ ws).length = off + 4 * ws.length := by rw [List.length_append]; omega
  rw [opFwData]
  simp only [hreal, itemsBad_one r.items (t := 0x101) (ws := wd off :: ws) (ok := fun n => decide (2 ≤ n) && decide (n ≤ 1014)) hvlen,
    List.head?_cons, Option.map_some, Option.getD_some, hu, hown, hoffNat, hroom, Bool.false_eq_true, if_false, List.drop_succ_cons,
    List.drop_zero, hsum]
  rfl

/-- What ends an update: all of its content is there, and the mailbox is its own. -/
theorem opFwEnd_eq {r : Request} {s : State} {u : Update} (hi : ∀ i ∈ r.items, i.tag = 0) (hu : s.flash.update = some u) (hmb : u.mb = r.mb)
    (hall : u.length ≤ 4 * u.words.length) :
    opFwEnd r s = if contentGood u = true then
        if ∀ g ∈ validGens s u.target, g < contentGen u then (commitUpdate u s, .ok []) else (s, .fail 2 0)
      else (cancelUpdate 5 s, .fail 2 0) := by
  have hgens : ((validGens s u.target).any fun g => decide (contentGen u ≤ g)) = !decide (∀ g ∈ validGens s u.target, g < contentGen u) := by
    rw [Bool.eq_iff_iff]
    simp
  rw [opFwEnd, anyItem_pad hi, hu]
  simp only [hmb, bne_self_eq_false, Bool.false_eq_true, if_false, if_neg (Nat.not_lt.mpr hall), hgens]
  cases hgood : contentGood u
  · rfl
  · by_cases hnew : ∀ g ∈ validGens s u.target, g < contentGen u
    · rw [decide_eq_true hnew, if_pos hnew]
      rfl
    · rw [decide_eq_false hnew, if_neg hnew]
      rfl

theorem cancelUpdate_fw (c : Nat) (s : State) : (cancelUpdate c s).fw = s.fw := by
  rw [cancel_frame]

end Sys2Proof.Machine

open Sys2Proof Sys2Proof.Machine

/-- Settles O23: each opcode answers what its own chapter gives (`serve_open_ok`, `serve_authorised_ok`, `serve_authorised_fail`). -/
theorem requestLedgerUpdate : Obligations.RequestLedgerUpdate := by
  unfold Obligations.RequestLedgerUpdate
  refine fun s r he hc => ⟨?_, fun ha hl hi => ?_, fun t len crc ha hi hu ht himg hpos h4 hlen => ?_,
    fun u off ws ha hu hmb hi hne hlen hoff hfit hmax => ?_, fun u ha hi hu hmb hall => ?_⟩
  · rintro margin first most l a b hl hi hf h1 h255 ha hb rfl hfit
    exact congrArg _ (serve_open_ok .ledgerRead he hc rfl (opLedgerRead_held hl hi hf h1 h255 ha hb) hfit)
  · obtain ⟨⟨x, hx, hnum, hcode⟩, hnext, hmargins⟩ := eventsCleared_ledg r.mb s
    exact ⟨_, x, congrArg _ (serve_authorised_ok .ledgerClear he hc ha (opLedgerClear_event hl hi)), hx, hnum, hcode, hnext, hmargins⟩
  · have hserve := serve_authorised_ok .fwBegin he hc ha (opFwBegin_starts hi hu ht himg hpos h4 hlen)
    rw [eraseTarget_eq] at hserve
    exact congrArg _ hserve
  · exact congrArg _ (serve_authorised_ok .fwData he hc ha (opFwData_appends hu hmb hi hne hlen hoff hfit hmax))
  · have hend := opFwEnd_eq hi hu hmb hall
    by_cases hgood : contentGood u = true
    · by_cases hnew : ∀ g ∈ validGens s u.target, g < contentGen u
      · rw [if_pos ⟨hgood, hnew⟩]
        rw [if_pos hgood, if_pos hnew] at hend
        exact congrArg _ (serve_authorised_ok .fwEnd he hc ha hend)
      · rw [if_neg fun h => hnew h.2, if_pos hgood]
        rw [if_pos hgood, if_neg hnew] at hend
        exact congrArg _ (serve_authorised_fail .fwEnd he hc ha hend rfl)
    · rw [if_neg fun h => hgood h.1, if_neg hgood]
      rw [if_neg hgood] at hend
      exact congrArg _ (serve_authorised_fail .fwEnd he hc ha hend (cancelUpdate_fw 5 s))

end

section
/-! SUPPORT. When the ladder is evaluated and when a step of it is undone (O59). -/

namespace Sys2Proof.Machine

/-! ### Where the ladder is free to move (R518, R524) -/

theorem ladderFree_serving {s : State} (hb : s.clk.tally % 8192 = 0) (hs : s.serving = true) (hr : s.ladder.replacing = none) :
    ladderFree s = true := by
  rw [ladderFree, hs, hr, atFrame_iff hb]
  rfl

theorem ladderFree_replacing {s : State} (hr : s.ladder.replacing ≠ none) : ladderFree s = false := by
  rw [ladderFree, Option.isNone_eq_false_iff.mpr (Option.isSome_iff_ne_none.mpr hr), Bool.and_false, Bool.false_and]

theorem exec_ladderEvaluate_free {s : State} (h : ladderFree s = true) :
    exec .ladderEvaluate s = .next (evaluateLadder s.clk.tally (closeFrame s)) :=
  congrArg Host.Outcome.next (if_pos h)

theorem exec_ladderEvaluate_held {s : State} (h : ladderFree s = false) : exec .ladderEvaluate s = .next s :=
  congrArg Host.Outcome.next (if_neg (by rw [h]; exact Bool.false_ne_true))

/-! ### Up (R524) -/

theorem evaluateLadder_needed {x : State} {n : Nat} (b : Nat) (h : neededStep x = some n) : evaluateLadder b x = takeSteps b n false x := by
  rw [evaluateLadder, h]

theorem evaluateLadder_unfit {x : State} (b : Nat) (h : neededStep x = none) : evaluateLadder b x = takeSteps b 7 true x := by
  rw [evaluateLadder, h]

theorem neededStep_lt {x : State} {n : Nat} (h : neededStep x = some n) : n < 8 :=
  List.mem_range.mp (List.mem_of_find?_eq_some h)

/-- No step is taken to a position that the ladder has already. -/
theorem takeSteps_reached {x : State} {n : Nat} (b : Nat) (h : n ≤ x.ladder.pos) : takeSteps b n false x = x := by
  have hnone : ((List.range 8).filter fun k => decide (x.ladder.pos < k) && decide (k ≤ n)) = [] := by
    rw [List.filter_eq_nil_iff]
    simp only [Bool.and_eq_true, decide_eq_true_eq]
    omega
  rw [takeSteps, hnone]
  rfl

/-! ### Down (R525) -/

/-- The ladder's last check for an undo is now. -/
def State.checkedNow (s : State) : State := { s with ladder := { s.ladder with checked := s.clk.tally } }

theorem exec_ladderUndo_due {s : State} (h : ladderFree s = true) (hdue : s.ladder.checked + 3000 * 8192 ≤ s.clk.tally) :
    exec .ladderUndo s = .next (if mayUndo (closeFrame s).checkedNow = true then undoOne s.clk.tally (closeFrame s).checkedNow
      else (closeFrame s).checkedNow) := by
  have htally : (closeFrame s).checkedNow.clk.tally = s.clk.tally := closeFrame_tally s
  rw [← frames_eq] at hdue
  rw [← htally]
  exact congrArg Host.Outcome.next (if_pos (by rw [h, decide_eq_true hdue, Bool.and_self]))

theorem exec_ladderUndo_held {s : State} (h : ladderFree s = false ∨ s.clk.tally < s.ladder.checked + 3000 * 8192) :
    exec .ladderUndo s = .next s := by
  refine congrArg Host.Outcome.next (if_neg fun hgo => ?_)
  rw [Bool.and_eq_true, decide_eq_true_eq, frames_eq] at hgo
  obtain ⟨hfree, hdue⟩ := hgo
  rcases h with h | h
  · exact absurd (h.symm.trans hfree) Bool.false_ne_true
  · omega

theorem mayUndo_early {x : State} (h : x.ladder.pos = 0 ∨ x.clk.tally < x.ladder.changed + 30000 * 8192) : mayUndo x = false := by
  rw [mayUndo, frames_eq]
  rcases h with h | h
  · rw [h, bne_self_eq_false, Bool.false_and, Bool.false_and]
  · rw [decide_eq_false (Nat.not_le.mpr h), Bool.and_false, Bool.false_and]

/-- Undoing the highest step moves the position down by one at this boundary. -/
theorem undoOne_ladder (b : Nat) (x : State) : (undoOne b x).ladder.pos = x.ladder.pos - 1 ∧ (undoOne b x).ladder.changed = b := by
  have hkeep : ∀ {γ : Type} (g : LadderSt → γ) (v : State) (c k : Nat),
      g (settleScale none (raiseOwn c .boundary b none k v)).ladder = g v.ladder := fun g v c k => by
    rw [settleScale_keep (fun s => g s.ladder) fun _ _ => rfl, raiseOwn_keep (fun s => g s.ladder) fun _ _ _ _ _ => rfl]
  rw [undoOne]
  exact ⟨hkeep LadderSt.pos _ _ _, hkeep LadderSt.changed _ _ _⟩

end Sys2Proof.Machine

open Sys2Proof Sys2Proof.Machine

/-- Settles O59: the evaluation takes the steps up to the one needed (`takeSteps_pos`, `takeSteps_reached`), the undo takes one back
(`undoOne_ladder`), and neither runs where the ladder is not free. -/
theorem ladderMoves : Obligations.LadderMoves := by
  unfold Obligations.LadderMoves
  rintro s x rfl hb hs
  refine ⟨fun hr => ?_, fun hr => ?_, fun hsoon => exec_ladderUndo_held (.inr hsoon)⟩
  · have hfree := ladderFree_serving hb hs hr
    have heval := exec_ladderEvaluate_free hfree
    refine ⟨fun n hn => ?_, fun hn => ?_, fun hdue => ?_⟩
    · rw [evaluateLadder_needed _ hn] at heval
      exact ⟨_, heval, takeSteps_pos _ _ _ _ (neededStep_lt hn), takeSteps_dram _ _ _ _, takeSteps_reached _⟩
    · rw [evaluateLadder_unfit _ hn] at heval
      exact ⟨_, heval, takeSteps_pos _ _ _ _ (by decide), takeSteps_dram _ _ _ _⟩
    · have hundo := exec_ladderUndo_due hfree hdue
      have hchecked : (closeFrame s).checkedNow = { closeFrame s with ladder := { (closeFrame s).ladder with checked := s.clk.tally } } := by
        rw [State.checkedNow, closeFrame_tally]
      refine ⟨fun hearly => ?_, fun hmay => ?_⟩
      · have hmay : mayUndo (closeFrame s).checkedNow = false := mayUndo_early (by rw [← closeFrame_tally s] at hearly; exact hearly)
        rw [hundo, hmay, hchecked]
        rfl
      · rw [← hchecked] at hmay
        rw [if_pos hmay] at hundo
        obtain ⟨hpos, hchanged⟩ := undoOne_ladder s.clk.tally (closeFrame s).checkedNow
        exact ⟨_, hundo, hpos, hchanged⟩
  · have hheld := ladderFree_replacing hr
    exact ⟨exec_ladderEvaluate_held hheld, exec_ladderUndo_held (.inl hheld)⟩

end

section
/-! SUPPORT. Charges, retirements, promotions and the placement after one (O58). -/

namespace Sys2Proof.Machine

theorem execAuditChargeExpire_eq (sp : Nat) (s : State) : exec (.auditChargeExpire sp) s = .next { s with fault := { s.fault with
    charges := s.fault.charges.filter fun c => decide (c.1 ≠ sp ∨ s.clk.tally < c.2 + 30000 * 8192) } } := by
  have he : exec (.auditChargeExpire sp) s = .next (expireCharges (· == sp) s) := rfl
  have hheld : (fun c : Nat × Nat => !(c.1 == sp) || decide (s.clk.tally < c.2 + frames 30000))
      = fun c => decide (c.1 ≠ sp ∨ s.clk.tally < c.2 + 30000 * 8192) := by
    funext c
    rw [frames_eq, Bool.decide_or, decide_not, beq_eq_decide]
  rw [he, expireCharges, hheld]

/-! ### A spoke is retired at a frame boundary (R509 to R513) -/

theorem exec_spokeRetired_doomed {s : State} {sp : Nat} (hb : s.clk.tally % 8192 = 0) (hd : (doomedAt s s.clk.tally).contains sp = true) :
    exec (.spokeRetired sp) s = .next (retireSpoke s.clk.tally sp (closeFrame s)) :=
  congrArg Host.Outcome.next (if_pos (by rw [atFrame_iff hb, hd, Bool.and_self]))

/-- The spoke out of service, its mark in the fault memory, and a re-plan due for it. -/
def State.retired (sp : Nat) (s : State) : State := { s with
  spokes := (setRole sp 3 s).spokes, plan := { s.plan with due := s.plan.due ||| 64 },
  fault := { s.fault with retired := if sp ∈ s.fault.retired then s.fault.retired else s.fault.retired ++ [sp],
                          doomed := s.fault.doomed.filter fun d => d.1 ≠ sp } }

theorem otherKey_eq (sp : Nat) : (fun e : Nat × Nat => e.1 != sp) = fun e => decide (e.1 ≠ sp) := by
  funext e
  rw [decide_not, ← beq_eq_decide]
  rfl

theorem markRetired_eq (sp : Nat) (s : State) : markRetired sp s = { s with
    spokes := (setRole sp 3 s).spokes,
    fault := { s.fault with retired := if sp ∈ s.fault.retired then s.fault.retired else s.fault.retired ++ [sp],
                            doomed := s.fault.doomed.filter fun d => d.1 ≠ sp } } := by
  have hmark : (if s.fault.retired.contains sp = true then s.fault.retired else s.fault.retired ++ [sp])
      = if sp ∈ s.fault.retired then s.fault.retired else s.fault.retired ++ [sp] := by simp only [List.contains_iff_mem]
  rw [← otherKey_eq, ← hmark]
  rfl

/-- SPOKE_RETIRED recorded for the spoke `sp` taken out of service. -/
def State.retiring (b sp : Nat) (s : State) : State :=
  let t := raiseOwn 0xA001 .boundary b (some (spokeNode sp)) sp (markRetired sp s)
  { t with plan := { t.plan with due := t.plan.due ||| 64 } }

theorem raisedOnly_retiring (b sp : Nat) (s : State) : RaisedOnly (s.retired sp) (s.retiring b sp) := by
  have h := raisedOnly_raiseOwn 0xA001 .boundary b (some (spokeNode sp)) sp (markRetired sp s)
  rw [State.retiring]
  rw [markRetired_eq] at h ⊢
  generalize raiseOwn 0xA001 .boundary b (some (spokeNode sp)) sp _ = t at h ⊢
  unfold RaisedOnly at h ⊢
  rw [h]
  rfl

theorem retireSpoke_noSpare {s : State} {b sp : Nat} (h : getsSpare s b sp = false) : retireSpoke b sp s = { s.retiring b sp with
    ladder := { (s.retiring b sp).ladder with silent := (s.retiring b sp).ladder.silent ++ plainOn s sp,
                                              replacing := some ((s.retiring b sp).ladder.replacing.getD b) } } := by
  rw [retireSpoke, h]
  rfl

theorem retireSpoke_spare {s : State} {b sp y : Nat} (h : getsSpare s b sp = true) (hy : wheelSpare s b (sp / 10) = some y)
    (hplain : plainOn s sp = []) : retireSpoke b sp s =
      takeSchedule b sp y false (fadeWords b (touchedWords s []) (healCopies (· == sp) (s.retiring b sp))) := by
  rw [retireSpoke, h, hy, hplain]
  rfl

/-- What a spare that takes a schedule changes of the placement, the spokes, the retired ones and the ladder (R510). -/
theorem takeSchedule_facts (b sp y : Nat) (planned : Bool) (s : State) :
    (takeSchedule b sp y planned s).spokes = (setRole y 0 s).spokes
    ∧ (takeSchedule b sp y planned s).fault = s.fault ∧ (takeSchedule b sp y planned s).ladder = s.ladder
    ∧ (takeSchedule b sp y planned s).plan = s.plan := by
  refine ⟨takeSchedule_spokes b sp y planned s, ?_, ?_, ?_⟩
  · exact takeSchedule_keep State.fault (raiseOwn_keep State.fault fun _ _ _ _ _ => rfl) (fun _ _ => rfl) (fun _ _ => rfl) ..
  · exact takeSchedule_keep State.ladder (raiseOwn_keep State.ladder fun _ _ _ _ _ => rfl) (fun _ _ => rfl) (fun _ _ => rfl) ..
  · exact takeSchedule_keep State.plan (raiseOwn_keep State.plan fun _ _ _ _ _ => rfl) (fun _ _ => rfl) (fun _ _ => rfl) ..

theorem setRole_spokes_congr {s t : State} (sp role : Nat) (h : s.spokes = t.spokes) : (setRole sp role s).spokes = (setRole sp role t).spokes :=
  congrArg (fun l : List SpokeSt => l.modify sp fun x => { x with role := role }) h

theorem mem_retired_mark (sp : Nat) (s : State) : sp ∈ (s.retired sp).fault.retired := by
  show sp ∈ if sp ∈ s.fault.retired then s.fault.retired else s.fault.retired ++ [sp]
  split
  · assumption
  · exact List.mem_append_right _ (List.mem_singleton_self sp)

/-! ### A planned promotion (R515) -/

theorem exec_plannedPromotion_due {s : State} {sp p y : Nat} (hb : s.clk.tally % 8192 = 0) (hp : s.plan.promote = [(sp, p)])
    (hdue : p ≤ s.clk.tally) (hy : wheelSpare (closeFrame s) s.clk.tally (sp / 10) = some y) (hr : isRetired (closeFrame s) sp = false) :
    exec (.plannedPromotion sp) s = .next (takeSchedule s.clk.tally sp y true (markRetired sp
      { closeFrame s with plan := { (closeFrame s).plan with promote := dropKey sp (closeFrame s).plan.promote } })) := by
  have he : exec (.plannedPromotion sp) s = execPlannedPromotion sp s := rfl
  have hspare : wheelSpare { closeFrame s with plan := { (closeFrame s).plan with promote := dropKey sp (closeFrame s).plan.promote } }
      (closeFrame s).clk.tally (sp / 10) = some y := by
    rw [closeFrame_tally]
    exact hy
  rw [he, execPlannedPromotion]
  refine (if_pos (by simp [atFrame_iff hb, hp, hdue])).trans ?_
  simp only [hspare]
  refine (if_neg fun h => ?_).trans (by rw [closeFrame_tally])
  exact absurd (hr.symm.trans h) Bool.false_ne_true

/-! ### No placement fits (R514) -/

theorem exec_placementChanged_none {s : State} {b : Nat} (hb : s.clk.tally % 8192 = 0) (hs : s.serving = true)
    (hr : s.ladder.replacing = some b) (hf : findPlace (closeFrame s) = none) :
    exec .placementChanged s = .next (raiseOwn 0xA003 .boundary s.clk.tally none 0 (takeSteps s.clk.tally 7 true
      { closeFrame s with ladder := { (closeFrame s).ladder with replacing := none } })) := by
  have he : exec .placementChanged s = execPlacementChanged s := rfl
  rw [he, execPlacementChanged]
  refine (if_pos (by rw [atFrame_iff hb, hs, hr]; rfl)).trans ?_
  simp only [hf, closeFrame_tally]

theorem exec_placementChanged_idle {s : State} (hr : s.ladder.replacing = none) : exec .placementChanged s = .next s := by
  have he : exec .placementChanged s = execPlacementChanged s := rfl
  rw [he, execPlacementChanged, hr]
  exact if_neg (by simp)

/-- A step of the ladder leaves the placement, and the time of a pending one. -/
theorem takeStep_place (b k : Nat) (s : State) :
    ((takeStep b k s).ladder.replacing, (takeStep b k s).adm.place) = (s.ladder.replacing, s.adm.place) := by
  have htails : ∀ (n : Nat) (p : Feed → Bool), ((shedTails n p s).ladder.replacing, (shedTails n p s).adm.place)
      = (s.ladder.replacing, s.adm.place) := fun n p =>
    raiseOwn_keep (fun s => (s.ladder.replacing, s.adm.place)) (fun _ _ _ _ _ => rfl) ..
  unfold takeStep
  split
  case h_3 => exact htails _ _
  case h_4 => exact htails _ _
  all_goals rfl

theorem takeSteps_place (b n : Nat) (unfit : Bool) (s : State) :
    ((takeSteps b n unfit s).ladder.replacing, (takeSteps b n unfit s).adm.place) = (s.ladder.replacing, s.adm.place) :=
  takeSteps_keep (fun s => (s.ladder.replacing, s.adm.place))
    (raiseOwn_keep (fun s => (s.ladder.replacing, s.adm.place)) fun _ _ _ _ _ => rfl) (fun _ _ => rfl) (fun _ _ _ => rfl)
    takeStep_place b n unfit s

end Sys2Proof.Machine

open Sys2Proof Sys2Proof.Machine

/-- Settles O58: a retirement without a spare leaves `State.retired` with its nodes silent, one with a spare and a planned promotion take the
schedule (`takeSchedule_place`, `takeSchedule_facts`), and a placement that is not found takes the whole ladder. -/
theorem sparesTaken : Obligations.SparesTaken := by
  unfold Obligations.SparesTaken
  rintro s x rfl
  refine ⟨fun sp => execAuditChargeExpire_eq sp s, fun sp hb hd => ?_, fun sp p y hb hp hdue hy hr => ?_, fun b hb hs hr hf => ?_,
    exec_placementChanged_idle⟩
  · have hexec := exec_spokeRetired_doomed hb hd
    have hraised := raisedOnly_retiring s.clk.tally sp (closeFrame s)
    refine ⟨fun hspare => ?_, fun y hspare hy hplain => ?_⟩
    · rw [retireSpoke_noSpare hspare] at hexec
      refine ⟨_, hexec, ?_⟩
      generalize (closeFrame s).retiring s.clk.tally sp = t at hraised ⊢
      unfold RaisedOnly at hraised
      rw [hraised]
      rfl
    · rw [retireSpoke_spare hspare hy hplain] at hexec
      obtain ⟨hspokes, hfault, hladder, -⟩ := takeSchedule_facts s.clk.tally sp y false
        (fadeWords s.clk.tally (touchedWords (closeFrame s) []) (healCopies (· == sp) ((closeFrame s).retiring s.clk.tally sp)))
      refine ⟨_, hexec, ?_, ?_, ?_, ?_⟩
      · rw [takeSchedule_place]
        exact congrArg (List.map _) (congrArg (fun t => t.adm.place) hraised)
      · rw [hspokes]
        have hkept : ((closeFrame s).retiring s.clk.tally sp).spokes = (setRole sp 3 (closeFrame s)).spokes := by
          unfold RaisedOnly at hraised
          rw [hraised]
          rfl
        exact setRole_spokes_congr y 0 hkept
      · rw [hfault]
        exact (congrArg (fun t => sp ∈ t.fault.retired) hraised).mpr (mem_retired_mark sp (closeFrame s))
      · rw [hladder]
        exact congrArg (fun t => t.ladder.replacing) hraised
  · obtain ⟨hspokes, hfault, -, hplan⟩ := takeSchedule_facts s.clk.tally sp y true (markRetired sp
      { closeFrame s with plan := { (closeFrame s).plan with promote := dropKey sp (closeFrame s).plan.promote } })
    refine ⟨_, exec_plannedPromotion_due hb hp hdue hy hr, takeSchedule_place .., ?_, ?_, ?_⟩
    · rw [hspokes]
      rfl
    · rw [hfault]
      exact mem_retired _ _
    · rw [hplan]
      exact congrArg (fun f => (closeFrame s).plan.promote.filter f) (otherKey_eq sp)
  · have hkept := takeSteps_place s.clk.tally 7 true
      { closeFrame s with ladder := { (closeFrame s).ladder with replacing := none } }
    obtain ⟨hreplacing, hplace⟩ := Prod.mk.inj hkept
    refine ⟨_, exec_placementChanged_none hb hs hr hf, ?_, ?_, ?_⟩
    · rw [raiseOwn_pos, takeSteps_pos _ _ _ _ (by decide)]
    · rw [raiseOwn_keep (fun s => s.ladder.replacing) fun _ _ _ _ _ => rfl]
      exact hreplacing
    · rw [raiseOwn_keep (fun s => s.adm.place) fun _ _ _ _ _ => rfl]
      exact hplace

end

section
/-! SUPPORT. The recorder's flush, the event ledger and the re-plan (O60). -/

namespace Sys2Proof.Machine

/-! ### The recorder (R529) -/

theorem exec_recorderFlush_late {s : State} {r b : Nat} {h : HdQueue} {c : HdCur} {g : RecRing} (hr : r < 8) (hh : s.regs.hd[r]? = some h)
    (hc : h.cur = some c) (hirq : c.irq = false) (hlo : 4 ≤ h.k) (hhi : h.k ≤ 12) (hg : s.recs[r]? = some g) (hsince : g.since = some b)
    (hlate : b + 300 * 8192 ≤ s.clk.tally) : exec (.recorderFlush r) s = .next { s.descDone r h (2 ^ 31 + c.fill) with
      recs := s.recs.set r { g with since := none } } := by
  have he : exec (.recorderFlush r) s = execRecorderFlush r s := rfl
  have hring : s.recs.getD r RecRing.reset = g := by simp [hg]
  have hgo : (decide (8 ≤ r) || !(decide (b + frames 300 ≤ s.clk.tally) || (!g.recs.isEmpty && decide (c.len < c.fill + 80)))) = false := by
    rw [frames_eq, decide_eq_true hlate, decide_eq_false (by omega)]
    rfl
  rw [he, execRecorderFlush, hdAt_eq hh, hring]
  simp only [hc, hsince, hgo, Bool.false_eq_true, if_false, completeDesc_eq hh hlo hhi, hirq]
  rfl

theorem exec_recorderFlush_early {s : State} {r b : Nat} {h : HdQueue} {c : HdCur} {g : RecRing} (hh : s.regs.hd[r]? = some h)
    (hc : h.cur = some c) (hg : s.recs[r]? = some g) (hsince : g.since = some b) (hearly : s.clk.tally < b + 300 * 8192)
    (hroom : c.fill + 80 ≤ c.len) : exec (.recorderFlush r) s = .next s := by
  have he : exec (.recorderFlush r) s = execRecorderFlush r s := rfl
  have hring : s.recs.getD r RecRing.reset = g := by simp [hg]
  rw [he, execRecorderFlush, hdAt_eq hh, hring]
  simp only [hc, hsince]
  refine if_pos ?_
  rw [frames_eq, decide_eq_false (Nat.not_le.mpr hearly), decide_eq_false (Nat.not_lt.mpr hroom)]
  simp

/-! ### The event ledger and OP_SECONDS (R533, R534) -/

/-- An event written to a ledger with room is its last entry, under the next number. -/
theorem writeEntry_room (e : Event) (n : Nat) {s : State} (h : s.ledg.events.length < 8192) :
    ∃ y : LedgerEntry, writeEntry e n s = { s with ledg := { s.ledg with
        events := s.ledg.events ++ [y], evNext := (s.ledg.evNext + 1) % 2 ^ 32 } }
      ∧ y.num = s.ledg.evNext ∧ y.ev = e ∧ y.opSec = s.ledg.opSec ∧ y.resets = s.ledg.resets ∧ y.repeats = n := by
  have hroom : (if eventRoom ≤ s.ledg.events.length then s.ledg.events.drop 32 else s.ledg.events) = s.ledg.events :=
    if_neg (Nat.not_le.mpr h)
  rw [writeEntry, hroom]
  exact ⟨_, rfl, rfl, rfl, rfl, rfl, rfl⟩

theorem exec_ledgerEntryWrite_oldest {s : State} {e : Event} {n : Nat} {rest : List (Event × Nat)} (hs : s.serving = true)
    (hq : s.ledg.queue = (e, n) :: rest) :
    exec .ledgerEntryWrite s = .next (writeEntry e n { s with ledg := { s.ledg with queue := rest } }) := by
  have he : exec .ledgerEntryWrite s = execLedgerEntryWrite s := rfl
  rw [he, execLedgerEntryWrite, hq]
  exact if_pos hs

theorem exec_opSecondsSave_due {s : State} (hs : s.serving = true) (hdue : s.ledg.opSaved + 600 ≤ s.ledg.opSec) :
    exec .opSecondsSave s = .next { s with ledg := { s.ledg with opSaved := s.ledg.opSec } } :=
  if_pos (by rw [hs, decide_eq_true hdue]; rfl)

theorem exec_opSecondsSave_early {s : State} (h : s.ledg.opSec < s.ledg.opSaved + 600) : exec .opSecondsSave s = .next s :=
  if_neg (by rw [decide_eq_false (Nat.not_le.mpr h), Bool.and_false]; exact Bool.false_ne_true)

/-! ### The decisions of a re-plan (R532) -/

section
variable {m : SensorSet} {v ps mv : Nat} (hps : (ps : Int) = max 0 (60 - slackMin m)) (hmv : (mv : Int) = max 0 (50 - ((v : Int) - m.sramVmin)))
include hps hmv

/-- The voltage decided, with what the slack and the SRAM lack as `ps` and `mv`. -/
theorem planVcore_eq (daily : Bool) : planVcore daily m v =
    if ps ≠ 0 ∨ mv ≠ 0 then min 900 (v + 5 * ((max (10 * ((ps + 9) / 10)) mv + 4) / 5))
    else if daily = true ∧ 120 < slackMin m ∧ 80 < (v : Int) - m.sramVmin then max 650 (v - 5) else v := by
  obtain rfl : ps = (60 - slackMin m).toNat := by omega
  obtain rfl : mv = ((50 : Int) - ((v : Int) - m.sramVmin)).toNat := by omega
  simp only [planVcore, Bool.or_eq_true, Bool.and_eq_true, decide_eq_true_eq, and_assoc]
  rfl

theorem planVcore_raised (daily : Bool) (h : ps ≠ 0 ∨ mv ≠ 0) :
    planVcore daily m v = min 900 (v + 5 * ((max (10 * ((ps + 9) / 10)) mv + 4) / 5)) :=
  (planVcore_eq hps hmv daily).trans (if_pos h)

theorem planVcore_kept (hps0 : ps = 0) (hmv0 : mv = 0) : planVcore false m v = v := by
  rw [planVcore_eq hps hmv, if_neg (by omega)]
  exact if_neg fun h => Bool.false_ne_true h.1

theorem planVcore_lowered (hps0 : ps = 0) (hmv0 : mv = 0) (hslack : 120 < slackMin m) (hroom : 80 < (v : Int) - m.sramVmin) :
    planVcore true m v = max 650 (v - 5) := by
  rw [planVcore_eq hps hmv, if_neg (by omega)]
  exact if_pos ⟨rfl, hslack, hroom⟩

end

section
variable {s : State} {m : SensorSet} {v f k t : Nat}

theorem planClock_hot (daily : Bool) (h : 1040 < m.tempMax) : planClock s daily m v f = max 600 (f - 25) :=
  if_pos (by rw [decide_eq_true h, Bool.true_or])

theorem planClock_daily (hcool : m.tempMax ≤ 1040) (hf : f < 750) (hslack : 100 < slackMin m) (hv : v ≤ 880) :
    planClock s true m v f = f + 25 := by
  have hkept : (decide (1040 < m.tempMax) || (v == 900 && decide (slackMin m < 60))) = false := by
    simp
    omega
  rw [planClock, hkept]
  exact (if_neg Bool.false_ne_true).trans (if_pos (by simp [hf, hslack, hv]))

theorem planScale_four (daily : Bool) (h : 256 < m.ceRate) : planScale daily m k = 4 := if_pos h

theorem planScale_two (daily : Bool) (h : 16 < m.ceRate) (hmax : m.ceRate ≤ 256) : planScale daily m k = max k 2 :=
  (if_neg (Nat.not_lt.mpr hmax)).trans (if_pos h)

theorem planRetrain_halved (daily : Bool) (h : m.eyeMin < 40 ∨ 10 < m.eyeDrop) : planRetrain s daily m t = max 10 (t / 2) :=
  if_pos (by simpa using h)

theorem planRetrain_doubled (heye : 50 ≤ m.eyeMin) (hdrop : m.eyeDrop ≤ 10) :
    planRetrain s true m t = min s.boot.dramCfg.retrain (t * 2) := by
  have hgood : (decide (m.eyeMin < 40) || decide (10 < m.eyeDrop)) = false := by
    simp
    omega
  rw [planRetrain, hgood]
  exact (if_neg Bool.false_ne_true).trans (if_pos (by simp [heye]))

end

/-! ### The re-plan (R531) -/

/-- The readings of a re-plan, kept for the plan. -/
def State.sensed (m : SensorSet) (s : State) : State := { s with plan := { s.plan with last := m } }

/-- A re-plan between two boundaries: its decisions are made, its promotions are planned, and the ladder's evaluation is asked for. -/
def State.replanned (daily : Bool) (m : SensorSet) (s : State) : State :=
  let t := decidePlan daily m (s.sensed m)
  let p := boundaryFrom (s.clk.tally + frameTicks)
  { t with
    plan := { t.plan with promote := t.plan.promote ++ (planPromotions t m).map (fun sp => (sp, p)), due := 0,
                          dailyAt := if daily then s.ledg.opSec else s.plan.dailyAt },
    fault := { t.fault with code7 := decide (1080 < m.tempMax) }, ladder := { t.ladder with asked := true } }

/-- What a re-plan decides, and what it leaves. -/
theorem decidePlan_facts (daily : Bool) (m : SensorSet) (s : State) :
    let t := decidePlan daily m s
    (t.plan.vcore = planVcore daily m s.plan.vcore ∧ t.clk.mhzTarget = planClock s daily m (planVcore daily m s.plan.vcore) s.clk.mhzTarget
      ∧ t.plan.scale = planScale daily m s.plan.scale ∧ t.plan.retrain = planRetrain s daily m s.plan.retrain)
    ∧ t.clk.tally = s.clk.tally ∧ t.ladder = s.ladder ∧ t.ledg = s.ledg ∧ t.fw = s.fw ∧ t.vals = s.vals ∧ t.pending = s.pending := by
  dsimp only
  rw [decidePlan]
  extract_lets
  split
  · exact ⟨⟨rfl, rfl, rfl, rfl⟩, rfl, rfl, rfl, rfl, rfl, rfl⟩
  · exact ⟨⟨rfl, rfl, rfl, rfl⟩, rfl, rfl, rfl, rfl, rfl, rfl⟩

theorem exec_replan_between {s : State} {daily : Bool} {reason : Nat} (m : SensorSet) (hs : s.serving = true)
    (hdaily : daily = true → s.plan.dailyAt + 86400 ≤ s.ledg.opSec) (hr : reason.testBit 10 = false) (hb : s.clk.tally % 8192 ≠ 0)
    (hfree : s.ladder.replacing = none) :
    ∃ why acts t, exec (.replan daily reason m) s = .next t ∧ RaisedOnly (writeMargin why acts (s.replanned daily m)) t := by
  have he : exec (.replan daily reason m) s = execReplan daily reason m s := rfl
  have hgo : (!s.serving || (daily && !dailyDue s)) = false := by
    rw [hs]
    cases daily
    · rfl
    · rw [dailyDue, decide_eq_true (hdaily rfl)]
      rfl
  have hbit : bitOf reason 10 = false := by rw [bitOf_eq, hr]
  rw [he, execReplan, hgo, hbit, if_neg Bool.false_ne_true]
  extract_lets s0 plan0 s1 promos p fault1 plan1 s2 free step ladder2 s3 why acts num
  obtain ⟨-, htally, hladder, -⟩ := decidePlan_facts daily m (s.sensed m)
  have hfree2 : free = true := by
    show (decidePlan daily m (s.sensed m)).ladder.replacing.isNone = true
    rw [hladder]
    exact Option.isNone_iff_eq_none.mpr hfree
  have hframe2 : atFrame s2 = false := by
    show ((decidePlan daily m (s.sensed m)).clk.tally % frameTicks == 0) = false
    rw [htally]
    simpa [frameTicks, State.sensed] using hb
  have h3 : s3 = s.replanned daily m := (if_neg (by rw [hfree2]; decide)).trans (if_neg (Bool.eq_false_iff.mp hframe2))
  clear_value s3 why acts num
  rw [h3]
  exact ⟨why, acts, _, rfl, raisedOnly_raiseNode ..⟩

/-- Between two boundaries a re-plan changes the plan, the clock to come, the DRAM's set point and the ladder's request, beside the margin
record that ends it. -/
theorem replanned_record_facts {s t : State} {daily : Bool} {m : SensorSet} {why acts : Nat} (hroom : s.ledg.margins.length < 4096)
    (h : RaisedOnly (writeMargin why acts (s.replanned daily m)) t) :
    (t.plan.vcore = planVcore daily m s.plan.vcore
      ∧ t.clk.mhzTarget = planClock (s.sensed m) daily m (planVcore daily m s.plan.vcore) s.clk.mhzTarget
      ∧ t.plan.scale = planScale daily m s.plan.scale ∧ t.plan.retrain = planRetrain (s.sensed m) daily m s.plan.retrain)
    ∧ t.plan.due = 0 ∧ t.ladder.asked = true ∧ t.ledg.mgNext = (s.ledg.mgNext + 1) % 2 ^ 32
    ∧ t.ledg.margins.length = s.ledg.margins.length + 1 ∧ t.fw = s.fw ∧ t.vals = s.vals ∧ t.pending = s.pending := by
  obtain ⟨⟨hvcore, hclock, hscale, hretrain⟩, -, -, hledg, hfw, hvals, hpending⟩ := decidePlan_facts daily m (s.sensed m)
  have hledg' : (s.replanned daily m).ledg = s.ledg := hledg
  have hkeep : (if marginRoom ≤ s.ledg.margins.length then s.ledg.margins.take 1 ++ (s.ledg.margins.drop 1).drop 64 else s.ledg.margins)
      = s.ledg.margins := if_neg (Nat.not_le.mpr hroom)
  rw [writeMargin, hledg', hkeep] at h
  unfold RaisedOnly at h
  rw [h]
  exact ⟨⟨hvcore, hclock, hscale, hretrain⟩, rfl, rfl, rfl, List.length_append, hfw, hvals, hpending⟩

end Sys2Proof.Machine

open Sys2Proof Sys2Proof.Machine

/-- Settles O60: the flush completes the descriptor (`completeDesc_eq`), an entry is the ledger's last (`writeEntry_room`), and a re-plan ends
with the plan that `planVcore`, `planClock`, `planScale` and `planRetrain` give and one margin record more (`replanned_record_facts`). -/
theorem serviceRecords : Obligations.ServiceRecords := by
  unfold Obligations.ServiceRecords
  refine fun s => ⟨fun r h c g b hr hh hc hirq hlo hhi hg hsince => ⟨fun hlate => ?_, exec_recorderFlush_early hh hc hg hsince⟩,
    fun e n rest hs hq hroom => ?_, exec_opSecondsSave_due, exec_opSecondsSave_early,
    fun daily reason m v ps mv hs hdaily hbit hb hfree hroom hv hps hmv => ?_⟩
  · exact ⟨_, exec_recorderFlush_late hr hh hc hirq hlo hhi hg hsince hlate, rfl, rfl⟩
  · obtain ⟨y, hy, hfields⟩ := writeEntry_room e n (s := { s with ledg := { s.ledg with queue := rest } }) hroom
    exact ⟨y, (exec_ledgerEntryWrite_oldest hs hq).trans (congrArg Host.Outcome.next hy), hfields⟩
  · subst hv
    obtain ⟨why, acts, t, hexec, ht⟩ := exec_replan_between m hs hdaily hbit hb hfree
    obtain ⟨⟨hvcore, hclock, hscale, hretrain⟩, hrest⟩ := replanned_record_facts hroom ht
    refine ⟨t, hexec, fun hshort => ?_, fun hps0 hmv0 hd => ?_, fun hps0 hmv0 hd hslack hsram => ?_, fun hhot => ?_,
      fun hcool hd hf hslack hle => ?_, fun hce => ?_, fun hce hmax => ?_, fun heye => ?_, fun _ hdrop heye hd => ?_, hrest⟩
    · exact hvcore.trans (planVcore_raised hps hmv daily hshort)
    · rw [hvcore, hd, planVcore_kept hps hmv hps0 hmv0]
    · rw [hvcore, hd, planVcore_lowered hps hmv hps0 hmv0 hslack hsram]
    · exact hclock.trans (planClock_hot daily hhot)
    · rw [hvcore] at hle
      subst hd
      exact hclock.trans (planClock_daily hcool hf hslack hle)
    · exact hscale.trans (planScale_four daily hce)
    · exact hscale.trans (planScale_two daily hce hmax)
    · exact hretrain.trans (planRetrain_halved daily heye)
    · subst hd
      exact hretrain.trans (planRetrain_doubled heye hdrop)

end
